-- ==== Sys2Proof/Word.lean ====
section
/-! DEFINITION. The words of the ZM7160: bytes, 32-bit words, 40-bit cells and the 64-bit and 128-bit items of its fabrics (R4, R5). -/

namespace Sys2Proof

/-- One byte of memory. -/
abbrev Byte := BitVec 8

/-- One 32-bit register or memory word. -/
abbrev Word := BitVec 32

/-- One 40-bit cell: a 32-bit word with 8 guard bits above bit 31. -/
abbrev Cell := BitVec 40

/-- One 64-bit token payload (R181) or law operation. -/
abbrev Payload := BitVec 64

/-- One 128-bit Twiast flit (R406). -/
abbrev FlitWord := BitVec 128

end Sys2Proof
end

