-- ==== Sys2Proof/Syntax.lean ====
section
/-! DEFINITION. The commands of the ZM7160 model: one constructor for each row of the table of operations and events, and
the types of their operands. A command names the instance it concerns and carries what comes from outside the device:
the word written, the cells of a bitstream, the level of a ball, what an error-correcting code reports. -/

namespace Sys2Proof

/-- Who reads or writes a register: a core, at its privilege, a management port (port 4 is the debug port), or a Ladle
engine (R160, R441, R465). -/
inductive Requester where
  | core (c : Fin 16) (user : Bool)
  | port (p : Fin 5)
  | ladle (n : Fin 8)
deriving DecidableEq, Repr

/-- What is broken in the comparator of a pair (R364): the compared bits whose node is broken, so that a difference in one of them
exercises it, and the groups that a stuck node makes report two equal rails, with the level of both. -/
structure Comparator where
  broken : BitVec 314
  stuck : List (Fin 6 × Bool)
deriving DecidableEq, Repr

/-- What a boot, at power-good or at a DORMANT exit (R93), meets that its bytes do not say: pairs whose comparator is broken
(R365), an uncorrectable flash read in steps 2 to 4 of block A (bit 0) or block B (bit 1) (R382), and whether PCIE_REFCLK toggles
(R95). -/
structure BootReport where
  injection : List (Fin 8 × Comparator)
  badRead : BitVec 2
  pcieRef : Bool
deriving DecidableEq, Repr

/-- What power-good meets: its boot, and the straps that it samples: bit b is 1 when IOV_SEL_b is tied to GND (R63). -/
structure PowerReport where
  boot : BootReport
  straps : BitVec 12
deriving DecidableEq, Repr

/-- A holding cause of R83 other than the RESET_N pin. -/
inductive HoldCause where
  | thermal
  | clock
deriving DecidableEq, Repr

/-- A wake event (R56): a source that rises at a controller, a rising edge of the WAKE ball, or PM.ALARM. -/
inductive WakeCause where
  | interrupt (c : Fin 16) (source : Fin 384)
  | ball
  | alarm
deriving DecidableEq, Repr

/-- One bit period of a stream as it arrives (R115, R116, R120): one level throughout, which is the bit of an on-chip
modulator; the synchronised level of XB_nn_DAT at the mc edges before the cell's rising edge, latest first, and at each mc edge from
it on, the last of either lasting; or a bit period in which the stream's RUNNING is 0. -/
inductive StreamCell where
  | level (high : Bool)
  | samples (before : List Bool) (levels : List Bool)
  | idle
deriving DecidableEq, Repr

/-- Cells that arrive at an external bitstream input XB_nn (R120, R121). -/
structure InputCells where
  input : Fin 64
  cells : List StreamCell
deriving DecidableEq, Repr

/-- What the ECC of a law engine's store reports for one operation (R224): nothing, a corrected error, an uncorrectable
error in the program slot, or one in a state word. -/
inductive LawEcc where
  | none | corrected | program | word
deriving DecidableEq, Repr

/-- What the ECC of the Law Table reports for an entry (R224). -/
inductive TableEcc where
  | none | corrected | fatal
deriving DecidableEq, Repr

/-- What the ECC of a memory word reports (R262, R335, R382, R398). -/
inductive WordEcc where
  | none | corrected | uncorrectable
deriving DecidableEq, Repr

/-- What the scrubber's command brings: what the ECC reports of the word that the scrubber reads; or an error that has struck the word
or line at the address, which the next read of it meets, be it of a core, a Ladle, the session engine or the scrubber (R262, R335,
R382, R398; log entry 104). -/
inductive ScrubReport where
  | none | corrected | uncorrectable
  | struck (ecc : WordEcc)
deriving DecidableEq, Repr

/-- What meets the fill of an instruction-cache line (R261, R262, R335, R382): what the ECC reports of the first word it reads; or a
parity error in the line that the cache holds. -/
inductive LineReport where
  | none | corrected | uncorrectable | parity
deriving DecidableEq, Repr

/-- What a load meets when its data returns: what the ECC of its words reports, and the word that the checker of a locked pair
samples where it samples again (R277, R366). -/
structure LoadReport where
  ecc : WordEcc
  sample : Option Word
deriving DecidableEq, Repr

/-- Whether the lines that a flash command programmed, and the block that it erased, pass verification (R387, R390). -/
structure FlashReport where
  verified : Bool
  erased : Bool
deriving DecidableEq, Repr

/-- What a fault makes of the comparison of one instruction of a locked pair (R363, R364): the compared bits it inverts, in a
core, in a delay register or on their way, counted from group 0 upward, and what is broken in the comparator. -/
structure CmpReport where
  flips : BitVec 314
  comparator : Comparator
deriving DecidableEq, Repr

/-- Where a value that lands in a PWM shadow register comes from (R241): a store of DUTY_A to DUTY_D, PERIOD or PHASE
(register r of R241, 0 to 5); the oldest shadow write of a law engine; or a token at the group's shadow
endpoint. -/
inductive ShadowSource where
  | store (g : Fin 48) (r : Fin 6) (value : Word)
  | law (n : Fin 32)
  | token (g : Fin 48)
deriving DecidableEq, Repr

/-- The transfer instants of R241: the rc after a shadow landed, the rc before a period boundary, and a heat start. -/
inductive TransferKind where
  | landed | beforeBoundary | heat
deriving DecidableEq, Repr

/-- A core register that the debug port writes (R375). -/
inductive DebugReg where
  | control (n : Byte)
  | pc
  | frame (r : Fin 16)
deriving DecidableEq, Repr

/-- A Twiast timestamp (R407): time-base bits [31:0], then a fine fraction of 0 to 63. -/
abbrev Stamp := BitVec 38

/-- A control flit that a port's own schedule makes due (R405, R415, R417, R418). -/
inductive ControlDue where
  | link | audit | align | init
deriving DecidableEq, Repr

/-- An address that an Ethernet frame is sent to (R436). -/
inductive NetAddr where
  | ipv4 (addr : Word)
  | ipv6 (addr : BitVec 128)
deriving DecidableEq, Repr

/-- A management request (R438, R439), but for its CODE, which the command names: bytes 1 to 7 of its header, its payload and its CRC-32;
on an Ethernet port, the address and UDP port it came from, and those it is sent to; and what the ECC reports for each word that
a READ of it reads, in order (none where the list ends). -/
structure MgmtReq where
  tag : Byte
  length : BitVec 16
  result : Byte
  zeros : BitVec 24
  payload : List Byte
  crc : Word
  source : BitVec 144
  dest : NetAddr
  destPort : BitVec 16
  ecc : List WordEcc
deriving DecidableEq, Repr

/-- A host link (R434, R435). -/
inductive HostLink where
  | pcie
  | eth (n : Fin 2)
deriving DecidableEq, Repr

/-- The loss of a host link, and whether its reference clock is lost with it (R95, R434). -/
structure LinkLoss where
  link : HostLink
  reference : Bool
deriving DecidableEq, Repr

/-- What a host link has come to (R95, R435): its bring-up is complete, or, for PCIe, only PCIE_REFCLK has begun to toggle. -/
structure LinkRise where
  link : HostLink
  complete : Bool
deriving DecidableEq, Repr

/-- What a multiplexed ball comes to: its level; the enabled events that the controllers of sources 70 to 110 report then, source
70 in bit 0 (R326, R449); and, where the level ends a frame of a serial interface, what was received: a character of a UART in bits
[7:0], or the position of a serial-absolute interface (R432). -/
structure BallChange where
  high : Bool
  events : BitVec 41
  received : Option Word
deriving DecidableEq, Repr

/-- A management-address register of an Ethernet port (R436). -/
inductive MgmtReg where
  | ctrl
  | ipv4
  | ipv6 (k : Fin 4)
  | macLo
  | macHi
deriving DecidableEq, Repr

/-- A request for the Ethernet address of a management port (R436): ARP, or IPv6 Neighbor Discovery. -/
inductive AddressQuery where
  | arp (addr : Word)
  | neighbour (addr : BitVec 128)
deriving DecidableEq, Repr

/-- How the test of a region ends (R456, R457). -/
inductive AssayResult where
  | pass | fail | restoreFail
deriving DecidableEq, Repr

/-- The commands. -/
inductive Instr where
  /-- A write to a register with no row of its own acts on each field as its access code states. (R464) -/
  | registerWrite (who : Requester) (addr : Nat) (value : Word)
  /-- VIN rising above 8.6 V starts power-up: the in-package capacitance charges, VMID ramps and the on-die regulators start. (R34) -/
  | vinRise (straps : BitVec 12)
  /-- The supply signals power-good and the boot sequence of R85 begins. (R34) -/
  | powerGood (report : PowerReport)
  /-- VIN falls below 8.2 V or rises above 64 V, so outputs are forced safe and a full reset follows. (R36) -/
  | vinLoss (high : Bool)
  /-- The in-package clamp holds VMID at or below 5.5 V and the event is treated as a loss of VIN. (R35) -/
  | vmidClamp
  /-- A force-driven SAFE 1 output goes high 40 ns to 60 ns after it is driven low. (R158) -/
  | safeHighForceDelay (o : Fin 192)
  /-- 50 µs to 60 µs after detection, a force-held output becomes high impedance. (R467) -/
  | forceHoldExpiry (o : Fin 192)
  /-- VMID reaches 0.5 V, and power-up resumes if VIN is present and no holding cause remains. (R37) -/
  | dischargeComplete
  /-- The last holding cause ends and power-up resumes at step 2 of R34. (R83) -/
  | holdingCauseEnd (cause : HoldCause)
  /-- An output that has spent 10 ms in current limit is switched to high impedance. (R41) -/
  | currentLimitTrip (ball : Nat) (elapsed : Nat)
  /-- After 100 ms continuously out of limit, an output's accumulated limit time clears. (R41) -/
  | limitTimeClear (ball : Nat)
  /-- Writing 1 to SUP.IO_FAULT.VALID clears VALID, COUNT and BALL and re-enables every ball that R41 switched off. (R43) -/
  | ioFaultClear (who : Requester)
  /-- A 1 ms average of VIN and input power completes and updates PM.POWER. (R58) -/
  | powerAverage (vin : BitVec 12) (power : BitVec 12)
  /-- Every 100 µs SV_7 converts the eight temperature sensors for the power manager. (R175) -/
  | thermalScan (raws : List (BitVec 24))
  /-- Tj reaches the fixed trip, so outputs are forced safe and a full reset holds until Tj falls below 110 °C. (R50) -/
  | thermalTrip
  /-- The power manager chooses the deepest permitted power state and begins to enter it. (R53) -/
  | sleepEntry
  /-- After the current heat finishes and its tokens are retired, the device completes entry to HOLD or DORMANT. (R54) -/
  | entryComplete
  /-- An interrupt, a WAKE rising edge or PM.ALARM returns the device to RUN. (R56) -/
  | wakeEvent (cause : WakeCause) (report : BootReport)
  /-- PM.ALARM counts down to zero in DORMANT and wakes the device. (R58) -/
  | alarmExpiry (report : BootReport)
  /-- REFCLK stops or a PLL loses lock, so outputs are forced safe and a full reset with cause CLOCK follows. (R79) -/
  | clockLoss (refclk : Bool)
  /-- RESET_N held low for at least 1 µs starts a full reset with cause PIN. (R81) -/
  | resetPin
  /-- RESET_N goes high and power-up resumes at step 2 of R34. (R81) -/
  | resetPinRelease
  /-- A write to RST.CTRL with FULL = 1 and the correct KEY starts a full reset with cause SOFT. (R80) -/
  | softReset (who : Requester)
  /-- Setting RST.WDOG.EN loads the countdown from TIMEOUT, or is refused if TIMEOUT is 0. (R94) -/
  | wdogEnable (who : Requester) (timeout : BitVec 24)
  /-- Writing 0x5A3C to RST.WDOG_KICK reloads the watchdog countdown. (R95) -/
  | wdogKick (who : Requester)
  /-- The watchdog countdown expires and starts a full reset with cause WDOG. (R94) -/
  | wdogExpiry
  /-- Writing BOOT.CTRL.RELEASE releases the PWM outputs and arms Quench, unless the write is refused. (R92) -/
  | release (who : Requester)
  /-- A bit written to BOOT.CTRL.CORE_START starts that core at BOOT.START_PC. (R91) -/
  | coreStart (who : Requester) (cores : BitVec 16)
  /-- 1,600 mc after EN is set, MD_nn.STATUS.RUNNING becomes 1. (R116) -/
  | modulatorRunning (n : Fin 96)
  /-- A modulator bitstream holds one value for 24 mc, which sets OVERLOAD. (R117) -/
  | overload (n : Fin 96)
  /-- In clocked-data form, 64 equal consecutive bits set XB_nn.STATUS.STUCK. (R121) -/
  | stuck (arrival : InputCells)
  /-- The first XB_nn_CLK rising edge after EN is set makes RUNNING 1. (R122) -/
  | xbRunning (n : Fin 64)
  /-- The swift sinc³ path completes a result and places it in its holding buffer. `later` are the cells that arrive after
  those of the result until it stands there. (R125) -/
  | swiftResult (n : Fin 160) (cells : List StreamCell) (later : List StreamCell)
  /-- The fine sinc⁵ and FIR path completes a calibrated result and places it in its holding buffer. `later` are the cells that
  arrive after those of the result until it stands there. (R127) -/
  | fineResult (n : Fin 160) (cells : List StreamCell) (later : List StreamCell)
  /-- A write that sets a decimator path enable clears the path's filter and starts it. (R132) -/
  | pathStart (n : Fin 160) (fine : Bool)
  /-- Writing 0 to a decimator path enable schedules the path to stop. (R139) -/
  | pathDisable (n : Fin 160) (fine : Bool)
  /-- The rc after the drained buffer empties, the path's DISABLED bit sets. (R139) -/
  | pathDisabled (n : Fin 160) (fine : Bool)
  /-- Writing DEC_n.CTRL.SNAP copies both paths' audit counts and levels in one rc. (R138) -/
  | decSnap (n : Fin 160)
  /-- The input crosses a window threshold, which changes ABOVE or BELOW and the comparator's request. (R145) -/
  | comparatorCrossing (n : Fin 96) (above : Bool) (below : Bool)
  /-- 2 µs after commit, READY becomes 1 and the held start-up request drops. (R148) -/
  | comparatorReady (n : Fin 96)
  /-- A write to WC_nn.THR moves the DACs, or is refused whole if HI is not greater than LO. (R149) -/
  | thresholdWrite (n : Fin 96) (value : Word)
  /-- A write that changes WC.RB_SEL routes a new DAC to the Survey readback and clears SETTLED. (R152) -/
  | rbSelWrite (value : Word)
  /-- 2 µs after a selection change, RB_SEL.SETTLED reads 1. (R152) -/
  | rbSettled
  /-- A Quench request rises and is combined into every trip group that takes it. (R153) -/
  | quenchRequest (i : Fin 160)
  /-- A forced SAFE 1 output that was low goes high once its dead time has passed. (R156) -/
  | safeHighDeadTime (o : Fin 192)
  /-- A CYCLE-mode group with no raised request clears itself in the rc before a reference boundary. (R155) -/
  | groupSelfClear (g : Fin 16)
  /-- Writing QUENCH.RELEASE releases each named latched group whose requests are all low, or sets RELEASE_REFUSED. (R159) -/
  | quenchRelease (who : Requester) (groups : BitVec 16)
  /-- A write to QUENCH.CTRL.SW_REQ raises or lowers Quench request 45. (R153) -/
  | swReq (who : Requester) (raise : Bool)
  /-- Writing SV_n.CTRL.START with TRIG 0 triggers a Survey pass. (R171) -/
  | surveyStart (n : Fin 8)
  /-- A trigger from a previous pass end, a heat or the interval starts a pass. (R171) -/
  | surveyTrigger (n : Fin 8)
  /-- A converter finishes its 16,000 rc start-up and begins its conversion. (R170) -/
  | converterStartupDone (n : Fin 8)
  /-- A conversion ends, and its calibrated result is written with its NEW bit, or to URGENT_RESULT. (R173) -/
  | conversionEnd (n : Fin 8) (raw : BitVec 24)
  /-- A write of SV_n.URGENT with GO = 1 requests one conversion that abandons the one in progress. (R174) -/
  | urgent (n : Fin 8) (value : Word)
  /-- Writing SV_n.CTRL.EN = 0 finishes the current conversion and cancels a pending urgent request. (R177) -/
  | surveyDisable (n : Fin 8)
  /-- Once its buffer is empty and it has powered down, the converter sets DISABLED. (R177) -/
  | surveyDisabled (n : Fin 8)
  /-- A producer issues a token into a channel that holds a free credit, or into a Riser slot. (R186) -/
  | tokenIssue (endpoint : BitVec 10)
  /-- A ready consumer accepts the token at the head of a channel. (R185) -/
  | tokenAccept (endpoint : BitVec 10)
  /-- Writing TC_nnn.CTRL.EN = 0 sets DISABLE_PENDING and starts the channel's drain. (R193) -/
  | channelDisable (n : Fin 256)
  /-- The rc after INFLIGHT reaches 0, the channel sets DISABLED. (R193) -/
  | channelDisabled (n : Fin 256)
  /-- Writing EN = 1 enables a channel after any drain, or is refused for an unrouted channel. (R194) -/
  | channelEnable (n : Fin 256)
  /-- Writing RUN.AUDIT_CTRL.SNAP copies every channel's audit counts in one rc. (R192) -/
  | auditSnap
  /-- Writing RUN.AUDIT_CTRL.HWM_CLR sets every channel's HWM to its present INFLIGHT. (R203) -/
  | hwmClr
  /-- A heat starts everywhere in one rc, HEAT_NUM rises and RUN.STATUS.HEAT is set. (R196) -/
  | heatStart
  /-- A load of RUN.TIME_LO returns the low time base and captures the high half for that reader. (R197) -/
  | timeLoRead (who : Requester)
  /-- A store to RUN.PUSH_LO holds the low payload word in the core. (R198) -/
  | pushLo (c : Fin 16) (value : Word)
  /-- A store to RUN.PUSH_HI_q completes a token and places it in the push buffer, or is refused. (R198) -/
  | pushHi (c : Fin 16) (q : Fin 4) (value : Word)
  /-- A load of RUN.SNAP_k_LO returns the payload low word and captures the high word and tag. (R199) -/
  | snapLoRead (who : Requester) (k : Fin 128)
  /-- An idle engine dispatches its highest pending trigger and sets PC to its entry. (R215) -/
  | leDispatch (n : Fin 32) (ecc : LawEcc)
  /-- In an idle rc, UPDATE and INDEXED latches write their payloads into state words. (R213) -/
  | latchApply (n : Fin 32)
  /-- Law operation END ends the run. (R208) -/
  | leEnd (n : Fin 32) (ecc : LawEcc)
  /-- Law operation NOP does nothing for 1 rc. (R208) -/
  | leNop (n : Fin 32) (ecc : LawEcc)
  /-- Law operation MOV copies S[A] to S[D]. (R208) -/
  | leMov (n : Fin 32) (ecc : LawEcc)
  /-- Law operation LDI loads a scaled immediate into S[D]. (R208) -/
  | leLdi (n : Fin 32) (ecc : LawEcc)
  /-- Law operation ADD writes S[A] + S[B] to S[D] with saturation. (R208) -/
  | leAdd (n : Fin 32) (ecc : LawEcc)
  /-- Law operation SUB writes S[A] − S[B] to S[D] with saturation. (R208) -/
  | leSub (n : Fin 32) (ecc : LawEcc)
  /-- Law operation NEG negates S[A] into S[D]. (R208) -/
  | leNeg (n : Fin 32) (ecc : LawEcc)
  /-- Law operation ABS writes abs(S[A]) to S[D]. (R208) -/
  | leAbs (n : Fin 32) (ecc : LawEcc)
  /-- Law operation MIN writes the lesser of S[A] and S[B] to S[D]. (R208) -/
  | leMin (n : Fin 32) (ecc : LawEcc)
  /-- Law operation MAX writes the greater of S[A] and S[B] to S[D]. (R208) -/
  | leMax (n : Fin 32) (ecc : LawEcc)
  /-- Law operation SHL shifts S[A] left by X into S[D]. (R208) -/
  | leShl (n : Fin 32) (ecc : LawEcc)
  /-- Law operation SHR shifts S[A] right by X with rounding into S[D]. (R208) -/
  | leShr (n : Fin 32) (ecc : LawEcc)
  /-- Law operation MUL writes a rounded scaled product to S[D]. (R208) -/
  | leMul (n : Fin 32) (ecc : LawEcc)
  /-- Law operation MAC adds a rounded scaled product to S[D]. (R208) -/
  | leMac (n : Fin 32) (ecc : LawEcc)
  /-- Law operation MSU subtracts a rounded scaled product from S[D]. (R208) -/
  | leMsu (n : Fin 32) (ecc : LawEcc)
  /-- Law operation LIM clamps S[A] between S[B] and S[B+1], sets C and may raise a limit event. (R208) -/
  | leLim (n : Fin 32) (ecc : LawEcc)
  /-- Law operation CHK raises a limit event when S[A] lies outside its bounds. (R208) -/
  | leChk (n : Fin 32) (ecc : LawEcc)
  /-- Law operation TRIP raises a limit event with CODE X. (R208) -/
  | leTrip (n : Fin 32) (ecc : LawEcc)
  /-- Law operation SKIP makes the next operation a NOP when its condition holds. (R209) -/
  | leSkip (n : Fin 32) (ecc : LawEcc)
  /-- Law operation BR sets PC to T when its condition holds. (R209) -/
  | leBr (n : Fin 32) (ecc : LawEcc)
  /-- Law operation DJNZ decrements S[D] and branches if the result is not zero. (R208) -/
  | leDjnz (n : Fin 32) (ecc : LawEcc)
  /-- Law operation LUT performs an interpolated Law Table lookup into S[D]. (R222) -/
  | leLut (n : Fin 32) (ecc : LawEcc) (entry : TableEcc)
  /-- Law operation LUTX performs a direct lookup into S[D] and S[D+1]. (R222) -/
  | leLutx (n : Fin 32) (ecc : LawEcc) (entry : TableEcc)
  /-- Law operation SELMIN keeps the lesser cost and its tag in S[D] and S[D+1]. (R208) -/
  | leSelmin (n : Fin 32) (ecc : LawEcc)
  /-- Law operation WDUT sends a value, optionally clamped, through the shadow port to a PWM shadow register. (R217) -/
  | leWdut (n : Fin 32) (ecc : LawEcc)
  /-- Law operation OUT issues a token on an output port, waiting for credit. (R218) -/
  | leOut (n : Fin 32) (ecc : LawEcc)
  /-- A read port serves a waiting lookup or core access to the Law Table. (R223) -/
  | lookupServed (p : Fin 4) (entry : TableEcc)
  /-- A store to STATE_w_LO is held for the storing core. (R220) -/
  | stateLoWrite (who : Requester) (n : Fin 32) (w : Fin 256) (value : Word)
  /-- A store to STATE_w_HI writes the whole 40-bit state word from the held LO and the new HI. (R220) -/
  | stateHiWrite (who : Requester) (n : Fin 32) (w : Fin 256) (value : Word)
  /-- A load of STATE_w_LO returns the low word and captures the guard bits for the reader. (R220) -/
  | stateLoRead (who : Requester) (n : Fin 32) (w : Fin 256)
  /-- A store to a Law Table entry's low word is held for the core. (R225) -/
  | tableLoWrite (who : Requester) (entry : Fin 524288) (value : Word)
  /-- A store to an entry's high word writes the whole entry when the port serves it. (R225) -/
  | tableHiWrite (who : Requester) (entry : Fin 524288) (value : Word)
  /-- A load of an entry's low word captures the high word for the reader. (R225) -/
  | tableLoRead (who : Requester) (entry : Fin 524288)
  /-- Writing LE_nn.CTRL.EN = 0 sets DISABLE_PENDING and stops dispatch at the next heat or idle rc. (R226) -/
  | leDisable (n : Fin 32)
  /-- After the last run and its shadow writes end, the engine sets DISABLED. (R226) -/
  | leDisabled (n : Fin 32)
  /-- Writing EN = 1 enables the engine idle with empty latches, after any drain. (R227) -/
  | leEnable (n : Fin 32)
  /-- A PWM group's period starts, and its PERIOD and PHASE transfers apply. (R230) -/
  | periodBoundary (g : Fin 48)
  /-- At an output's rising instant a pulse is commanded and counted, and a blanking window starts. (R246) -/
  | pulseCommanded (o : Fin 192)
  /-- At the falling instant a commanded pulse is counted as emitted or suppressed. (R246) -/
  | pulseEnd (o : Fin 192)
  /-- A core write, law-engine write or token lands in a PWM shadow register, or is refused. (R241) -/
  | shadowWrite (source : ShadowSource)
  /-- At a transfer rc the active registers take their shadow values under the update policy. (R241) -/
  | shadowTransfer (g : Fin 48) (kind : TransferKind)
  /-- Writing PG_nn.CTRL.EN = 0 sets DISABLE_PENDING and fixes a stop boundary. (R249) -/
  | pgDisable (g : Fin 48)
  /-- At the stop boundary the outputs go safe, pulses are counted, the timeline stops and DISABLED follows. (R250) -/
  | stopBoundary (g : Fin 48)
  /-- A group enabled from DISABLED starts its timeline under its SYNC mode. (R251) -/
  | pgEnable (g : Fin 48)
  /-- Writing PG_nn.ACC_CTRL.SNAP copies the group's pulse-accounting counters in one rc. (R247) -/
  | accSnap (g : Fin 48)
  /-- Every 4,096 rc the fine-delay stages are retrimmed from the delay-locked reference. (R240) -/
  | delayRetrim (rangeEnd : Bool)
  /-- Core instruction NOP does nothing. (R290) -/
  | nop (c : Fin 16)
  /-- Core instruction DROP discards the top cell. (R290) -/
  | drop (c : Fin 16)
  /-- Core instruction DUP duplicates the top cell. (R290) -/
  | dup (c : Fin 16)
  /-- Flash command SWAP writes a new boot-selection record naming the other boot block. (R386) -/
  | flashSwap (who : Requester)
  /-- Core instruction SWAP exchanges the top two cells. (R290) -/
  | stackSwap (c : Fin 16)
  /-- Core instruction OVER copies the second cell to the top. (R290) -/
  | stackOver (c : Fin 16)
  /-- Core instruction ROT rotates the third cell to the top. (R290) -/
  | rot (c : Fin 16)
  /-- Core instruction NIP removes the second cell. (R290) -/
  | nip (c : Fin 16)
  /-- Core instruction TUCK copies the top cell below the second. (R290) -/
  | tuck (c : Fin 16)
  /-- Core instruction DROP2 discards the top two cells. (R290) -/
  | drop2 (c : Fin 16)
  /-- Core instruction DUP2 duplicates the top two cells. (R290) -/
  | dup2 (c : Fin 16)
  /-- Core instruction PICK n copies the cell n positions down to the top. (R290) -/
  | pick (c : Fin 16) (k : Byte)
  /-- Core instruction SYNC discards the fetch buffer and puts every committed SY value into effect. (R259) -/
  | sync (c : Fin 16)
  /-- Core instruction WAIT puts the core in its wait state. (R299) -/
  | wait (c : Fin 16)
  /-- With IE at 0, a core in WAIT continues without entry when an enabled source becomes pending. (R299) -/
  | waitExit (c : Fin 16)
  /-- Core instruction LIT8 pushes a sign-extended 8-bit immediate. (R290) -/
  | lit8 (c : Fin 16) (i : Byte)
  /-- Core instruction LIT16 pushes a sign-extended 16-bit immediate. (R290) -/
  | lit16 (c : Fin 16) (i : BitVec 16)
  /-- Core instruction LIT32 pushes a sign-extended 32-bit immediate. (R290) -/
  | lit32 (c : Fin 16) (i : Word)
  /-- Core instruction LITH pushes a 16-bit immediate placed in bits [31:16]. (R290) -/
  | lith (c : Fin 16) (i : BitVec 16)
  /-- Core instruction FRD n pushes frame register FR_n. (R290) -/
  | frd (c : Fin 16) (r : Fin 16)
  /-- Core instruction FWR n pops a cell into FR_n. (R290) -/
  | fwr (c : Fin 16) (r : Fin 16)
  /-- Core instruction ADD adds two cells and sets V and C. (R291) -/
  | add (c : Fin 16)
  /-- Core instruction SUB subtracts two cells and sets V and C. (R291) -/
  | sub (c : Fin 16)
  /-- Core instruction NEG negates a cell. (R291) -/
  | neg (c : Fin 16)
  /-- Core instruction ABS takes the absolute value of a cell. (R291) -/
  | abs (c : Fin 16)
  /-- Core instruction MULQ forms a rounded Q1.31 product. (R291) -/
  | mulq (c : Fin 16)
  /-- Core instruction MULI forms an integer product. (R291) -/
  | muli (c : Fin 16)
  /-- Core instruction MACQ adds a rounded Q1.31 product to an accumulator. (R291) -/
  | macq (c : Fin 16)
  /-- Core instruction MSUQ subtracts a rounded Q1.31 product from an accumulator. (R291) -/
  | msuq (c : Fin 16)
  /-- Core instruction MIN pushes the lesser of two cells. (R291) -/
  | min (c : Fin 16)
  /-- Core instruction MAX pushes the greater of two cells. (R291) -/
  | max (c : Fin 16)
  /-- Core instruction SHL shifts a cell left by k. (R291) -/
  | shl (c : Fin 16) (k : Byte)
  /-- Core instruction SHR shifts a cell right by k with rounding. (R291) -/
  | shr (c : Fin 16) (k : Byte)
  /-- Core instruction LSR shifts the low word right as unsigned. (R291) -/
  | lsr (c : Fin 16) (k : Byte)
  /-- Core instruction SATW clamps a cell to the 32-bit range. (R291) -/
  | satw (c : Fin 16)
  /-- Core instruction DIV performs a resumable 16-step signed division. (R302) -/
  | div (c : Fin 16) (steps : Nat)
  /-- Core instruction LIM clamps x between lo and hi and sets C. (R291) -/
  | lim (c : Fin 16)
  /-- Core instruction AND forms the bitwise AND of two cells. (R292) -/
  | and (c : Fin 16)
  /-- Core instruction OR forms the bitwise OR of two cells. (R292) -/
  | or (c : Fin 16)
  /-- Core instruction XOR forms the bitwise XOR of two cells. (R292) -/
  | xor (c : Fin 16)
  /-- Core instruction NOT inverts a cell. (R292) -/
  | not (c : Fin 16)
  /-- Core instruction CEQ pushes a condition value for equality. (R292) -/
  | ceq (c : Fin 16)
  /-- Core instruction CNE pushes a condition value for inequality. (R292) -/
  | cne (c : Fin 16)
  /-- Core instruction CLT pushes a condition value for signed less-than. (R292) -/
  | clt (c : Fin 16)
  /-- Core instruction CLE pushes a condition value for signed less-or-equal. (R292) -/
  | cle (c : Fin 16)
  /-- Core instruction CGT pushes a condition value for signed greater-than. (R292) -/
  | cgt (c : Fin 16)
  /-- Core instruction CGE pushes a condition value for signed greater-or-equal. (R292) -/
  | cge (c : Fin 16)
  /-- Core instruction CLTU compares the low words as unsigned values. (R292) -/
  | cltu (c : Fin 16)
  /-- Core instruction CZ tests a cell for zero. (R292) -/
  | cz (c : Fin 16)
  /-- Core instruction CN tests a cell for a negative value. (R292) -/
  | cn (c : Fin 16)
  /-- Core instruction CRCB steps a CRC over one byte. (R294) -/
  | crcb (c : Fin 16) (m : Byte) (p : Byte)
  /-- Core instruction CRCW steps a CRC over four bytes in little-endian order. (R294) -/
  | crcw (c : Fin 16) (m : Byte) (p : Byte)
  /-- Core instruction BCRC computes a resumable CRC over a memory range. (R303) -/
  | bcrc (c : Fin 16) (m : Byte) (p : Byte) (units : Nat)
  /-- Core instruction PAR pushes the parity of the low word. (R293) -/
  | par (c : Fin 16)
  /-- Core instruction BREV8 reverses the bits of the low byte. (R293) -/
  | brev8 (c : Fin 16)
  /-- Core instruction BREV16 reverses the bits of the low half. (R293) -/
  | brev16 (c : Fin 16)
  /-- Core instruction BREV32 reverses the bits of the low word. (R293) -/
  | brev32 (c : Fin 16)
  /-- Core instruction LD loads a signed 32-bit word with a load shadow. (R295) -/
  | ld (c : Fin 16) (ecc : WordEcc) (cmp : Option CmpReport)
  /-- Core instruction LDH loads a signed 16-bit half. (R295) -/
  | ldh (c : Fin 16) (ecc : WordEcc)
  /-- Core instruction LDQH loads a Q1.15 half at the Q1.31 scale. (R295) -/
  | ldqh (c : Fin 16) (ecc : WordEcc)
  /-- Core instruction LDB loads an unsigned byte. (R295) -/
  | ldb (c : Fin 16) (ecc : WordEcc)
  /-- Core instruction LDBS loads a signed byte. (R295) -/
  | ldbs (c : Fin 16) (ecc : WordEcc)
  /-- Core instruction LDX loads a 40-bit cell from an 8-aligned address. (R297) -/
  | ldx (c : Fin 16) (ecc : WordEcc)
  /-- Core instruction ST stores a 32-bit word, splitting an unaligned store. (R295) -/
  | st (c : Fin 16) (pause : Bool) (cmp : Option CmpReport)
  /-- Core instruction STH stores a 16-bit integer half. (R295) -/
  | sth (c : Fin 16) (pause : Bool)
  /-- Core instruction STQH stores a rounded Q1.15 half. (R295) -/
  | stqh (c : Fin 16) (pause : Bool)
  /-- Core instruction STB stores a byte. (R295) -/
  | stb (c : Fin 16)
  /-- Core instruction STX stores a 40-bit cell at an 8-aligned address. (R297) -/
  | stx (c : Fin 16)
  /-- Core instruction BMOV moves a block of words, resumably. (R303) -/
  | bmov (c : Fin 16) (units : Nat)
  /-- Core instruction BMAC accumulates products over two arrays, resumably. (R303) -/
  | bmac (c : Fin 16) (units : Nat)
  /-- Data for a load waiting on a slow memory arrives and the load completes. (R277) -/
  | loadDataReturn (c : Fin 16) (report : LoadReport)
  /-- An accepted store lands in memory, merging a partial word or dropping on an uncorrectable error. (R336) -/
  | storeLand (c : Fin 16) (ecc : WordEcc)
  /-- An instruction-cache miss fills a whole 32-byte line. (R261) -/
  | icacheFill (c : Fin 16) (addr : Word) (ecc : LineReport)
  /-- Core instruction BR branches unconditionally by a 16-bit offset. (R298) -/
  | br (c : Fin 16) (o : BitVec 16)
  /-- Core instruction BZ pops a cell and branches if it is zero. (R298) -/
  | bz (c : Fin 16) (o : BitVec 16)
  /-- Core instruction BNZ pops a cell and branches if it is not zero. (R298) -/
  | bnz (c : Fin 16) (o : BitVec 16)
  /-- Core instruction BV branches if V is 1. (R298) -/
  | bv (c : Fin 16) (o : BitVec 16)
  /-- Core instruction BNV branches if V is 0. (R298) -/
  | bnv (c : Fin 16) (o : BitVec 16)
  /-- Core instruction BC branches if C is 1. (R298) -/
  | bc (c : Fin 16) (o : BitVec 16)
  /-- Core instruction BNC branches if C is 0. (R298) -/
  | bnc (c : Fin 16) (o : BitVec 16)
  /-- Core instruction BSV branches if SV is 1. (R298) -/
  | bsv (c : Fin 16) (o : BitVec 16)
  /-- Core instruction BNSV branches if SV is 0. (R298) -/
  | bnsv (c : Fin 16) (o : BitVec 16)
  /-- Core instruction JMP jumps to a 32-bit address. (R298) -/
  | jmp (c : Fin 16) (t : Word)
  /-- Core instruction JMPI jumps to a popped address. (R298) -/
  | jmpi (c : Fin 16)
  /-- Core instruction CALL saves masked frame registers and a link, then jumps. (R269) -/
  | call (c : Fin 16) (mask : BitVec 16) (t : Word)
  /-- Core instruction CALLI calls a popped target address. (R269) -/
  | calli (c : Fin 16) (mask : BitVec 16)
  /-- Core instruction RET pops the link, restores frame registers and returns. (R270) -/
  | ret (c : Fin 16)
  /-- Core instruction LOOP sets LS, LE, LC and LA for a hardware loop. (R278) -/
  | loop (c : Fin 16) (u : BitVec 16)
  /-- Core instruction TRAP k raises exception 16 + k. (R298) -/
  | trap (c : Fin 16) (k : Byte)
  /-- Core instruction RETI pops the frame and restores PC, PSW, RLEVEL and PRG. (R311) -/
  | reti (c : Fin 16)
  /-- Core instruction MFC pushes a control register. (R281) -/
  | mfc (c : Fin 16) (n : Byte)
  /-- Core instruction MTC writes a control register, subject to SY and privilege. (R281) -/
  | mtc (c : Fin 16) (n : Byte)
  /-- Core instruction ICINV invalidates the instruction-cache line holding an address. (R261) -/
  | icinv (c : Fin 16)
  /-- Core instruction ICINVA invalidates every instruction-cache line. (R261) -/
  | icinva (c : Fin 16)
  /-- Core instruction SFLUSH writes every cell of a stack cache to memory and empties the cache. (R268) -/
  | sflush (c : Fin 16) (b : Byte)
  /-- Core instruction TLBINV removes the TLB entry that translates an address. (R347) -/
  | tlbinv (c : Fin 16)
  /-- Core instruction TLBINVA removes every unlocked TLB entry. (R347) -/
  | tlbinva (c : Fin 16)
  /-- Core instruction FENCE waits until every store, spill and Ladle request of the core has landed. (R299) -/
  | fence (c : Fin 16)
  /-- The controller claims the highest-priority eligible source and prepares its vector. (R320) -/
  | interruptClaim (c : Fin 16)
  /-- The claimed vector is presented and the core pushes its frame and enters the handler. (R308) -/
  | interruptEntry (c : Fin 16)
  /-- An MFC of SHADOW_PRG returns it and clears SHADOW_STATUS.VALID. (R317) -/
  | shadowPrgRead (c : Fin 16)
  /-- Writing SHADOW_STATUS with bit 30 set ends emergency addressing. (R317) -/
  | emergClear (c : Fin 16)
  /-- A store to IC.SWI_SET_k sets software-source bits. (R325) -/
  | swiSet (who : Requester) (k : Fin 4) (bits : Word)
  /-- A store to IC.SWI_CLR_k clears software-source bits. (R325) -/
  | swiClr (who : Requester) (k : Fin 4) (bits : Word)
  /-- Writing TLB_CFG.UNLOCK_ALL removes every locked TLB entry. (R347) -/
  | unlockAll (c : Fin 16)
  /-- Writing LD_n.CTRL.GO starts the engine in its mode, or is refused. (R351) -/
  | ladleGo (who : Requester) (n : Fin 8)
  /-- A Ladle engine completes one word, payload or ring write. (R351) -/
  | ladleUnit (n : Fin 8) (ecc : WordEcc)
  /-- Writing EN = 1 to a disabled engine without a fault arms it idle. (R354) -/
  | ladleEnable (n : Fin 8)
  /-- Writing EN = 0 lets the current unit finish and then sets DISABLED. (R353) -/
  | ladleDisable (n : Fin 8)
  /-- Writing 1 to LD_n.STATUS.FAULT clears FAULT, HELD and CAUSE. (R354) -/
  | ladleFaultClear (n : Fin 8)
  /-- The background scrubber reads and repairs shared SRAM and DRAM words. (R335) -/
  | scrub (addr : Nat) (ecc : ScrubReport)
  /-- The zero fill of shared SRAM or DRAM completes and its READY bit is set. (R337) -/
  | memoryFillDone (dram : Bool)
  /-- The debug port halts a core, or a locked pair at one boundary. (R375) -/
  | debugHalt (c : Fin 16)
  /-- The debug port steps a halted core. (R375) -/
  | debugStep (c : Fin 16)
  /-- A debug write to a core register is applied to both cores of a locked pair. (R375) -/
  | debugRegisterWrite (c : Fin 16) (reg : DebugReg) (value : Cell)
  /-- Flash command PROGRAM programs BUF_0 to BUF_15 into a blank line. (R387) -/
  | flashProgram (who : Requester) (offset : BitVec 26)
  /-- Flash command ERASE erases a block and increments its erase count. (R386) -/
  | flashErase (who : Requester) (offset : BitVec 26)
  /-- Flash command SUSPEND suspends a running erase. (R388) -/
  | flashSuspend (who : Requester)
  /-- Flash command RESUME resumes a suspended erase. (R388) -/
  | flashResume (who : Requester)
  /-- Flash command UNLOCK compares the password hash and sets UNLOCKED or counts a failure. (R392) -/
  | flashUnlock (who : Requester)
  /-- Flash command LOCK clears UNLOCKED. (R386) -/
  | flashLock (who : Requester)
  /-- Flash command SET_PWD stores a new password hash. (R392) -/
  | flashSetPwd (who : Requester)
  /-- Flash command SET_PROT writes a new protection map. (R391) -/
  | flashSetProt (who : Requester)
  /-- A flash command ends, BUSY clears, DONE is set and RESULT takes its code. (R385) -/
  | commandEnd (report : FlashReport)
  /-- 60 s after the fifth failed UNLOCK, the flash lockout ends. (R392) -/
  | flashLockoutExpiry
  /-- Writing 1 to FLASH.INTERRUPTED.VALID clears the interrupted-command record. (R402) -/
  | interruptedClear
  /-- A received IDLE flit carries nothing. (R406) -/
  | idleFlit (p : Fin 4) (flit : FlitWord)
  /-- A received TOKEN flit is sequenced and then delivered, passed on, injected or held in DEAD. (R411) -/
  | tokenFlit (p : Fin 4) (flit : FlitWord)
  /-- A received LINK flit acknowledges flits, requests resends and returns credits. (R415) -/
  | linkFlit (p : Fin 4) (flit : FlitWord)
  /-- A received TIME_REQ is stamped and answered with a TIME_RESP. (R424) -/
  | timeReq (p : Fin 4) (flit : FlitWord) (arrived : Stamp) (answered : Stamp)
  /-- A received TIME_RESP updates θ, and the device trims its PLL or steps its time base. (R424) -/
  | timeResp (p : Fin 4) (flit : FlitWord) (arrived : Stamp)
  /-- A received HEAT flit is adopted as the heat schedule and flooded on, or ignored. (R428) -/
  | heatFlit (p : Fin 4) (flit : FlitWord)
  /-- A received AUDIT flit is checked against the link's audit counters. (R417) -/
  | auditFlit (p : Fin 4) (flit : FlitWord)
  /-- A received INIT flit is checked and, if it matches, takes the port UP with resynchronised sequencing. (R419) -/
  | initFlit (p : Fin 4) (flit : FlitWord)
  /-- A received ALIGN flit is used to deskew the port's two lanes. (R405) -/
  | alignFlit (p : Fin 4) (flit : FlitWord)
  /-- In each word-clock slot the port sends a control, passed-on, injected or IDLE flit. (R412) -/
  | flitTransmit (p : Fin 4) (due : Option ControlDue)
  /-- 512 word-clock cycles without an advancing acknowledgement resend the unacknowledged flits. (R415) -/
  | retryTimeout (p : Fin 4)
  /-- Both lanes finish adaptation and the port moves from TRAIN to LOCK. (R418) -/
  | lanesAdapted (p : Fin 4)
  /-- Block lock and deskew on both lanes move the port from LOCK to INIT. (R418) -/
  | blockLock (p : Fin 4)
  /-- A port that is not UP within 10 ms of TRAIN goes DOWN and counts an attempt. (R418) -/
  | bringUpTimeout (p : Fin 4)
  /-- Loss of block lock or of the recovered clock for 1 µs takes an UP port DOWN. (R418) -/
  | linkLoss (p : Fin 4)
  /-- After 10 µs in DOWN, the port returns to TRAIN. (R418) -/
  | downTimerEnd (p : Fin 4)
  /-- Every 1,024 word-clock cycles the aligning device sends a TIME_REQ. (R424) -/
  | timeExchange (sent : Stamp)
  /-- 1 ms without a TIME_RESP on TIME_SRC sets TIME_LOST and holds the trim. (R426) -/
  | timeLost
  /-- Writing TW.SYS_CTRL.ISSUE on the grand master sends a new HEAT schedule. (R427) -/
  | heatIssue (who : Requester)
  /-- Every 8,000 rc the grand master repeats its HEAT flit. (R427) -/
  | heatRepeat
  /-- Writing TW.SYS_CTRL.FORGET clears the record of the last adopted HEAT flit. (R428) -/
  | heatForget (who : Requester)
  /-- Setting TW_p.CTRL.EN starts bring-up in TRAIN. (R418) -/
  | portEnable (p : Fin 4)
  /-- Writing TW_p.CTRL.EN = 0 stops acceptance and drains the retry and landing buffers. (R421) -/
  | portDisable (p : Fin 4)
  /-- Once drained, the port goes to DISABLED. (R421) -/
  | portDisabled (p : Fin 4)
  /-- Clearing DEAD_INFO.FULL frees DEAD for the next undeliverable token. (R411) -/
  | deadClear (p : Fin 4)
  /-- Writing TW_p.AUDIT_CTRL.SNAP copies the seven link audit counters. (R431) -/
  | twAuditSnap (p : Fin 4)
  /-- Management command OPEN compares a key and opens a session, or counts a failure. (R445) -/
  | mgmtOpen (port : Fin 5) (req : MgmtReq)
  /-- Management command CLOSE closes the port's session. (R446) -/
  | mgmtClose (port : Fin 5) (req : MgmtReq)
  /-- Management command STATUS returns eight status words. (R440) -/
  | mgmtStatus (port : Fin 5) (req : MgmtReq)
  /-- Management command READ makes aligned 32-bit reads at physical addresses. (R441) -/
  | mgmtRead (port : Fin 5) (req : MgmtReq)
  /-- Management command WRITE makes aligned 32-bit writes at physical addresses. (R441) -/
  | mgmtWrite (port : Fin 5) (req : MgmtReq)
  /-- Management command RESET responds and then starts a full reset with cause MGMT. (R440) -/
  | mgmtReset (port : Fin 5) (req : MgmtReq)
  /-- Management command SET_KEY rewrites the session key record in flash. (R444) -/
  | mgmtSetKey (port : Fin 5) (req : MgmtReq)
  /-- Management command FORWARD hands bytes to firmware and sets FWD_PENDING. (R442) -/
  | mgmtForward (port : Fin 5) (req : MgmtReq)
  /-- Writing SESSION.REPLY_CTRL.GO returns firmware's reply to a FORWARD. (R442) -/
  | replyGo (who : Requester) (len : BitVec 9)
  /-- A FORWARD without a reply in 100 ms is answered NO_HANDLER. (R442) -/
  | noHandler
  /-- A session idle for TIMEOUT seconds closes. (R446) -/
  | sessionTimeout (port : Fin 5)
  /-- 60 s after its fifth failed OPEN, a port's lockout ends. (R445) -/
  | sessionLockoutExpiry (port : Fin 5)
  /-- Setting HOST.LINK.ETH_UP starts bring-up of an Ethernet port, or is refused. (R435) -/
  | ethUp (who : Requester) (n : Fin 2)
  /-- Setting HOST.LINK.PCIE_UP starts PCIe link training, or is refused. (R435) -/
  | pcieUp (who : Requester)
  /-- Loss of the PCIe or SGMII link or reference raises its source and closes its sessions. (R434) -/
  | hostLinkLoss (loss : LinkLoss)
  /-- A write that changes a management address, enable or MAC closes the port's session. (R436) -/
  | mgmtAddressWrite (who : Requester) (n : Fin 2) (reg : MgmtReg) (value : Word)
  /-- ETH_PPS_n rises in each rc whose time base is a multiple of PPS_PERIOD. (R437) -/
  | ppsRise (n : Fin 2)
  /-- ETH_PPS_n falls 8,000 rc after it rose. (R437) -/
  | ppsFall (n : Fin 2)
  /-- Test-access-port instruction BYPASS. (R432) -/
  | tapBypass
  /-- Test-access-port instruction IDCODE returns 0x2716_04E3. (R432) -/
  | tapIdcode
  /-- Test-access-port instruction SAMPLE/PRELOAD. (R432) -/
  | tapSamplePreload (balls : List (Nat × Bool))
  /-- Test-access-port instruction EXTEST drives balls only before release with a debug session open. (R433) -/
  | tapExtest
  /-- Test-access-port instruction EXTEST_PULSE on the lanes, under the same condition. (R433) -/
  | tapExtestPulse
  /-- Test-access-port instruction EXTEST_TRAIN on the lanes, under the same condition. (R433) -/
  | tapExtestTrain
  /-- Writing ASSAY.REQ_k requests regions for test. (R462) -/
  | assayRequest (who : Requester) (k : Fin 3) (bits : Word)
  /-- Writing ASSAY.CANCEL_k withdraws requests that have not started. (R462) -/
  | assayCancel (who : Requester) (k : Fin 3) (bits : Word)
  /-- A free lane starts the lowest requested region that meets its condition and is admitted. (R454) -/
  | assayRegionStart
  /-- A region's test ends, its state is restored and its result is recorded. (R456) -/
  | assayRegionEnd (lane : Fin 2) (result : AssayResult)
  /-- After an overvoltage, VIN falls below 62 V and the device may restart. (R30) -/
  | vinOvervoltageEnd
  /-- A signal output enters or leaves current limit, starting or stopping its accumulated limit time. (R41) -/
  | currentLimitChange (ball : Nat) (limited : Bool) (elapsed : Nat)
  /-- The level of a multiplexed ball used as a general-purpose input changes, moving its IN field and GPIO interrupt source. (R326) -/
  | gpioLevelChange (n : Fin 114) (change : BallChange)
  /-- The core meets an undefined opcode byte and raises an illegal-instruction exception. (R286) -/
  | undefinedOpcode (c : Fin 16) (op : Byte)
  /-- A management request whose CODE is not listed is answered with BAD_CODE. (R440) -/
  | mgmtBadCode (port : Fin 5) (code : Byte) (req : MgmtReq)
  /-- An Ethernet management port answers an ARP request, or an IPv6 Neighbor Discovery message, for its management address. (R438) -/
  | arp (n : Fin 2) (query : AddressQuery)
  /-- PCIe link training or SGMII bring-up completes and the link comes up. (R435) -/
  | hostLinkUp (link : LinkRise)
  /-- The debug port lets a halted core, or a locked pair, run on from its halt boundary. (R375) -/
  | debugResume (c : Fin 16)
deriving DecidableEq, Repr

end Sys2Proof
end

