-- ==== Sys2Proof/Machine/Operands.lean ====
section
/-! DEFINITION. The arithmetic that operands and results share: two's complement numbers, clamping and the rounding modes
of R205 and R272, CRCs (R101, R294) and bit reversal (R293). -/

namespace Sys2Proof.Machine

/-- A two's complement number of `w` bits. -/
def signedOf (w n : Nat) : Int := if n < 2 ^ (w - 1) then (n : Int) else (n : Int) - 2 ^ w

/-- Clamp to the range from `lo` to `hi`. -/
def clampInt (lo hi x : Int) : Int := if x < lo then lo else if hi < x then hi else x

/-- floor(p / q + 1/2), for q above 0. -/
def roundHalfUp (p q : Int) : Int := (2 * p + q) / (2 * q)

/-- Round p / 2^k by mode: 0 truncates to the floor, 1 rounds half up, 2 is convergent, 3 goes toward zero (R205). -/
def roundShift (mode : Nat) (p : Int) (k : Nat) : Int :=
  let q : Int := 2 ^ k
  match mode with
  | 0 => p / q
  | 1 => roundHalfUp p q
  | 2 =>
    let n := p / q
    let r2 := 2 * (p % q)
    if r2 < q then n else if q < r2 then n + 1 else if n % 2 = 0 then n else n + 1
  | _ => if 0 ≤ p then p / q else -((-p) / q)

/-- The range of a state word or a 40-bit cell. -/
def cellMax : Int := 2 ^ 39 - 1
def cellMin : Int := -(2 ^ 39)

/-- The range of a 32-bit word. -/
def wordMax : Int := 2 ^ 31 - 1
def wordMin : Int := -(2 ^ 31)

/-- Saturate to a 40-bit cell. -/
def satCell (x : Int) : Int := clampInt cellMin cellMax x

/-- Saturate to a 32-bit word. -/
def satWord (x : Int) : Int := clampInt wordMin wordMax x

/-- One step of a reflected CRC with polynomial `poly` (bits reversed) over one bit. -/
def crcBit (poly crc : Nat) (b : Bool) : Nat :=
  let x := if (crc % 2 = 1) != b then 1 else 0
  if x = 1 then (crc / 2) ^^^ poly else crc / 2

/-- The bits of a byte, least significant first. -/
def byteBits (n : Nat) : List Bool := (List.range 8).map (fun i => n.testBit i)

/-- A reflected CRC stepped over one byte. -/
def crcByte (poly crc n : Nat) : Nat := (byteBits n).foldl (crcBit poly) crc

/-- One step of a CRC that shifts left, of width `w` and polynomial `poly`, over one bit. -/
def crcMsbBit (w poly crc : Nat) (b : Bool) : Nat :=
  let top := crc.testBit (w - 1)
  let shifted := (2 * crc) % 2 ^ w
  if top != b then shifted ^^^ poly else shifted

/-- A left-shifting CRC stepped over one byte, most significant bit first. -/
def crcMsbByte (w poly crc n : Nat) : Nat := (byteBits n).reverse.foldl (crcMsbBit w poly) crc

/-- The low `w` bits of `n`, reversed. -/
def bitReverse (w n : Nat) : Nat := (List.range w).foldl (fun r i => if n.testBit i then r + 2 ^ (w - 1 - i) else r) 0

/-- The parity of `n`'s low 32 bits: 1 when the number of ones is odd. -/
def parity32 (n : Nat) : Nat := (List.range 32).foldl (fun r i => if n.testBit i then 1 - r else r) 0

end Sys2Proof.Machine
end

