-- ==== Sys2Proof/Config.lean ====
section
/-! DEFINITION. What the manual leaves open: free values, which no definition evaluates and no proof can look into,
and the constants that silicon revision B1 fixes without the manual printing them. -/

namespace Sys2Proof.Config

/-- A value that the manual leaves undefined: the n-th one the run meets (log entry 2). -/
opaque freeValue : Nat → BitVec 64

/-- Tap k of the compensating FIR filter, for k from 0 to 31, as CONV.FIR_COEF_k holds it (R128, log entry 3). -/
opaque firCoef : Nat → BitVec 20

/-- A byte of the factory region of the flash, which Brynian programs (R87, R381, log entry 4). -/
opaque factoryByte : Nat → BitVec 8

end Sys2Proof.Config
end

