-- ==== Sys2Proof/Machine/Map.lean ====
section
/-! DEFINITION. Sparse maps from numbers to data: the form in which registers, memories and arrays of blocks are held. -/

namespace Sys2Proof.Machine

/-- A sparse map: pairs in rising order of their number. -/
abbrev SMap (α : Type) := List (Nat × α)

/-- The entry of number `k`; an unlisted number reads as `d k`. -/
def mapGet {α : Type} (d : Nat → α) : SMap α → Nat → α
  | [], k => d k
  | p :: t, k => if p.1 = k then p.2 else mapGet d t k

/-- Place `v` at number `k`, in rising order. -/
def mapInsert {α : Type} : SMap α → Nat → α → SMap α
  | [], k, v => [(k, v)]
  | p :: t, k, v => if p.1 = k then (k, v) :: t else if k < p.1 then (k, v) :: p :: t else p :: mapInsert t k v

/-- Remove number `k`. -/
def mapErase {α : Type} : SMap α → Nat → SMap α
  | [], _ => []
  | p :: t, k => if p.1 = k then mapErase t k else p :: mapErase t k

/-- Write `v` at number `k` in canonical form: an entry equal to what an unlisted number reads as is not listed. -/
def mapSet {α : Type} [DecidableEq α] (d : Nat → α) (m : SMap α) (k : Nat) (v : α) : SMap α :=
  if v = d k then mapErase m k else mapInsert m k v

/-- Every number of the map is above `b`, the numbers rise, and no entry is equal to what an unlisted number reads as. -/
def mapWfFrom {α : Type} [DecidableEq α] (d : Nat → α) : Nat → SMap α → Bool
  | _, [] => true
  | b, p :: t => decide (b ≤ p.1) && decide (p.2 ≠ d p.1) && mapWfFrom d (p.1 + 1) t

/-- The canonical form of a sparse map. -/
def mapWf {α : Type} [DecidableEq α] (d : Nat → α) (m : SMap α) : Bool := mapWfFrom d 0 m

end Sys2Proof.Machine
end

