-- ==== Sys2Proof/Machine/Regs.lean ====
section
/-! DEFINITION. The register map: the address of every memory-mapped register, the place of every field, and the
table of access codes, reset values and reserved encodings (R12, R15, R16, R333 and the register rules of each chapter). -/

namespace Sys2Proof.Machine

/-- The access codes of R12. -/
inductive Access where
  | rw | ro | wo | w1c | w1s | rc | sy | pt
deriving DecidableEq, Repr

/-- The place of a field in its register: bits [hi:lo]. -/
structure Fld where
  hi : Nat
  lo : Nat
deriving DecidableEq, Repr

/-- One field of the register map: its place, its access code and its legal encodings
(`okLo` to `okHi`, or the one value `okAlso`); every other encoding is reserved (R16). -/
structure FieldDef where
  hi : Nat
  lo : Nat
  acc : Access
  okLo : Nat
  okHi : Nat
  okAlso : Option Nat
deriving DecidableEq, Repr

/-- One register, or one array of registers: address, (stride, count) of each index, reset word, fields. -/
structure RegDef where
  base : Nat
  dims : List (Nat × Nat)
  reset : Nat
  fields : List FieldDef
deriving DecidableEq, Repr

/-- Where the CFG_REJECT flag of a block stands (R463): nowhere, at one place, one for each instance of the block,
or in IC_FLAGS of the core whose controller is written. -/
inductive Reject where
  | none
  | at (addr bit : Nat)
  | inst (base stride bit : Nat)
  | core
deriving DecidableEq, Repr

/-- A block span of R333 with its function bit of R111 (31: no function) and its CFG_REJECT flag. -/
structure Block where
  base : Nat
  size : Nat
  fn : Nat
  reject : Reject
  regs : List RegDef
deriving DecidableEq, Repr

/-! ### Addresses (R333 and the register rules) -/

namespace A

def PM_CTRL : Nat := 0x80002000
def PM_STATUS : Nat := 0x80002004
def PM_LIMIT : Nat := 0x80002008
def PM_POWER : Nat := 0x8000200C
def SUP_STATUS : Nat := 0x80002010
def SUP_VIN_WARN : Nat := 0x80002014
def SUP_TJ_WARN : Nat := 0x80002018
def SUP_IO_FAULT : Nat := 0x8000201C
def PM_ALARM : Nat := 0x80002020
def IOMUX_CFG (n : Nat) : Nat := 0x80003000 + 0x4 * n
def IOMUX_BANK_LEVEL : Nat := 0x80003200
def IOMUX_STATUS : Nat := 0x80003204
def CLK_STATUS : Nat := 0x80001000
def RST_CAUSE : Nat := 0x80001010
def RST_CTRL : Nat := 0x80001014
def RST_WDOG : Nat := 0x80001018
def RST_WDOG_KICK : Nat := 0x8000101C
def BOOT_STATUS : Nat := 0x80001020
def BOOT_CTRL : Nat := 0x80001024
def BOOT_START_PC : Nat := 0x80001028
def PAT_STATUS : Nat := 0x80004000
def PAT_LEVEL : Nat := 0x80004004
def PAT_REJECT_A : Nat := 0x80004008
def PAT_REJECT_B : Nat := 0x8000400C
def PAT_LENGTH : Nat := 0x80004010
def PAT_CRC : Nat := 0x80004014
def PAT_BUILD_LO : Nat := 0x80004018
def PAT_BUILD_HI : Nat := 0x8000401C
def MD_CTRL (n : Nat) : Nat := 0x80010000 + 0x10 * n
def MD_STATUS (n : Nat) : Nat := 0x80010004 + 0x10 * n
def XB_CTRL (n : Nat) : Nat := 0x80011000 + 0x10 * n
def XB_STATUS (n : Nat) : Nat := 0x80011004 + 0x10 * n
def XB_VIOL_COUNT (n : Nat) : Nat := 0x80011008 + 0x10 * n
def CONV_FIR_COEF (n : Nat) : Nat := 0x80012000 + 0x4 * n
def DEC_CFG (n : Nat) : Nat := 0x80020000 + 0x80 * n
def DEC_CTRL (n : Nat) : Nat := 0x80020004 + 0x80 * n
def DEC_STATUS (n : Nat) : Nat := 0x80020008 + 0x80 * n
def DEC_FINE_OFFSET (n : Nat) : Nat := 0x8002000C + 0x80 * n
def DEC_FINE_GAIN (n : Nat) : Nat := 0x80020010 + 0x80 * n
def DEC_SWIFT_LAST (n : Nat) : Nat := 0x80020014 + 0x80 * n
def DEC_FINE_LAST (n : Nat) : Nat := 0x80020018 + 0x80 * n
def DEC_SWIFT_WITHHELD (n : Nat) : Nat := 0x8002001C + 0x80 * n
def DEC_FINE_WITHHELD (n : Nat) : Nat := 0x80020020 + 0x80 * n
def DEC_SNAP_SP_LO (n : Nat) : Nat := 0x80020024 + 0x80 * n
def DEC_SNAP_SD_LO (n : Nat) : Nat := 0x80020028 + 0x80 * n
def DEC_SNAP_FP_LO (n : Nat) : Nat := 0x80020030 + 0x80 * n
def DEC_SNAP_FD_LO (n : Nat) : Nat := 0x80020034 + 0x80 * n
def DEC_SNAP_S_HI (n : Nat) : Nat := 0x8002002C + 0x80 * n
def DEC_SNAP_F_HI (n : Nat) : Nat := 0x80020038 + 0x80 * n
def DEC_SNAP_LEVEL (n : Nat) : Nat := 0x8002003C + 0x80 * n
def WC_CTRL (n : Nat) : Nat := 0x80030000 + 0x10 * n
def WC_THR (n : Nat) : Nat := 0x80030004 + 0x10 * n
def WC_STATUS (n : Nat) : Nat := 0x80030008 + 0x10 * n
def WC_TRIP_COUNT (n : Nat) : Nat := 0x8003000C + 0x10 * n
def WC_RB_SEL : Nat := 0x80030800
def QUENCH_CTRL : Nat := 0x80031000
def QUENCH_RELEASE : Nat := 0x80031004
def QUENCH_STATUS : Nat := 0x80031008
def QUENCH_REQ (n : Nat) : Nat := 0x80031010 + 0x4 * n
def QUENCH_GCFG (n : Nat) : Nat := 0x80031040 + 0x4 * n
def QUENCH_IN (n k : Nat) : Nat := 0x80031100 + 0x20 * n + 0x4 * k
def QUENCH_OUT (n : Nat) : Nat := 0x80031300 + 0x4 * n
def QUENCH_CAUSE (n : Nat) : Nat := 0x80031400 + 0x8 * n
def QUENCH_TIME (n : Nat) : Nat := 0x80031404 + 0x8 * n
def QUENCH_FORCED (n : Nat) : Nat := 0x80031480 + 0x4 * n
def SV_CTRL (n : Nat) : Nat := 0x80038000 + 0x400 * n
def SV_SEQ (n : Nat) : Nat := 0x80038004 + 0x400 * n
def SV_URGENT (n : Nat) : Nat := 0x80038008 + 0x400 * n
def SV_STATUS (n : Nat) : Nat := 0x8003800C + 0x400 * n
def SV_OFFSET (n : Nat) : Nat := 0x80038010 + 0x400 * n
def SV_GAIN (n : Nat) : Nat := 0x80038014 + 0x400 * n
def SV_URGENT_RESULT (n : Nat) : Nat := 0x80038018 + 0x400 * n
def SV_NEW (n : Nat) : Nat := 0x8003801C + 0x400 * n
def SV_OVERRUN (n : Nat) : Nat := 0x80038020 + 0x400 * n
def SV_ENTRY (n k : Nat) : Nat := 0x80038100 + 0x400 * n + 0x4 * k
def SV_RESULT (n k : Nat) : Nat := 0x80038200 + 0x400 * n + 0x4 * k
def SV_TEMP (n : Nat) : Nat := 0x8003A000 + 0x4 * n
def TC_CTRL (n : Nat) : Nat := 0x80040000 + 0x20 * n
def TC_ROUTE_P (n : Nat) : Nat := 0x80040004 + 0x20 * n
def TC_ROUTE_C (n : Nat) : Nat := 0x80040008 + 0x20 * n
def TC_ROUTE_D (n : Nat) : Nat := 0x8004000C + 0x20 * n
def TC_CREDIT (n : Nat) : Nat := 0x80040010 + 0x20 * n
def TC_STATUS (n : Nat) : Nat := 0x80040014 + 0x20 * n
def TC_STALL (n : Nat) : Nat := 0x80040018 + 0x20 * n
def TC_HWM (n : Nat) : Nat := 0x8004001C + 0x20 * n
def RUN_STATUS : Nat := 0x80044000
def RUN_CTRL : Nat := 0x80044004
def RUN_HEAT_CFG : Nat := 0x80044008
def RUN_HEAT_NUM : Nat := 0x8004400C
def RUN_TIME_LO : Nat := 0x80044010
def RUN_TIME_HI : Nat := 0x80044014
def RUN_AUDIT_CTRL : Nat := 0x80044018
def RUN_AUDIT_ISSUED_LO : Nat := 0x8004401C
def RUN_AUDIT_RETIRED_LO : Nat := 0x80044020
def RUN_AUDIT_RETURNED_LO : Nat := 0x80044024
def RUN_AUDIT_HI_A : Nat := 0x80044028
def RUN_AUDIT_HI_B : Nat := 0x8004402C
def RUN_AUDIT_LEVEL : Nat := 0x80044030
def RUN_SNAP_LO (n : Nat) : Nat := 0x80048000 + 0x10 * n
def RUN_SNAP_HI (n : Nat) : Nat := 0x80048004 + 0x10 * n
def RUN_SNAP_TAG (n : Nat) : Nat := 0x80048008 + 0x10 * n
def RUN_PUSH_LO : Nat := 0x80049000
def RUN_PUSH_HI (n : Nat) : Nat := 0x80049004 + 0x4 * n
def RUN_PUSH_STATUS : Nat := 0x80049014
def LE_CTRL (n : Nat) : Nat := 0x80050000 + 0x4000 * n
def LE_CFG (n : Nat) : Nat := 0x80050004 + 0x4000 * n
def LE_RUNCFG (n : Nat) : Nat := 0x80050008 + 0x4000 * n
def LE_STATUS (n : Nat) : Nat := 0x8005000C + 0x4000 * n
def LE_PORT (n k : Nat) : Nat := 0x80050010 + 0x4000 * n + 0x4 * k
def LE_TGT (n k : Nat) : Nat := 0x80050020 + 0x4000 * n + 0x4 * k
def LE_RUNS (n : Nat) : Nat := 0x80050060 + 0x4000 * n
def LE_LATE (n : Nat) : Nat := 0x80050064 + 0x4000 * n
def LE_STALL (n : Nat) : Nat := 0x80050068 + 0x4000 * n
def LE_DISCARDED (n : Nat) : Nat := 0x8005006C + 0x4000 * n
def LE_RUNLEN (n : Nat) : Nat := 0x80050070 + 0x4000 * n
def LE_LIMIT_INFO (n : Nat) : Nat := 0x80050074 + 0x4000 * n
def LE_STATE_LO (n k : Nat) : Nat := 0x80050800 + 0x4000 * n + 0x8 * k
def LE_STATE_HI (n k : Nat) : Nat := 0x80050804 + 0x4000 * n + 0x8 * k
def LE_PROG_LO (n k : Nat) : Nat := 0x80052000 + 0x4000 * n + 0x8 * k
def LE_PROG_HI (n k : Nat) : Nat := 0x80052004 + 0x4000 * n + 0x8 * k
def LT_PART_BASE (n : Nat) : Nat := 0x800D0000 + 0x10 * n
def LT_PART_SIZE (n : Nat) : Nat := 0x800D0004 + 0x10 * n
def LT_PART_ORIGIN (n : Nat) : Nat := 0x800D0008 + 0x10 * n
def LT_PART_SCALE (n : Nat) : Nat := 0x800D000C + 0x10 * n
def LT_CTRL : Nat := 0x800D0400
def LT_STATUS : Nat := 0x800D0404
def LT_ECC_COUNT : Nat := 0x800D0408
def LT_ECC_ADDR : Nat := 0x800D040C
def PG_CTRL (n : Nat) : Nat := 0x800E0000 + 0x80 * n
def PG_CFG (n : Nat) : Nat := 0x800E0004 + 0x80 * n
def PG_PERIOD (n : Nat) : Nat := 0x800E0008 + 0x80 * n
def PG_PHASE (n : Nat) : Nat := 0x800E000C + 0x80 * n
def PG_DUTY (n k : Nat) : Nat := 0x800E0010 + 0x80 * n + 0x4 * k
def PG_DEAD (n : Nat) : Nat := 0x800E0020 + 0x80 * n
def PG_BLANK (n : Nat) : Nat := 0x800E0024 + 0x80 * n
def PG_STATUS (n : Nat) : Nat := 0x800E0028 + 0x80 * n
def PG_EVT_WITHHELD (n : Nat) : Nat := 0x800E002C + 0x80 * n
def PG_LATE_EDGES (n : Nat) : Nat := 0x800E0030 + 0x80 * n
def PG_PERIODS (n : Nat) : Nat := 0x800E0034 + 0x80 * n
def PG_ACTIVE (n k : Nat) : Nat := 0x800E0040 + 0x80 * n + 0x4 * k
def PG_ACC_CTRL (n : Nat) : Nat := 0x800E0060 + 0x80 * n
def PG_ACC_COMMANDED_LO (n : Nat) : Nat := 0x800E0064 + 0x80 * n
def PG_ACC_EMITTED_LO (n : Nat) : Nat := 0x800E0068 + 0x80 * n
def PG_ACC_SUPPRESSED_LO (n : Nat) : Nat := 0x800E006C + 0x80 * n
def PG_ACC_HI_A (n : Nat) : Nat := 0x800E0070 + 0x80 * n
def PG_ACC_HI_B (n : Nat) : Nat := 0x800E0074 + 0x80 * n
def PG_CAL : Nat := 0x800E2000
def IC_SRC (n k : Nat) : Nat := 0x80100000 + 0x1000 * n + 0x4 * k
def IC_LEVEL (n k : Nat) : Nat := 0x80100800 + 0x1000 * n + 0x4 * k
def IC_PEND (n k : Nat) : Nat := 0x80100840 + 0x1000 * n + 0x4 * k
def IC_STATUS (n : Nat) : Nat := 0x80100880 + 0x1000 * n
def IC_SWI_SET (n : Nat) : Nat := 0x80110000 + 0x4 * n
def IC_SWI_CLR (n : Nat) : Nat := 0x80110010 + 0x4 * n
def LD_CTRL (n : Nat) : Nat := 0x80120000 + 0x100 * n
def LD_SRC_LO (n : Nat) : Nat := 0x80120004 + 0x100 * n
def LD_DST_LO (n : Nat) : Nat := 0x80120008 + 0x100 * n
def LD_ADDR_HI (n : Nat) : Nat := 0x8012000C + 0x100 * n
def LD_COUNT (n : Nat) : Nat := 0x80120010 + 0x100 * n
def LD_IDX (n : Nat) : Nat := 0x80120014 + 0x100 * n
def LD_STATUS (n : Nat) : Nat := 0x80120018 + 0x100 * n
def LD_FAULT_ADDR (n : Nat) : Nat := 0x8012001C + 0x100 * n
def LD_HELD_LO (n : Nat) : Nat := 0x80120020 + 0x100 * n
def LD_HELD_HI (n : Nat) : Nat := 0x80120024 + 0x100 * n
def MEM_CTRL : Nat := 0x80128000
def MEM_STATUS : Nat := 0x80128004
def MEM_SRAM_CORR : Nat := 0x80128008
def MEM_DRAM_CORR : Nat := 0x8012800C
def MEM_FATAL_ADDR : Nat := 0x80128010
def LOCK_CTRL (n : Nat) : Nat := 0x80130000 + 0x40 * n
def LOCK_STATUS (n : Nat) : Nat := 0x80130004 + 0x40 * n
def LOCK_FLAGS (n : Nat) : Nat := 0x80130008 + 0x40 * n
def LOCK_LIMP_PC (n : Nat) : Nat := 0x8013000C + 0x40 * n
def LOCK_MISMATCH (n : Nat) : Nat := 0x80130010 + 0x40 * n
def LOCK_MISMATCH_PC (n : Nat) : Nat := 0x80130014 + 0x40 * n
def LOCK_TIME (n : Nat) : Nat := 0x80130018 + 0x40 * n
def FLASH_CMD : Nat := 0x80140000
def FLASH_STATUS : Nat := 0x80140004
def FLASH_CTRL : Nat := 0x80140008
def FLASH_SUSPEND_BLOCK : Nat := 0x8014000C
def FLASH_BUF (n : Nat) : Nat := 0x80140040 + 0x4 * n
def FLASH_PWD (n : Nat) : Nat := 0x80140080 + 0x4 * n
def FLASH_PROT_LO : Nat := 0x80140090
def FLASH_PROT_HI : Nat := 0x80140094
def FLASH_SEL : Nat := 0x80140098
def FLASH_SEL_SEQ : Nat := 0x8014009C
def FLASH_ERASE_COUNT : Nat := 0x801400A0
def FLASH_CORR_COUNT : Nat := 0x801400A4
def FLASH_FATAL_ADDR : Nat := 0x801400A8
def FLASH_INTERRUPTED : Nat := 0x801400AC
def FLASH_REMAP_SEL : Nat := 0x801400B0
def FLASH_REMAP_ENTRY : Nat := 0x801400B4
def JRNL_CTRL : Nat := 0x80148000
def JRNL_WP : Nat := 0x80148004
def JRNL_STATUS : Nat := 0x80148008
def JRNL_CORR_COUNT : Nat := 0x8014800C
def JRNL_FATAL_ADDR : Nat := 0x80148010
def TW_NODE : Nat := 0x80150000
def TW_CFG : Nat := 0x80150004
def TW_DOWN_MASK : Nat := 0x80150008
def TW_RINGDIR_HOME : Nat := 0x8015001C
def TW_RINGDIR_TRANSIT : Nat := 0x80150020
def TW_DIR_HOME_LO : Nat := 0x8015000C
def TW_DIR_HOME_HI : Nat := 0x80150010
def TW_DIR_TRANSIT_LO : Nat := 0x80150014
def TW_DIR_TRANSIT_HI : Nat := 0x80150018
def TW_SYS_CTRL : Nat := 0x80150040
def TW_SYS_STATUS : Nat := 0x80150044
def TW_SYS_PERIOD : Nat := 0x80150048
def TW_SYS_START_LO : Nat := 0x8015004C
def TW_SYS_START_HI : Nat := 0x80150050
def TW_HEAT_K : Nat := 0x80150054
def TW_TIME_OFFSET : Nat := 0x80150058
def TW_CTRL (n : Nat) : Nat := 0x80151000 + 0x400 * n
def TW_LANE_CFG (n : Nat) : Nat := 0x80151004 + 0x400 * n
def TW_STATUS (n : Nat) : Nat := 0x80151008 + 0x400 * n
def TW_PARTNER (n : Nat) : Nat := 0x8015100C + 0x400 * n
def TW_ASYM (n : Nat) : Nat := 0x80151010 + 0x400 * n
def TW_CRC_ERRORS (n : Nat) : Nat := 0x80151014 + 0x400 * n
def TW_RETRIES (n : Nat) : Nat := 0x80151018 + 0x400 * n
def TW_DEAD_INFO (n : Nat) : Nat := 0x8015101C + 0x400 * n
def TW_DEAD_LO (n : Nat) : Nat := 0x80151020 + 0x400 * n
def TW_DEAD_HI (n : Nat) : Nat := 0x80151024 + 0x400 * n
def TW_AUDIT_CTRL (n : Nat) : Nat := 0x80151040 + 0x400 * n
def TW_AUDIT_LO (n k : Nat) : Nat := 0x80151044 + 0x400 * n + 0x8 * k
def TW_AUDIT_HI (n k : Nat) : Nat := 0x80151048 + 0x400 * n + 0x8 * k
def HOST_EN : Nat := 0x80160000
def HOST_POS_MODE : Nat := 0x80160004
def HOST_LINK : Nat := 0x80160008
def HOST_STATUS : Nat := 0x8016000C
def ETH_MGMT_CTRL (n : Nat) : Nat := 0x80162800 + 0x1000 * n
def ETH_MGMT_IPV4 (n : Nat) : Nat := 0x80162804 + 0x1000 * n
def ETH_MGMT_IPV6 (n k : Nat) : Nat := 0x80162810 + 0x4 * n + 0x1000 * k
def ETH_MAC_LO (n : Nat) : Nat := 0x80162820 + 0x1000 * n
def ETH_MAC_HI (n : Nat) : Nat := 0x80162824 + 0x1000 * n
def SESSION_CTRL : Nat := 0x80180000
def SESSION_STATUS : Nat := 0x80180004
def SESSION_FWD_LEN : Nat := 0x80180008
def SESSION_REPLY_CTRL : Nat := 0x8018000C
def SESSION_FWD (n : Nat) : Nat := 0x80180100 + 0x4 * n
def SESSION_REPLY (n : Nat) : Nat := 0x80180200 + 0x4 * n
def ASSAY_CTRL : Nat := 0x80190000
def ASSAY_STATUS : Nat := 0x80190004
def ASSAY_REQ (n : Nat) : Nat := 0x80190010 + 0x4 * n
def ASSAY_CANCEL (n : Nat) : Nat := 0x80190020 + 0x4 * n
def ASSAY_RESULT (n : Nat) : Nat := 0x80190100 + 0x4 * n

end A

/-! ### Fields -/

namespace F

def PM_CTRL_SLEEP_EN : Fld := ⟨24, 24⟩
def PM_CTRL_DEEPEST : Fld := ⟨17, 16⟩
def PM_CTRL_WAKE_BUDGET : Fld := ⟨15, 0⟩
def PM_STATUS_WAKE_CAUSE : Fld := ⟨9, 8⟩
def PM_STATUS_CHOSEN : Fld := ⟨3, 2⟩
def PM_STATUS_LAST_STATE : Fld := ⟨1, 0⟩
def PM_LIMIT_PWR_LIMIT : Fld := ⟨11, 0⟩
def PM_POWER_VIN : Fld := ⟨23, 12⟩
def PM_POWER_P_IN : Fld := ⟨11, 0⟩
def SUP_STATUS_CFG_REJECT : Fld := ⟨4, 4⟩
def SUP_STATUS_ASSAY_DEFERRED : Fld := ⟨3, 3⟩
def SUP_STATUS_IO_FAULT_ANY : Fld := ⟨2, 2⟩
def SUP_STATUS_TJ_WARN : Fld := ⟨1, 1⟩
def SUP_STATUS_VIN_WARN : Fld := ⟨0, 0⟩
def SUP_VIN_WARN_THRESH : Fld := ⟨9, 0⟩
def SUP_TJ_WARN_THRESH : Fld := ⟨7, 0⟩
def SUP_IO_FAULT_VALID : Fld := ⟨31, 31⟩
def SUP_IO_FAULT_COUNT : Fld := ⟨23, 16⟩
def SUP_IO_FAULT_BALL : Fld := ⟨11, 0⟩
def PM_ALARM_COUNT : Fld := ⟨31, 0⟩
def IOMUX_CFG_IN : Fld := ⟨5, 5⟩
def IOMUX_CFG_OUT : Fld := ⟨4, 4⟩
def IOMUX_CFG_DIR : Fld := ⟨3, 3⟩
def IOMUX_CFG_FUNC : Fld := ⟨1, 0⟩
def IOMUX_BANK_LEVEL_LEVEL : Fld := ⟨11, 0⟩
def IOMUX_STATUS_CFG_REJECT : Fld := ⟨0, 0⟩
def CLK_STATUS_PCIE_REF_OK : Fld := ⟨4, 4⟩
def CLK_STATUS_REF_OK : Fld := ⟨3, 3⟩
def CLK_STATUS_MEM_LOCK : Fld := ⟨2, 2⟩
def CLK_STATUS_CORE_LOCK : Fld := ⟨1, 1⟩
def CLK_STATUS_MAIN_LOCK : Fld := ⟨0, 0⟩
def RST_CAUSE_MGMT : Fld := ⟨6, 6⟩
def RST_CAUSE_WDOG : Fld := ⟨5, 5⟩
def RST_CAUSE_SOFT : Fld := ⟨4, 4⟩
def RST_CAUSE_CLOCK : Fld := ⟨3, 3⟩
def RST_CAUSE_THERMAL : Fld := ⟨2, 2⟩
def RST_CAUSE_PIN : Fld := ⟨1, 1⟩
def RST_CAUSE_POWER : Fld := ⟨0, 0⟩
def RST_CTRL_KEY : Fld := ⟨31, 16⟩
def RST_CTRL_FULL : Fld := ⟨0, 0⟩
def RST_WDOG_EN : Fld := ⟨31, 31⟩
def RST_WDOG_TIMEOUT : Fld := ⟨23, 0⟩
def RST_WDOG_KICK_KICK : Fld := ⟨15, 0⟩
def BOOT_STATUS_PAIR_HELD : Fld := ⟨31, 24⟩
def BOOT_STATUS_BOOT_CORE : Fld := ⟨23, 20⟩
def BOOT_STATUS_FAIL_B : Fld := ⟨19, 16⟩
def BOOT_STATUS_FAIL_A : Fld := ⟨15, 12⟩
def BOOT_STATUS_CFG_REJECT : Fld := ⟨11, 11⟩
def BOOT_STATUS_ASSAY_FAIL : Fld := ⟨10, 10⟩
def BOOT_STATUS_RELEASED : Fld := ⟨9, 9⟩
def BOOT_STATUS_RECOVERY : Fld := ⟨8, 8⟩
def BOOT_STATUS_FELL_BACK : Fld := ⟨1, 1⟩
def BOOT_STATUS_BLOCK : Fld := ⟨0, 0⟩
def BOOT_CTRL_RELEASE : Fld := ⟨16, 16⟩
def BOOT_CTRL_CORE_START : Fld := ⟨15, 0⟩
def BOOT_START_PC_PC : Fld := ⟨31, 0⟩
def PAT_STATUS_STOCK_ID : Fld := ⟨31, 16⟩
def PAT_STATUS_FORMAT : Fld := ⟨15, 0⟩
def PAT_LEVEL_COMMITTED : Fld := ⟨31, 31⟩
def PAT_LEVEL_BASIC : Fld := ⟨10, 0⟩
def PAT_REJECT_A_CODE : Fld := ⟨31, 24⟩
def PAT_REJECT_A_HDR_CRC_BAD : Fld := ⟨23, 23⟩
def PAT_REJECT_A_OFFSET : Fld := ⟨22, 0⟩
def PAT_REJECT_B_CODE : Fld := ⟨31, 24⟩
def PAT_REJECT_B_HDR_CRC_BAD : Fld := ⟨23, 23⟩
def PAT_REJECT_B_OFFSET : Fld := ⟨22, 0⟩
def PAT_LENGTH_TOTAL_LENGTH : Fld := ⟨31, 0⟩
def PAT_CRC_PAT_CRC : Fld := ⟨31, 0⟩
def PAT_BUILD_LO_BUILD : Fld := ⟨31, 0⟩
def PAT_BUILD_HI_BUILD : Fld := ⟨31, 0⟩
def MD_CTRL_IRQ_EN : Fld := ⟨4, 4⟩
def MD_CTRL_ZERO : Fld := ⟨1, 1⟩
def MD_CTRL_EN : Fld := ⟨0, 0⟩
def MD_STATUS_CFG_REJECT : Fld := ⟨2, 2⟩
def MD_STATUS_OVERLOAD : Fld := ⟨1, 1⟩
def MD_STATUS_RUNNING : Fld := ⟨0, 0⟩
def XB_CTRL_DLY : Fld := ⟨31, 24⟩
def XB_CTRL_DIV : Fld := ⟨22, 16⟩
def XB_CTRL_IRQ_EN : Fld := ⟨5, 5⟩
def XB_CTRL_POL : Fld := ⟨4, 4⟩
def XB_CTRL_FORM : Fld := ⟨1, 1⟩
def XB_CTRL_EN : Fld := ⟨0, 0⟩
def XB_STATUS_CFG_REJECT : Fld := ⟨4, 4⟩
def XB_STATUS_LOSS : Fld := ⟨3, 3⟩
def XB_STATUS_STUCK : Fld := ⟨2, 2⟩
def XB_STATUS_VIOL : Fld := ⟨1, 1⟩
def XB_STATUS_RUNNING : Fld := ⟨0, 0⟩
def XB_VIOL_COUNT_COUNT : Fld := ⟨31, 0⟩
def CONV_FIR_COEF_COEF : Fld := ⟨19, 0⟩
def DEC_CFG_START_DLY : Fld := ⟨25, 16⟩
def DEC_CFG_FINE_OSR : Fld := ⟨15, 12⟩
def DEC_CFG_SWIFT_OSR : Fld := ⟨10, 8⟩
def DEC_CFG_SRC : Fld := ⟨7, 0⟩
def DEC_CTRL_IRQ_EN : Fld := ⟨4, 4⟩
def DEC_CTRL_SNAP : Fld := ⟨2, 2⟩
def DEC_CTRL_FINE_EN : Fld := ⟨1, 1⟩
def DEC_CTRL_SWIFT_EN : Fld := ⟨0, 0⟩
def DEC_STATUS_FINE_LEVEL : Fld := ⟨14, 12⟩
def DEC_STATUS_COUNT_FULL : Fld := ⟨11, 11⟩
def DEC_STATUS_SWIFT_LEVEL : Fld := ⟨10, 8⟩
def DEC_STATUS_CONS_FAULT : Fld := ⟨7, 7⟩
def DEC_STATUS_AUDIT_WRAP : Fld := ⟨6, 6⟩
def DEC_STATUS_CFG_REJECT : Fld := ⟨5, 5⟩
def DEC_STATUS_OVERRANGE : Fld := ⟨4, 4⟩
def DEC_STATUS_FINE_WITHHELD : Fld := ⟨3, 3⟩
def DEC_STATUS_SWIFT_WITHHELD : Fld := ⟨2, 2⟩
def DEC_STATUS_FINE_DISABLED : Fld := ⟨1, 1⟩
def DEC_STATUS_SWIFT_DISABLED : Fld := ⟨0, 0⟩
def DEC_FINE_OFFSET_OFFSET : Fld := ⟨23, 0⟩
def DEC_FINE_GAIN_GAIN : Fld := ⟨17, 0⟩
def DEC_SWIFT_LAST_VALUE : Fld := ⟨31, 0⟩
def DEC_FINE_LAST_VALUE : Fld := ⟨31, 8⟩
def DEC_SWIFT_WITHHELD_COUNT : Fld := ⟨31, 0⟩
def DEC_FINE_WITHHELD_COUNT : Fld := ⟨31, 0⟩
def DEC_SNAP_SP_LO_COUNT : Fld := ⟨31, 0⟩
def DEC_SNAP_SD_LO_COUNT : Fld := ⟨31, 0⟩
def DEC_SNAP_FP_LO_COUNT : Fld := ⟨31, 0⟩
def DEC_SNAP_FD_LO_COUNT : Fld := ⟨31, 0⟩
def DEC_SNAP_S_HI_DELIVERED_HI : Fld := ⟨31, 16⟩
def DEC_SNAP_S_HI_PRODUCED_HI : Fld := ⟨15, 0⟩
def DEC_SNAP_F_HI_DELIVERED_HI : Fld := ⟨31, 16⟩
def DEC_SNAP_F_HI_PRODUCED_HI : Fld := ⟨15, 0⟩
def DEC_SNAP_LEVEL_VALID : Fld := ⟨8, 8⟩
def DEC_SNAP_LEVEL_FINE_LEVEL : Fld := ⟨6, 4⟩
def DEC_SNAP_LEVEL_SWIFT_LEVEL : Fld := ⟨2, 0⟩
def WC_CTRL_BLANK_PG : Fld := ⟨13, 8⟩
def WC_CTRL_BLANK_SEL : Fld := ⟨7, 4⟩
def WC_CTRL_IRQ_EN : Fld := ⟨3, 3⟩
def WC_CTRL_MODE : Fld := ⟨2, 1⟩
def WC_CTRL_EN : Fld := ⟨0, 0⟩
def WC_THR_HI : Fld := ⟨27, 16⟩
def WC_THR_LO : Fld := ⟨11, 0⟩
def WC_STATUS_COUNT_FULL : Fld := ⟨6, 6⟩
def WC_STATUS_CFG_REJECT : Fld := ⟨5, 5⟩
def WC_STATUS_TRIP : Fld := ⟨4, 4⟩
def WC_STATUS_READY : Fld := ⟨3, 3⟩
def WC_STATUS_BELOW : Fld := ⟨1, 1⟩
def WC_STATUS_ABOVE : Fld := ⟨0, 0⟩
def WC_TRIP_COUNT_COUNT : Fld := ⟨31, 0⟩
def WC_RB_SEL_CFG_REJECT : Fld := ⟨9, 9⟩
def WC_RB_SEL_SETTLED : Fld := ⟨8, 8⟩
def WC_RB_SEL_DAC : Fld := ⟨7, 7⟩
def WC_RB_SEL_COMP : Fld := ⟨6, 0⟩
def QUENCH_CTRL_SW_REQ : Fld := ⟨0, 0⟩
def QUENCH_RELEASE_GROUP : Fld := ⟨15, 0⟩
def QUENCH_STATUS_TRIPPED : Fld := ⟨31, 16⟩
def QUENCH_STATUS_ARMED : Fld := ⟨4, 4⟩
def QUENCH_STATUS_NEW : Fld := ⟨3, 3⟩
def QUENCH_STATUS_RELEASE_REFUSED : Fld := ⟨2, 2⟩
def QUENCH_STATUS_CFG_REJECT : Fld := ⟨1, 1⟩
def QUENCH_REQ_RAISED : Fld := ⟨31, 0⟩
def QUENCH_GCFG_REF_PG : Fld := ⟨21, 16⟩
def QUENCH_GCFG_MODE : Fld := ⟨8, 8⟩
def QUENCH_GCFG_NOTICE : Fld := ⟨0, 0⟩
def QUENCH_IN_TAKE : Fld := ⟨31, 0⟩
def QUENCH_OUT_SAFE_D : Fld := ⟨31, 30⟩
def QUENCH_OUT_GROUP_D : Fld := ⟨28, 24⟩
def QUENCH_OUT_SAFE_C : Fld := ⟨23, 22⟩
def QUENCH_OUT_GROUP_C : Fld := ⟨20, 16⟩
def QUENCH_OUT_SAFE_B : Fld := ⟨15, 14⟩
def QUENCH_OUT_GROUP_B : Fld := ⟨12, 8⟩
def QUENCH_OUT_SAFE_A : Fld := ⟨7, 6⟩
def QUENCH_OUT_GROUP_A : Fld := ⟨4, 0⟩
def QUENCH_CAUSE_VALID : Fld := ⟨31, 31⟩
def QUENCH_CAUSE_STICKY : Fld := ⟨30, 30⟩
def QUENCH_CAUSE_REQUEST : Fld := ⟨7, 0⟩
def QUENCH_TIME_TIME : Fld := ⟨31, 0⟩
def QUENCH_FORCED_FORCED : Fld := ⟨31, 0⟩
def SV_CTRL_IRQ_MASK : Fld := ⟨12, 8⟩
def SV_CTRL_START : Fld := ⟨3, 3⟩
def SV_CTRL_TRIG : Fld := ⟨2, 1⟩
def SV_CTRL_EN : Fld := ⟨0, 0⟩
def SV_SEQ_INTERVAL : Fld := ⟨31, 16⟩
def SV_SEQ_LENGTH : Fld := ⟨4, 0⟩
def SV_URGENT_GO : Fld := ⟨31, 31⟩
def SV_URGENT_TOKEN : Fld := ⟨12, 12⟩
def SV_URGENT_RATE : Fld := ⟨10, 8⟩
def SV_URGENT_INPUT : Fld := ⟨6, 0⟩
def SV_STATUS_PASS : Fld := ⟨31, 24⟩
def SV_STATUS_ENTRY : Fld := ⟨20, 16⟩
def SV_STATUS_BUSY : Fld := ⟨9, 9⟩
def SV_STATUS_DISABLED : Fld := ⟨8, 8⟩
def SV_STATUS_POWERED : Fld := ⟨7, 7⟩
def SV_STATUS_URGENT_BUSY : Fld := ⟨6, 6⟩
def SV_STATUS_CFG_REJECT : Fld := ⟨4, 4⟩
def SV_STATUS_OVERRUN_ANY : Fld := ⟨3, 3⟩
def SV_STATUS_TRIG_MISSED : Fld := ⟨2, 2⟩
def SV_STATUS_URGENT_DONE : Fld := ⟨1, 1⟩
def SV_STATUS_SEQ_DONE : Fld := ⟨0, 0⟩
def SV_OFFSET_OFFSET : Fld := ⟨23, 0⟩
def SV_GAIN_GAIN : Fld := ⟨17, 0⟩
def SV_URGENT_RESULT_VALUE : Fld := ⟨31, 8⟩
def SV_URGENT_RESULT_INPUT : Fld := ⟨6, 0⟩
def SV_NEW_ENTRIES : Fld := ⟨31, 0⟩
def SV_OVERRUN_ENTRIES : Fld := ⟨31, 0⟩
def SV_ENTRY_TOKEN : Fld := ⟨12, 12⟩
def SV_ENTRY_RATE : Fld := ⟨10, 8⟩
def SV_ENTRY_INPUT : Fld := ⟨6, 0⟩
def SV_RESULT_VALUE : Fld := ⟨31, 8⟩
def SV_RESULT_PASS : Fld := ⟨7, 0⟩
def SV_TEMP_VALUE : Fld := ⟨31, 8⟩
def TC_CTRL_PRIO : Fld := ⟨5, 4⟩
def TC_CTRL_IRQ_EN : Fld := ⟨3, 3⟩
def TC_CTRL_EN : Fld := ⟨0, 0⟩
def TC_ROUTE_P_PROD : Fld := ⟨9, 0⟩
def TC_ROUTE_C_CONS_HI : Fld := ⟨25, 16⟩
def TC_ROUTE_C_CONS_LO : Fld := ⟨9, 0⟩
def TC_ROUTE_D_CONS_HI : Fld := ⟨25, 16⟩
def TC_ROUTE_D_CONS_LO : Fld := ⟨9, 0⟩
def TC_CREDIT_ALLOC : Fld := ⟨11, 0⟩
def TC_STATUS_CONS_FAULT : Fld := ⟨30, 30⟩
def TC_STATUS_COUNT_FULL : Fld := ⟨29, 29⟩
def TC_STATUS_AUDIT_WRAP : Fld := ⟨28, 28⟩
def TC_STATUS_CFG_REJECT : Fld := ⟨27, 27⟩
def TC_STATUS_DISABLE_PENDING : Fld := ⟨26, 26⟩
def TC_STATUS_DISABLED : Fld := ⟨25, 25⟩
def TC_STATUS_INFLIGHT : Fld := ⟨24, 12⟩
def TC_STATUS_FREE : Fld := ⟨11, 0⟩
def TC_STALL_COUNT : Fld := ⟨31, 0⟩
def TC_HWM_HWM : Fld := ⟨12, 0⟩
def RUN_STATUS_RISER_FREE : Fld := ⟨22, 16⟩
def RUN_STATUS_HEAT : Fld := ⟨5, 5⟩
def RUN_STATUS_NOTICE_SKIPPED : Fld := ⟨4, 4⟩
def RUN_STATUS_CFG_REJECT : Fld := ⟨3, 3⟩
def RUN_STATUS_CONS_FAULT : Fld := ⟨2, 2⟩
def RUN_STATUS_HEAT_RUNNING : Fld := ⟨0, 0⟩
def RUN_CTRL_HEAT_IE : Fld := ⟨5, 5⟩
def RUN_CTRL_NOTICE_IE : Fld := ⟨4, 4⟩
def RUN_CTRL_REJECT_IE : Fld := ⟨3, 3⟩
def RUN_HEAT_CFG_SRC : Fld := ⟨31, 30⟩
def RUN_HEAT_CFG_REF_PG : Fld := ⟨29, 24⟩
def RUN_HEAT_CFG_PERIOD : Fld := ⟨23, 0⟩
def RUN_HEAT_NUM_NUM : Fld := ⟨31, 0⟩
def RUN_TIME_LO_TIME : Fld := ⟨31, 0⟩
def RUN_TIME_HI_TIME : Fld := ⟨31, 0⟩
def RUN_AUDIT_CTRL_SEL : Fld := ⟨23, 16⟩
def RUN_AUDIT_CTRL_VALID : Fld := ⟨8, 8⟩
def RUN_AUDIT_CTRL_HWM_CLR : Fld := ⟨1, 1⟩
def RUN_AUDIT_CTRL_SNAP : Fld := ⟨0, 0⟩
def RUN_AUDIT_ISSUED_LO_COUNT : Fld := ⟨31, 0⟩
def RUN_AUDIT_RETIRED_LO_COUNT : Fld := ⟨31, 0⟩
def RUN_AUDIT_RETURNED_LO_COUNT : Fld := ⟨31, 0⟩
def RUN_AUDIT_HI_A_RETIRED_HI : Fld := ⟨31, 16⟩
def RUN_AUDIT_HI_A_ISSUED_HI : Fld := ⟨15, 0⟩
def RUN_AUDIT_HI_B_RISER : Fld := ⟨22, 16⟩
def RUN_AUDIT_HI_B_RETURNED_HI : Fld := ⟨15, 0⟩
def RUN_AUDIT_LEVEL_INFLIGHT : Fld := ⟨28, 16⟩
def RUN_AUDIT_LEVEL_FREE : Fld := ⟨11, 0⟩
def RUN_SNAP_LO_PAYLOAD : Fld := ⟨31, 0⟩
def RUN_SNAP_HI_PAYLOAD : Fld := ⟨31, 0⟩
def RUN_SNAP_TAG_COUNT : Fld := ⟨31, 16⟩
def RUN_SNAP_TAG_TAG : Fld := ⟨15, 0⟩
def RUN_PUSH_LO_PAYLOAD : Fld := ⟨31, 0⟩
def RUN_PUSH_HI_PAYLOAD : Fld := ⟨31, 0⟩
def RUN_PUSH_STATUS_REFUSED : Fld := ⟨8, 8⟩
def RUN_PUSH_STATUS_SPACE : Fld := ⟨3, 0⟩
def LE_CTRL_IRQ_EN : Fld := ⟨4, 4⟩
def LE_CTRL_EN : Fld := ⟨0, 0⟩
def LE_CFG_SLOT1_EN : Fld := ⟨21, 21⟩
def LE_CFG_PART1 : Fld := ⟨20, 16⟩
def LE_CFG_SLOT0_EN : Fld := ⟨13, 13⟩
def LE_CFG_PART0 : Fld := ⟨12, 8⟩
def LE_CFG_RND : Fld := ⟨1, 0⟩
def LE_RUNCFG_HEAT_TRIG : Fld := ⟨31, 31⟩
def LE_RUNCFG_HEAT_ENTRY : Fld := ⟨25, 16⟩
def LE_RUNCFG_MAX_OPS : Fld := ⟨11, 0⟩
def LE_STATUS_PC : Fld := ⟨25, 16⟩
def LE_STATUS_C : Fld := ⟨9, 9⟩
def LE_STATUS_COUNT_FULL : Fld := ⟨8, 8⟩
def LE_STATUS_CFG_REJECT : Fld := ⟨7, 7⟩
def LE_STATUS_INDEX_REJECT : Fld := ⟨6, 6⟩
def LE_STATUS_HEAT_MISSED : Fld := ⟨5, 5⟩
def LE_STATUS_SAT : Fld := ⟨4, 4⟩
def LE_STATUS_LIMIT : Fld := ⟨3, 3⟩
def LE_STATUS_RUNNING : Fld := ⟨2, 2⟩
def LE_STATUS_DISABLE_PENDING : Fld := ⟨1, 1⟩
def LE_STATUS_DISABLED : Fld := ⟨0, 0⟩
def LE_PORT_ENTRY : Fld := ⟨31, 22⟩
def LE_PORT_LEN : Fld := ⟨20, 12⟩
def LE_PORT_DEST : Fld := ⟨11, 4⟩
def LE_PORT_MODE : Fld := ⟨1, 0⟩
def LE_TGT_EN : Fld := ⟨15, 15⟩
def LE_TGT_PG : Fld := ⟨13, 8⟩
def LE_TGT_REG : Fld := ⟨3, 0⟩
def LE_RUNS_COUNT : Fld := ⟨31, 0⟩
def LE_LATE_COUNT : Fld := ⟨31, 0⟩
def LE_STALL_COUNT : Fld := ⟨31, 0⟩
def LE_DISCARDED_COUNT : Fld := ⟨31, 0⟩
def LE_RUNLEN_MAX : Fld := ⟨31, 16⟩
def LE_RUNLEN_LAST : Fld := ⟨15, 0⟩
def LE_LIMIT_INFO_PC : Fld := ⟨25, 16⟩
def LE_LIMIT_INFO_CODE : Fld := ⟨15, 8⟩
def LE_LIMIT_INFO_CAUSE : Fld := ⟨3, 0⟩
def LE_STATE_LO_WORD : Fld := ⟨31, 0⟩
def LE_STATE_HI_GUARD : Fld := ⟨7, 0⟩
def LE_PROG_LO_OPLO : Fld := ⟨31, 0⟩
def LE_PROG_HI_OPHI : Fld := ⟨8, 0⟩
def LT_PART_BASE_EN : Fld := ⟨31, 31⟩
def LT_PART_BASE_BASE : Fld := ⟨18, 0⟩
def LT_PART_SIZE_PORT : Fld := ⟨26, 24⟩
def LT_PART_SIZE_SIZE_M1 : Fld := ⟨18, 0⟩
def LT_PART_ORIGIN_ORIGIN : Fld := ⟨31, 0⟩
def LT_PART_SCALE_SHIFT : Fld := ⟨12, 8⟩
def LT_PART_SCALE_SLOPE_SHIFT : Fld := ⟨3, 0⟩
def LT_CTRL_IRQ_EN : Fld := ⟨0, 0⟩
def LT_STATUS_CFG_REJECT : Fld := ⟨2, 2⟩
def LT_STATUS_ECC_FATAL : Fld := ⟨1, 1⟩
def LT_STATUS_ECC_CORR : Fld := ⟨0, 0⟩
def LT_ECC_COUNT_COUNT : Fld := ⟨31, 0⟩
def LT_ECC_ADDR_FATAL : Fld := ⟨31, 31⟩
def LT_ECC_ADDR_ENTRY : Fld := ⟨18, 0⟩
def PG_CTRL_IRQ_EN : Fld := ⟨2, 2⟩
def PG_CTRL_EVT_EN : Fld := ⟨1, 1⟩
def PG_CTRL_EN : Fld := ⟨0, 0⟩
def PG_CFG_SYNC_PG : Fld := ⟨29, 24⟩
def PG_CFG_SYNC : Fld := ⟨23, 22⟩
def PG_CFG_CD_OFS : Fld := ⟨21, 20⟩
def PG_CFG_UPDATE : Fld := ⟨19, 18⟩
def PG_CFG_DT_UNIT : Fld := ⟨17, 17⟩
def PG_CFG_DFMT : Fld := ⟨16, 16⟩
def PG_CFG_OUT_EN : Fld := ⟨15, 12⟩
def PG_CFG_PAIR_CD : Fld := ⟨11, 11⟩
def PG_CFG_PAIR_AB : Fld := ⟨10, 10⟩
def PG_CFG_ALIGN_D_ALIGN_A : Fld := ⟨7, 0⟩
def PG_PERIOD_PERIOD : Fld := ⟨31, 0⟩
def PG_PHASE_PHASE : Fld := ⟨31, 0⟩
def PG_DUTY_DUTY : Fld := ⟨31, 0⟩
def PG_DEAD_DT_A : Fld := ⟨31, 16⟩
def PG_DEAD_DT_B : Fld := ⟨15, 0⟩
def PG_BLANK_LEN_D : Fld := ⟨31, 24⟩
def PG_BLANK_LEN_C : Fld := ⟨23, 16⟩
def PG_BLANK_LEN_B : Fld := ⟨15, 8⟩
def PG_BLANK_LEN_A : Fld := ⟨7, 0⟩
def PG_STATUS_CONS_FAULT : Fld := ⟨11, 11⟩
def PG_STATUS_AUDIT_WRAP : Fld := ⟨10, 10⟩
def PG_STATUS_COUNT_FULL : Fld := ⟨9, 9⟩
def PG_STATUS_MASTER_LOST : Fld := ⟨8, 8⟩
def PG_STATUS_RESYNC : Fld := ⟨7, 7⟩
def PG_STATUS_EVT_WITHHELD : Fld := ⟨6, 6⟩
def PG_STATUS_LATE : Fld := ⟨5, 5⟩
def PG_STATUS_DUTY_CLAMP : Fld := ⟨4, 4⟩
def PG_STATUS_CFG_REJECT : Fld := ⟨3, 3⟩
def PG_STATUS_RUNNING : Fld := ⟨2, 2⟩
def PG_STATUS_DISABLE_PENDING : Fld := ⟨1, 1⟩
def PG_STATUS_DISABLED : Fld := ⟨0, 0⟩
def PG_EVT_WITHHELD_COUNT : Fld := ⟨31, 0⟩
def PG_LATE_EDGES_COUNT : Fld := ⟨31, 0⟩
def PG_PERIODS_NUM : Fld := ⟨31, 0⟩
def PG_ACTIVE_VALUE : Fld := ⟨31, 0⟩
def PG_ACC_CTRL_VALID : Fld := ⟨8, 8⟩
def PG_ACC_CTRL_SEL : Fld := ⟨5, 4⟩
def PG_ACC_CTRL_SNAP : Fld := ⟨0, 0⟩
def PG_ACC_COMMANDED_LO_COUNT : Fld := ⟨31, 0⟩
def PG_ACC_EMITTED_LO_COUNT : Fld := ⟨31, 0⟩
def PG_ACC_SUPPRESSED_LO_COUNT : Fld := ⟨31, 0⟩
def PG_ACC_HI_A_EMITTED_HI : Fld := ⟨31, 16⟩
def PG_ACC_HI_A_COMMANDED_HI : Fld := ⟨15, 0⟩
def PG_ACC_HI_B_IN_PROGRESS : Fld := ⟨16, 16⟩
def PG_ACC_HI_B_SUPPRESSED_HI : Fld := ⟨15, 0⟩
def PG_CAL_IRQ_EN : Fld := ⟨8, 8⟩
def PG_CAL_CAL_FAULT : Fld := ⟨1, 1⟩
def PG_CAL_LOCKED : Fld := ⟨0, 0⟩
def IC_SRC_ROUTE : Fld := ⟨15, 15⟩
def IC_SRC_PRIO : Fld := ⟨11, 8⟩
def IC_SRC_EN : Fld := ⟨0, 0⟩
def IC_LEVEL_BITS : Fld := ⟨31, 0⟩
def IC_PEND_BITS : Fld := ⟨31, 0⟩
def IC_STATUS_HALTED : Fld := ⟨31, 31⟩
def IC_STATUS_WAITING : Fld := ⟨30, 30⟩
def IC_STATUS_EMERG : Fld := ⟨29, 29⟩
def IC_STATUS_SHADOW_VALID : Fld := ⟨28, 28⟩
def IC_STATUS_RLEVEL : Fld := ⟨20, 16⟩
def IC_STATUS_CLAIM : Fld := ⟨9, 0⟩
def IC_SWI_SET_SWI : Fld := ⟨31, 0⟩
def IC_SWI_CLR_SWI : Fld := ⟨31, 0⟩
def LD_CTRL_MODE : Fld := ⟨5, 4⟩
def LD_CTRL_IRQ_EN : Fld := ⟨3, 3⟩
def LD_CTRL_GO : Fld := ⟨1, 1⟩
def LD_CTRL_EN : Fld := ⟨0, 0⟩
def LD_SRC_LO_ADDR : Fld := ⟨31, 0⟩
def LD_DST_LO_ADDR : Fld := ⟨31, 0⟩
def LD_ADDR_HI_DST_HI : Fld := ⟨19, 16⟩
def LD_ADDR_HI_SRC_HI : Fld := ⟨3, 0⟩
def LD_COUNT_COUNT : Fld := ⟨31, 0⟩
def LD_IDX_RD_IDX : Fld := ⟨31, 16⟩
def LD_IDX_WR_IDX : Fld := ⟨15, 0⟩
def LD_STATUS_CAUSE : Fld := ⟨31, 24⟩
def LD_STATUS_HELD : Fld := ⟨5, 5⟩
def LD_STATUS_CFG_REJECT : Fld := ⟨4, 4⟩
def LD_STATUS_FAULT : Fld := ⟨3, 3⟩
def LD_STATUS_DONE : Fld := ⟨2, 2⟩
def LD_STATUS_BUSY : Fld := ⟨1, 1⟩
def LD_STATUS_DISABLED : Fld := ⟨0, 0⟩
def LD_FAULT_ADDR_VALUE : Fld := ⟨31, 0⟩
def LD_HELD_LO_VALUE : Fld := ⟨31, 0⟩
def LD_HELD_HI_VALUE : Fld := ⟨31, 0⟩
def MEM_CTRL_IRQ_EN : Fld := ⟨0, 0⟩
def MEM_STATUS_DRAM_READY : Fld := ⟨3, 3⟩
def MEM_STATUS_SRAM_READY : Fld := ⟨2, 2⟩
def MEM_STATUS_FATAL : Fld := ⟨1, 1⟩
def MEM_STATUS_CORR : Fld := ⟨0, 0⟩
def MEM_SRAM_CORR_COUNT : Fld := ⟨31, 0⟩
def MEM_DRAM_CORR_COUNT : Fld := ⟨31, 0⟩
def MEM_FATAL_ADDR_ADDR : Fld := ⟨31, 0⟩
def LOCK_CTRL_LIMP_EN : Fld := ⟨1, 1⟩
def LOCK_CTRL_IRQ_EN : Fld := ⟨0, 0⟩
def LOCK_STATUS_CAUSE : Fld := ⟨11, 8⟩
def LOCK_STATUS_OUTCOME : Fld := ⟨6, 4⟩
def LOCK_STATUS_STATE : Fld := ⟨2, 0⟩
def LOCK_FLAGS_CFG_REJECT : Fld := ⟨2, 2⟩
def LOCK_FLAGS_DECIDED : Fld := ⟨1, 1⟩
def LOCK_FLAGS_DETECTED : Fld := ⟨0, 0⟩
def LOCK_LIMP_PC_PC : Fld := ⟨31, 0⟩
def LOCK_MISMATCH_VALID : Fld := ⟨31, 31⟩
def LOCK_MISMATCH_BIT : Fld := ⟨15, 8⟩
def LOCK_MISMATCH_GROUP : Fld := ⟨2, 0⟩
def LOCK_MISMATCH_PC_PC : Fld := ⟨31, 0⟩
def LOCK_TIME_TIME : Fld := ⟨31, 0⟩
def FLASH_CMD_CODE : Fld := ⟨31, 28⟩
def FLASH_CMD_OFFSET : Fld := ⟨25, 0⟩
def FLASH_STATUS_RESULT : Fld := ⟨19, 16⟩
def FLASH_STATUS_LOCKOUT : Fld := ⟨8, 8⟩
def FLASH_STATUS_UNLOCKED : Fld := ⟨7, 7⟩
def FLASH_STATUS_REMAPPED : Fld := ⟨6, 6⟩
def FLASH_STATUS_FATAL : Fld := ⟨5, 5⟩
def FLASH_STATUS_CORR : Fld := ⟨4, 4⟩
def FLASH_STATUS_CFG_REJECT : Fld := ⟨3, 3⟩
def FLASH_STATUS_DONE : Fld := ⟨2, 2⟩
def FLASH_STATUS_SUSPENDED : Fld := ⟨1, 1⟩
def FLASH_STATUS_BUSY : Fld := ⟨0, 0⟩
def FLASH_CTRL_IRQ_MASK : Fld := ⟨6, 0⟩
def FLASH_SUSPEND_BLOCK_BLOCK : Fld := ⟨8, 0⟩
def FLASH_BUF_DATA : Fld := ⟨31, 0⟩
def FLASH_PWD_PWD : Fld := ⟨31, 0⟩
def FLASH_PROT_LO_PROT : Fld := ⟨31, 0⟩
def FLASH_PROT_HI_PROT : Fld := ⟨31, 0⟩
def FLASH_SEL_ACTIVE : Fld := ⟨0, 0⟩
def FLASH_SEL_SEQ_SEQ : Fld := ⟨31, 0⟩
def FLASH_ERASE_COUNT_VALUE : Fld := ⟨31, 0⟩
def FLASH_CORR_COUNT_VALUE : Fld := ⟨31, 0⟩
def FLASH_FATAL_ADDR_VALUE : Fld := ⟨31, 0⟩
def FLASH_INTERRUPTED_VALID : Fld := ⟨31, 31⟩
def FLASH_INTERRUPTED_CMD : Fld := ⟨27, 26⟩
def FLASH_INTERRUPTED_OFFSET : Fld := ⟨25, 0⟩
def FLASH_REMAP_SEL_INDEX : Fld := ⟨5, 0⟩
def FLASH_REMAP_ENTRY_VALID : Fld := ⟨31, 31⟩
def FLASH_REMAP_ENTRY_KIND : Fld := ⟨30, 29⟩
def FLASH_REMAP_ENTRY_BLOCK : Fld := ⟨13, 5⟩
def FLASH_REMAP_ENTRY_SPARE : Fld := ⟨4, 0⟩
def JRNL_CTRL_IRQ_EN : Fld := ⟨0, 0⟩
def JRNL_WP_WP : Fld := ⟨15, 0⟩
def JRNL_STATUS_WP_HIT : Fld := ⟨2, 2⟩
def JRNL_STATUS_FATAL : Fld := ⟨1, 1⟩
def JRNL_STATUS_CORR : Fld := ⟨0, 0⟩
def JRNL_CORR_COUNT_VALUE : Fld := ⟨31, 0⟩
def JRNL_FATAL_ADDR_VALUE : Fld := ⟨31, 0⟩
def TW_NODE_TIME_SRC : Fld := ⟨31, 29⟩
def TW_NODE_TRANSIT_RING : Fld := ⟨28, 24⟩
def TW_NODE_BRIDGE : Fld := ⟨16, 16⟩
def TW_NODE_RING : Fld := ⟨10, 6⟩
def TW_NODE_POS : Fld := ⟨5, 0⟩
def TW_CFG_HOP_LIMIT : Fld := ⟨7, 0⟩
def TW_DOWN_MASK_RINGS : Fld := ⟨31, 0⟩
def TW_RINGDIR_HOME_RINGS : Fld := ⟨31, 0⟩
def TW_RINGDIR_TRANSIT_RINGS : Fld := ⟨31, 0⟩
def TW_DIR_HOME_LO_POSITIONS : Fld := ⟨31, 0⟩
def TW_DIR_HOME_HI_POSITIONS : Fld := ⟨31, 0⟩
def TW_DIR_TRANSIT_LO_POSITIONS : Fld := ⟨31, 0⟩
def TW_DIR_TRANSIT_HI_POSITIONS : Fld := ⟨31, 0⟩
def TW_SYS_CTRL_IE : Fld := ⟨13, 8⟩
def TW_SYS_CTRL_FORGET : Fld := ⟨1, 1⟩
def TW_SYS_CTRL_ISSUE : Fld := ⟨0, 0⟩
def TW_SYS_STATUS_EPOCH : Fld := ⟨27, 16⟩
def TW_SYS_STATUS_GEN : Fld := ⟨15, 8⟩
def TW_SYS_STATUS_CFG_REJECT : Fld := ⟨5, 5⟩
def TW_SYS_STATUS_HEAT_NEW : Fld := ⟨4, 4⟩
def TW_SYS_STATUS_HEAT_LATE : Fld := ⟨3, 3⟩
def TW_SYS_STATUS_STEPPED : Fld := ⟨2, 2⟩
def TW_SYS_STATUS_TIME_LOST : Fld := ⟨1, 1⟩
def TW_SYS_STATUS_LOCKED : Fld := ⟨0, 0⟩
def TW_SYS_PERIOD_PERIOD : Fld := ⟨23, 0⟩
def TW_SYS_START_LO_T_START : Fld := ⟨31, 0⟩
def TW_SYS_START_HI_T_START : Fld := ⟨31, 0⟩
def TW_HEAT_K_J : Fld := ⟨31, 0⟩
def TW_TIME_OFFSET_TRIM : Fld := ⟨31, 16⟩
def TW_TIME_OFFSET_THETA : Fld := ⟨15, 0⟩
def TW_CTRL_QMASK : Fld := ⟨30, 24⟩
def TW_CTRL_IRQ_EN : Fld := ⟨2, 2⟩
def TW_CTRL_EN : Fld := ⟨0, 0⟩
def TW_LANE_CFG_POST : Fld := ⟨11, 8⟩
def TW_LANE_CFG_PRE : Fld := ⟨7, 4⟩
def TW_LANE_CFG_AMP : Fld := ⟨1, 0⟩
def TW_STATUS_STATE : Fld := ⟨31, 29⟩
def TW_STATUS_ATTEMPTS : Fld := ⟨19, 12⟩
def TW_STATUS_DISABLED : Fld := ⟨11, 11⟩
def TW_STATUS_LOCKED : Fld := ⟨10, 10⟩
def TW_STATUS_CONS_FAULT : Fld := ⟨9, 9⟩
def TW_STATUS_COUNT_FULL : Fld := ⟨8, 8⟩
def TW_STATUS_CFG_REJECT : Fld := ⟨7, 7⟩
def TW_STATUS_AUDIT_WRAP : Fld := ⟨6, 6⟩
def TW_STATUS_DEAD : Fld := ⟨5, 5⟩
def TW_STATUS_PARTNER_RESET : Fld := ⟨4, 4⟩
def TW_STATUS_CONFIG_MISMATCH : Fld := ⟨3, 3⟩
def TW_STATUS_RETRY_EXHAUSTED : Fld := ⟨2, 2⟩
def TW_STATUS_LINK_DOWN : Fld := ⟨1, 1⟩
def TW_PARTNER_VALID : Fld := ⟨31, 31⟩
def TW_PARTNER_RING : Fld := ⟨28, 24⟩
def TW_PARTNER_PORT : Fld := ⟨23, 22⟩
def TW_PARTNER_NODE : Fld := ⟨10, 0⟩
def TW_ASYM_ASYM : Fld := ⟨15, 0⟩
def TW_CRC_ERRORS_COUNT : Fld := ⟨31, 0⟩
def TW_RETRIES_COUNT : Fld := ⟨31, 0⟩
def TW_DEAD_INFO_FULL : Fld := ⟨31, 31⟩
def TW_DEAD_INFO_SRC : Fld := ⟨21, 11⟩
def TW_DEAD_INFO_DEST : Fld := ⟨10, 0⟩
def TW_DEAD_LO_PAYLOAD : Fld := ⟨31, 0⟩
def TW_DEAD_HI_PAYLOAD : Fld := ⟨31, 0⟩
def TW_AUDIT_CTRL_VALID : Fld := ⟨8, 8⟩
def TW_AUDIT_CTRL_SNAP : Fld := ⟨0, 0⟩
def TW_AUDIT_LO_COUNT : Fld := ⟨31, 0⟩
def TW_AUDIT_HI_COUNT : Fld := ⟨15, 0⟩
def HOST_EN_QSPI : Fld := ⟨24, 24⟩
def HOST_EN_I2C : Fld := ⟨23, 20⟩
def HOST_EN_HSPI : Fld := ⟨19, 19⟩
def HOST_EN_SPI : Fld := ⟨18, 15⟩
def HOST_EN_UART : Fld := ⟨14, 7⟩
def HOST_EN_CAN : Fld := ⟨6, 3⟩
def HOST_EN_ETH : Fld := ⟨2, 1⟩
def HOST_EN_PCIE : Fld := ⟨0, 0⟩
def HOST_POS_MODE_MODES : Fld := ⟨31, 0⟩
def HOST_LINK_ETH_UP : Fld := ⟨2, 1⟩
def HOST_LINK_PCIE_UP : Fld := ⟨0, 0⟩
def HOST_STATUS_CFG_REJECT : Fld := ⟨0, 0⟩
def ETH_MGMT_CTRL_V6_EN : Fld := ⟨1, 1⟩
def ETH_MGMT_CTRL_V4_EN : Fld := ⟨0, 0⟩
def ETH_MGMT_IPV4_ADDR : Fld := ⟨31, 0⟩
def ETH_MGMT_IPV6_ADDR : Fld := ⟨31, 0⟩
def ETH_MAC_LO_MAC : Fld := ⟨31, 0⟩
def ETH_MAC_HI_MAC : Fld := ⟨15, 0⟩
def SESSION_CTRL_DBG_IE : Fld := ⟨17, 17⟩
def SESSION_CTRL_IRQ_EN : Fld := ⟨16, 16⟩
def SESSION_CTRL_TIMEOUT : Fld := ⟨11, 0⟩
def SESSION_STATUS_CFG_REJECT : Fld := ⟨27, 27⟩
def SESSION_STATUS_LOCKED : Fld := ⟨26, 26⟩
def SESSION_STATUS_CLOSED : Fld := ⟨25, 25⟩
def SESSION_STATUS_OPENED : Fld := ⟨24, 24⟩
def SESSION_STATUS_FWD_PENDING : Fld := ⟨17, 17⟩
def SESSION_STATUS_DEFAULT_KEY : Fld := ⟨16, 16⟩
def SESSION_STATUS_LOCKOUT : Fld := ⟨12, 8⟩
def SESSION_STATUS_OPEN : Fld := ⟨4, 0⟩
def SESSION_FWD_LEN_PORT : Fld := ⟨18, 16⟩
def SESSION_FWD_LEN_LEN : Fld := ⟨8, 0⟩
def SESSION_REPLY_CTRL_GO : Fld := ⟨31, 31⟩
def SESSION_REPLY_CTRL_LEN : Fld := ⟨8, 0⟩
def SESSION_FWD_DATA : Fld := ⟨31, 0⟩
def SESSION_REPLY_DATA : Fld := ⟨31, 0⟩
def ASSAY_CTRL_IRQ_MASK : Fld := ⟨2, 0⟩
def ASSAY_STATUS_WAITING : Fld := ⟨31, 31⟩
def ASSAY_STATUS_LANE1 : Fld := ⟨30, 24⟩
def ASSAY_STATUS_LANE0 : Fld := ⟨22, 16⟩
def ASSAY_STATUS_CFG_REJECT : Fld := ⟨2, 2⟩
def ASSAY_STATUS_FAIL : Fld := ⟨1, 1⟩
def ASSAY_STATUS_DONE : Fld := ⟨0, 0⟩
def ASSAY_REQ_REQ : Fld := ⟨31, 0⟩
def ASSAY_CANCEL_CANCEL : Fld := ⟨31, 0⟩
def ASSAY_RESULT_RUNS : Fld := ⟨31, 24⟩
def ASSAY_RESULT_FAILS : Fld := ⟨23, 16⟩
def ASSAY_RESULT_BOOT : Fld := ⟨2, 2⟩
def ASSAY_RESULT_LAST : Fld := ⟨1, 0⟩

end F

/-! ### The table -/

namespace RegTable

/-- CLK, RST, BOOT: R95. -/
def blk_CLKRSTBOOT : Block := ⟨0x80001000, 0x100, 31, .at 0x80001020 11, [
  -- CLK.STATUS
  ⟨0x80001000, [], 0x0, [⟨4, 4, .ro, 0, 1, none⟩,
    ⟨3, 3, .ro, 0, 1, none⟩,
    ⟨2, 2, .ro, 0, 1, none⟩,
    ⟨1, 1, .ro, 0, 1, none⟩,
    ⟨0, 0, .ro, 0, 1, none⟩]⟩,
  -- RST.CAUSE
  ⟨0x80001010, [], 0x1, [⟨6, 6, .w1c, 0, 1, none⟩,
    ⟨5, 5, .w1c, 0, 1, none⟩,
    ⟨4, 4, .w1c, 0, 1, none⟩,
    ⟨3, 3, .w1c, 0, 1, none⟩,
    ⟨2, 2, .w1c, 0, 1, none⟩,
    ⟨1, 1, .w1c, 0, 1, none⟩,
    ⟨0, 0, .w1c, 0, 1, none⟩]⟩,
  -- RST.CTRL
  ⟨0x80001014, [], 0x0, [⟨31, 16, .wo, 0, 0xFFFF, none⟩,
    ⟨0, 0, .wo, 0, 1, none⟩]⟩,
  -- RST.WDOG
  ⟨0x80001018, [], 0x0, [⟨31, 31, .w1s, 0, 1, none⟩,
    ⟨23, 0, .rw, 1, 0xFFFFFF, none⟩]⟩,
  -- RST.WDOG_KICK
  ⟨0x8000101C, [], 0x0, [⟨15, 0, .wo, 0, 0xFFFF, none⟩]⟩,
  -- BOOT.STATUS
  ⟨0x80001020, [], 0x0, [⟨31, 24, .ro, 0, 255, none⟩,
    ⟨23, 20, .ro, 0, 15, none⟩,
    ⟨19, 16, .ro, 0, 15, none⟩,
    ⟨15, 12, .ro, 0, 15, none⟩,
    ⟨11, 11, .w1c, 0, 1, none⟩,
    ⟨10, 10, .ro, 0, 1, none⟩,
    ⟨9, 9, .ro, 0, 1, none⟩,
    ⟨8, 8, .ro, 0, 1, none⟩,
    ⟨1, 1, .ro, 0, 1, none⟩,
    ⟨0, 0, .ro, 0, 1, none⟩]⟩,
  -- BOOT.CTRL
  ⟨0x80001024, [], 0x0, [⟨16, 16, .w1s, 0, 1, none⟩,
    ⟨15, 0, .w1s, 0, 0xFFFF, none⟩]⟩,
  -- BOOT.START_PC
  ⟨0x80001028, [], 0x0, [⟨31, 0, .rw, 0, 0xFFFFFFFF, none⟩]⟩]⟩

/-- PM, SUP: R58. -/
def blk_PMSUP : Block := ⟨0x80002000, 0x100, 31, .at 0x80002010 4, [
  -- PM.CTRL
  ⟨0x80002000, [], 0x0, [⟨24, 24, .rw, 0, 1, none⟩,
    ⟨17, 16, .rw, 0, 3, none⟩,
    ⟨15, 0, .rw, 0, 0xFFFF, none⟩]⟩,
  -- PM.STATUS
  ⟨0x80002004, [], 0x0, [⟨9, 8, .ro, 0, 3, none⟩,
    ⟨3, 2, .ro, 0, 3, none⟩,
    ⟨1, 0, .ro, 0, 3, none⟩]⟩,
  -- PM.LIMIT
  ⟨0x80002008, [], 0x258, [⟨11, 0, .rw, 0, 600, none⟩]⟩,
  -- PM.POWER
  ⟨0x8000200C, [], 0x0, [⟨23, 12, .ro, 0, 4095, none⟩,
    ⟨11, 0, .ro, 0, 4095, none⟩]⟩,
  -- SUP.STATUS
  ⟨0x80002010, [], 0x0, [⟨4, 4, .w1c, 0, 1, none⟩,
    ⟨3, 3, .ro, 0, 1, none⟩,
    ⟨2, 2, .ro, 0, 1, none⟩,
    ⟨1, 1, .w1c, 0, 1, none⟩,
    ⟨0, 0, .w1c, 0, 1, none⟩]⟩,
  -- SUP.VIN_WARN
  ⟨0x80002014, [], 0x64, [⟨9, 0, .rw, 86, 600, none⟩]⟩,
  -- SUP.TJ_WARN
  ⟨0x80002018, [], 0xA9, [⟨7, 0, .rw, 24, 189, none⟩]⟩,
  -- SUP.IO_FAULT
  ⟨0x8000201C, [], 0x0, [⟨31, 31, .w1c, 0, 1, none⟩,
    ⟨23, 16, .ro, 0, 255, none⟩,
    ⟨11, 0, .ro, 0, 4095, none⟩]⟩,
  -- PM.ALARM
  ⟨0x80002020, [], 0x0, [⟨31, 0, .rw, 0, 0xFFFFFFFF, none⟩]⟩]⟩

/-- IOMUX: R64. -/
def blk_IOMUX : Block := ⟨0x80003000, 0x400, 10, .at 0x80003204 0, [
  -- IOMUX.CFG_n
  ⟨0x80003000, [(0x4, 114)], 0x0, [⟨5, 5, .ro, 0, 1, none⟩,
    ⟨4, 4, .rw, 0, 1, none⟩,
    ⟨3, 3, .rw, 0, 1, none⟩,
    ⟨1, 0, .pt, 0, 2, none⟩]⟩,
  -- IOMUX.BANK_LEVEL
  ⟨0x80003200, [], 0x0, [⟨11, 0, .ro, 0, 4095, none⟩]⟩,
  -- IOMUX.STATUS
  ⟨0x80003204, [], 0x0, [⟨0, 0, .w1c, 0, 1, none⟩]⟩]⟩

/-- PAT: R114. -/
def blk_PAT : Block := ⟨0x80004000, 0x100, 31, .none, [
  -- PAT.STATUS
  ⟨0x80004000, [], 0x0, [⟨31, 16, .ro, 0, 0xFFFF, none⟩,
    ⟨15, 0, .ro, 0, 0xFFFF, none⟩]⟩,
  -- PAT.LEVEL
  ⟨0x80004004, [], 0x0, [⟨31, 31, .ro, 0, 1, none⟩,
    ⟨10, 0, .ro, 0, 2047, none⟩]⟩,
  -- PAT.REJECT_A
  ⟨0x80004008, [], 0x0, [⟨31, 24, .ro, 0, 255, none⟩,
    ⟨23, 23, .ro, 0, 1, none⟩,
    ⟨22, 0, .ro, 0, 0x7FFFFF, none⟩]⟩,
  -- PAT.REJECT_B
  ⟨0x8000400C, [], 0x0, [⟨31, 24, .ro, 0, 255, none⟩,
    ⟨23, 23, .ro, 0, 1, none⟩,
    ⟨22, 0, .ro, 0, 0x7FFFFF, none⟩]⟩,
  -- PAT.LENGTH
  ⟨0x80004010, [], 0x0, [⟨31, 0, .ro, 0, 0xFFFFFFFF, none⟩]⟩,
  -- PAT.CRC
  ⟨0x80004014, [], 0x0, [⟨31, 0, .ro, 0, 0xFFFFFFFF, none⟩]⟩,
  -- PAT.BUILD_LO
  ⟨0x80004018, [], 0x0, [⟨31, 0, .ro, 0, 0xFFFFFFFF, none⟩]⟩,
  -- PAT.BUILD_HI
  ⟨0x8000401C, [], 0x0, [⟨31, 0, .ro, 0, 0xFFFFFFFF, none⟩]⟩]⟩

/-- MD_nn: R143. -/
def blk_MD : Block := ⟨0x80010000, 0x600, 0, .inst 0x80010004 0x10 2, [
  -- MD_nn.CTRL
  ⟨0x80010000, [(0x10, 96)], 0x0, [⟨4, 4, .rw, 0, 1, none⟩,
    ⟨1, 1, .rw, 0, 1, none⟩,
    ⟨0, 0, .rw, 0, 1, none⟩]⟩,
  -- MD_nn.STATUS
  ⟨0x80010004, [(0x10, 96)], 0x0, [⟨2, 2, .w1c, 0, 1, none⟩,
    ⟨1, 1, .w1c, 0, 1, none⟩,
    ⟨0, 0, .ro, 0, 1, none⟩]⟩]⟩

/-- XB_nn: R143. -/
def blk_XB : Block := ⟨0x80011000, 0x400, 0, .inst 0x80011004 0x10 4, [
  -- XB_nn.CTRL
  ⟨0x80011000, [(0x10, 64)], 0x140000, [⟨31, 24, .rw, 0, 255, none⟩,
    ⟨22, 16, .rw, 16, 80, none⟩,
    ⟨5, 5, .rw, 0, 1, none⟩,
    ⟨4, 4, .rw, 0, 1, none⟩,
    ⟨1, 1, .pt, 0, 1, none⟩,
    ⟨0, 0, .rw, 0, 1, none⟩]⟩,
  -- XB_nn.STATUS
  ⟨0x80011004, [(0x10, 64)], 0x0, [⟨4, 4, .w1c, 0, 1, none⟩,
    ⟨3, 3, .w1c, 0, 1, none⟩,
    ⟨2, 2, .w1c, 0, 1, none⟩,
    ⟨1, 1, .w1c, 0, 1, none⟩,
    ⟨0, 0, .ro, 0, 1, none⟩]⟩,
  -- XB_nn.VIOL_COUNT
  ⟨0x80011008, [(0x10, 64)], 0x0, [⟨31, 0, .w1c, 0, 0xFFFFFFFF, none⟩]⟩]⟩

/-- CONV: R143. -/
def blk_CONV : Block := ⟨0x80012000, 0x80, 0, .none, [
  -- CONV.FIR_COEF_k
  ⟨0x80012000, [(0x4, 32)], 0x0, [⟨19, 0, .ro, 0, 0xFFFFF, none⟩]⟩]⟩

/-- DEC_n: R143. -/
def blk_DEC : Block := ⟨0x80020000, 0x5000, 0, .inst 0x80020008 0x80 5, [
  -- DEC_n.CFG
  ⟨0x80020000, [(0x80, 160)], 0x9100, [⟨25, 16, .rw, 0, 1023, none⟩,
    ⟨15, 12, .rw, 0, 9, none⟩,
    ⟨10, 8, .rw, 0, 4, none⟩,
    ⟨7, 0, .pt, 0, 159, none⟩]⟩,
  -- DEC_n.CTRL
  ⟨0x80020004, [(0x80, 160)], 0x0, [⟨4, 4, .rw, 0, 1, none⟩,
    ⟨2, 2, .wo, 0, 1, none⟩,
    ⟨1, 1, .rw, 0, 1, none⟩,
    ⟨0, 0, .rw, 0, 1, none⟩]⟩,
  -- DEC_n.STATUS
  ⟨0x80020008, [(0x80, 160)], 0x3, [⟨14, 12, .ro, 0, 7, none⟩,
    ⟨11, 11, .w1c, 0, 1, none⟩,
    ⟨10, 8, .ro, 0, 7, none⟩,
    ⟨7, 7, .ro, 0, 1, none⟩,
    ⟨6, 6, .w1c, 0, 1, none⟩,
    ⟨5, 5, .w1c, 0, 1, none⟩,
    ⟨4, 4, .w1c, 0, 1, none⟩,
    ⟨3, 3, .w1c, 0, 1, none⟩,
    ⟨2, 2, .w1c, 0, 1, none⟩,
    ⟨1, 1, .ro, 0, 1, none⟩,
    ⟨0, 0, .ro, 0, 1, none⟩]⟩,
  -- DEC_n.FINE_OFFSET
  ⟨0x8002000C, [(0x80, 160)], 0x0, [⟨23, 0, .rw, 0, 0xFFFFFF, none⟩]⟩,
  -- DEC_n.FINE_GAIN
  ⟨0x80020010, [(0x80, 160)], 0x10000, [⟨17, 0, .rw, 0, 0x3FFFF, none⟩]⟩,
  -- DEC_n.SWIFT_LAST
  ⟨0x80020014, [(0x80, 160)], 0x0, [⟨31, 0, .ro, 0, 0xFFFFFFFF, none⟩]⟩,
  -- DEC_n.FINE_LAST
  ⟨0x80020018, [(0x80, 160)], 0x0, [⟨31, 8, .ro, 0, 0xFFFFFF, none⟩]⟩,
  -- DEC_n.SWIFT_WITHHELD
  ⟨0x8002001C, [(0x80, 160)], 0x0, [⟨31, 0, .w1c, 0, 0xFFFFFFFF, none⟩]⟩,
  -- DEC_n.FINE_WITHHELD
  ⟨0x80020020, [(0x80, 160)], 0x0, [⟨31, 0, .w1c, 0, 0xFFFFFFFF, none⟩]⟩,
  -- DEC_n.SNAP_SP_LO
  ⟨0x80020024, [(0x80, 160)], 0x0, [⟨31, 0, .ro, 0, 0xFFFFFFFF, none⟩]⟩,
  -- DEC_n.SNAP_SD_LO
  ⟨0x80020028, [(0x80, 160)], 0x0, [⟨31, 0, .ro, 0, 0xFFFFFFFF, none⟩]⟩,
  -- DEC_n.SNAP_FP_LO
  ⟨0x80020030, [(0x80, 160)], 0x0, [⟨31, 0, .ro, 0, 0xFFFFFFFF, none⟩]⟩,
  -- DEC_n.SNAP_FD_LO
  ⟨0x80020034, [(0x80, 160)], 0x0, [⟨31, 0, .ro, 0, 0xFFFFFFFF, none⟩]⟩,
  -- DEC_n.SNAP_S_HI
  ⟨0x8002002C, [(0x80, 160)], 0x0, [⟨31, 16, .ro, 0, 0xFFFF, none⟩,
    ⟨15, 0, .ro, 0, 0xFFFF, none⟩]⟩,
  -- DEC_n.SNAP_F_HI
  ⟨0x80020038, [(0x80, 160)], 0x0, [⟨31, 16, .ro, 0, 0xFFFF, none⟩,
    ⟨15, 0, .ro, 0, 0xFFFF, none⟩]⟩,
  -- DEC_n.SNAP_LEVEL
  ⟨0x8002003C, [(0x80, 160)], 0x0, [⟨8, 8, .ro, 0, 1, none⟩,
    ⟨6, 4, .ro, 0, 7, none⟩,
    ⟨2, 0, .ro, 0, 7, none⟩]⟩]⟩

/-- WC_nn: R166. -/
def blk_WC : Block := ⟨0x80030000, 0x800, 1, .inst 0x80030008 0x10 5, [
  -- WC_nn.CTRL
  ⟨0x80030000, [(0x10, 96)], 0x3F00, [⟨13, 8, .pt, 0, 47, some 63⟩,
    ⟨7, 4, .pt, 0, 15, none⟩,
    ⟨3, 3, .rw, 0, 1, none⟩,
    ⟨2, 1, .pt, 0, 2, none⟩,
    ⟨0, 0, .pt, 0, 1, none⟩]⟩,
  -- WC_nn.THR
  ⟨0x80030004, [(0x10, 96)], 0x7FF0800, [⟨27, 16, .rw, 0, 4095, none⟩,
    ⟨11, 0, .rw, 0, 4095, none⟩]⟩,
  -- WC_nn.STATUS
  ⟨0x80030008, [(0x10, 96)], 0x0, [⟨6, 6, .w1c, 0, 1, none⟩,
    ⟨5, 5, .w1c, 0, 1, none⟩,
    ⟨4, 4, .w1c, 0, 1, none⟩,
    ⟨3, 3, .ro, 0, 1, none⟩,
    ⟨1, 1, .ro, 0, 1, none⟩,
    ⟨0, 0, .ro, 0, 1, none⟩]⟩,
  -- WC_nn.TRIP_COUNT
  ⟨0x8003000C, [(0x10, 96)], 0x0, [⟨31, 0, .w1c, 0, 0xFFFFFFFF, none⟩]⟩]⟩

/-- WC.RB_SEL: R166. -/
def blk_WCRBSEL : Block := ⟨0x80030800, 0x800, 1, .at 0x80030800 9, [
  -- WC.RB_SEL
  ⟨0x80030800, [], 0x0, [⟨9, 9, .w1c, 0, 1, none⟩,
    ⟨8, 8, .ro, 0, 1, none⟩,
    ⟨7, 7, .rw, 0, 1, none⟩,
    ⟨6, 0, .rw, 0, 95, none⟩]⟩]⟩

/-- QUENCH: R166. -/
def blk_QUENCH : Block := ⟨0x80031000, 0x1000, 2, .at 0x80031008 1, [
  -- QUENCH.CTRL
  ⟨0x80031000, [], 0x0, [⟨0, 0, .rw, 0, 1, none⟩]⟩,
  -- QUENCH.RELEASE
  ⟨0x80031004, [], 0x0, [⟨15, 0, .wo, 0, 0xFFFF, none⟩]⟩,
  -- QUENCH.STATUS
  ⟨0x80031008, [], 0x0, [⟨31, 16, .ro, 0, 0xFFFF, none⟩,
    ⟨4, 4, .ro, 0, 1, none⟩,
    ⟨3, 3, .w1c, 0, 1, none⟩,
    ⟨2, 2, .w1c, 0, 1, none⟩,
    ⟨1, 1, .w1c, 0, 1, none⟩]⟩,
  -- QUENCH.REQ_k
  ⟨0x80031010, [(0x4, 5)], 0x0, [⟨31, 0, .ro, 0, 0xFFFFFFFF, none⟩]⟩,
  -- QUENCH.GCFG_g
  ⟨0x80031040, [(0x4, 16)], 0x0, [⟨21, 16, .pt, 0, 47, none⟩,
    ⟨8, 8, .pt, 0, 1, none⟩,
    ⟨0, 0, .pt, 0, 1, none⟩]⟩,
  -- QUENCH.IN_g_0
  ⟨0x80031100, [(0x20, 16)], 0x0, [⟨31, 0, .pt, 0, 0xFFFFFFFF, none⟩]⟩,
  -- QUENCH.IN_g_1, whose bits [30:14] are reserved
  ⟨0x80031104, [(0x20, 16)], 0x0, [⟨31, 31, .pt, 0, 1, none⟩,
    ⟨13, 0, .pt, 0, 0x3FFF, none⟩]⟩,
  -- QUENCH.IN_g_2 to QUENCH.IN_g_4
  ⟨0x80031108, [(0x20, 16), (0x4, 3)], 0x0, [⟨31, 0, .pt, 0, 0xFFFFFFFF, none⟩]⟩,
  -- QUENCH.OUT_p
  ⟨0x80031300, [(0x4, 48)], 0x1F1F1F1F, [⟨31, 30, .pt, 0, 2, none⟩,
    ⟨28, 24, .pt, 0, 15, some 31⟩,
    ⟨23, 22, .pt, 0, 2, none⟩,
    ⟨20, 16, .pt, 0, 15, some 31⟩,
    ⟨15, 14, .pt, 0, 2, none⟩,
    ⟨12, 8, .pt, 0, 15, some 31⟩,
    ⟨7, 6, .pt, 0, 2, none⟩,
    ⟨4, 0, .pt, 0, 15, some 31⟩]⟩,
  -- QUENCH.CAUSE_g
  ⟨0x80031400, [(0x8, 16)], 0x0, [⟨31, 31, .ro, 0, 1, none⟩,
    ⟨30, 30, .ro, 0, 1, none⟩,
    ⟨7, 0, .ro, 0, 255, none⟩]⟩,
  -- QUENCH.TIME_g
  ⟨0x80031404, [(0x8, 16)], 0x0, [⟨31, 0, .ro, 0, 0xFFFFFFFF, none⟩]⟩,
  -- QUENCH.FORCED_k
  ⟨0x80031480, [(0x4, 6)], 0x0, [⟨31, 0, .ro, 0, 0xFFFFFFFF, none⟩]⟩]⟩

/-- SV_n: R180. -/
def blk_SV : Block := ⟨0x80038000, 0x2000, 3, .inst 0x8003800C 0x400 4, [
  -- SV_n.CTRL
  ⟨0x80038000, [(0x400, 8)], 0x0, [⟨12, 8, .rw, 0, 31, none⟩,
    ⟨3, 3, .wo, 0, 1, none⟩,
    ⟨2, 1, .rw, 0, 3, none⟩,
    ⟨0, 0, .rw, 0, 1, none⟩]⟩,
  -- SV_n.SEQ
  ⟨0x80038004, [(0x400, 8)], 0x0, [⟨31, 16, .rw, 1, 0xFFFF, none⟩,
    ⟨4, 0, .rw, 0, 31, none⟩]⟩,
  -- SV_n.URGENT
  ⟨0x80038008, [(0x400, 8)], 0x0, [⟨31, 31, .wo, 0, 1, none⟩,
    ⟨12, 12, .rw, 0, 1, none⟩,
    ⟨10, 8, .rw, 0, 7, none⟩,
    ⟨6, 0, .rw, 0, 96, none⟩]⟩,
  -- SV_n.STATUS
  ⟨0x8003800C, [(0x400, 8)], 0x100, [⟨31, 24, .ro, 0, 255, none⟩,
    ⟨20, 16, .ro, 0, 31, none⟩,
    ⟨9, 9, .ro, 0, 1, none⟩,
    ⟨8, 8, .ro, 0, 1, none⟩,
    ⟨7, 7, .ro, 0, 1, none⟩,
    ⟨6, 6, .ro, 0, 1, none⟩,
    ⟨4, 4, .w1c, 0, 1, none⟩,
    ⟨3, 3, .ro, 0, 1, none⟩,
    ⟨2, 2, .w1c, 0, 1, none⟩,
    ⟨1, 1, .w1c, 0, 1, none⟩,
    ⟨0, 0, .w1c, 0, 1, none⟩]⟩,
  -- SV_n.OFFSET
  ⟨0x80038010, [(0x400, 8)], 0x0, [⟨23, 0, .rw, 0, 0xFFFFFF, none⟩]⟩,
  -- SV_n.GAIN
  ⟨0x80038014, [(0x400, 8)], 0x10000, [⟨17, 0, .rw, 0, 0x3FFFF, none⟩]⟩,
  -- SV_n.URGENT_RESULT
  ⟨0x80038018, [(0x400, 8)], 0x0, [⟨31, 8, .ro, 0, 0xFFFFFF, none⟩,
    ⟨6, 0, .ro, 0, 127, none⟩]⟩,
  -- SV_n.NEW
  ⟨0x8003801C, [(0x400, 8)], 0x0, [⟨31, 0, .w1c, 0, 0xFFFFFFFF, none⟩]⟩,
  -- SV_n.OVERRUN
  ⟨0x80038020, [(0x400, 8)], 0x0, [⟨31, 0, .w1c, 0, 0xFFFFFFFF, none⟩]⟩,
  -- SV_n.ENTRY_e
  ⟨0x80038100, [(0x400, 8), (0x4, 32)], 0x0, [⟨12, 12, .rw, 0, 1, none⟩,
    ⟨10, 8, .rw, 0, 7, none⟩,
    ⟨6, 0, .rw, 0, 96, none⟩]⟩,
  -- SV_n.RESULT_e
  ⟨0x80038200, [(0x400, 8), (0x4, 32)], 0x0, [⟨31, 8, .ro, 0, 0xFFFFFF, none⟩,
    ⟨7, 0, .ro, 0, 255, none⟩]⟩]⟩

/-- SV.TEMP_k: R180. -/
def blk_SVTEMP : Block := ⟨0x8003A000, 0x20, 3, .none, [
  -- SV.TEMP_k
  ⟨0x8003A000, [(0x4, 8)], 0x0, [⟨31, 8, .ro, 0, 0xFFFFFF, none⟩]⟩]⟩

/-- TC_nnn: R203. -/
def blk_TCn : Block := ⟨0x80040000, 0x2000, 4, .inst 0x80040014 0x20 27, [
  -- TC_nnn.CTRL
  ⟨0x80040000, [(0x20, 256)], 0x0, [⟨5, 4, .pt, 0, 3, none⟩,
    ⟨3, 3, .rw, 0, 1, none⟩,
    ⟨0, 0, .rw, 0, 1, none⟩]⟩,
  -- TC_nnn.ROUTE_P
  ⟨0x80040004, [(0x20, 256)], 0x3FF, [⟨9, 0, .pt, 0, 911, some 1023⟩]⟩,
  -- TC_nnn.ROUTE_C
  ⟨0x80040008, [(0x20, 256)], 0x3FF03FF, [⟨25, 16, .pt, 0, 911, some 1023⟩,
    ⟨9, 0, .pt, 0, 911, some 1023⟩]⟩,
  -- TC_nnn.ROUTE_D
  ⟨0x8004000C, [(0x20, 256)], 0x3FF03FF, [⟨25, 16, .pt, 0, 911, some 1023⟩,
    ⟨9, 0, .pt, 0, 911, some 1023⟩]⟩,
  -- TC_nnn.CREDIT
  ⟨0x80040010, [(0x20, 256)], 0x0, [⟨11, 0, .pt, 0, 4032, none⟩]⟩,
  -- TC_nnn.STATUS
  ⟨0x80040014, [(0x20, 256)], 0x2000000, [⟨30, 30, .ro, 0, 1, none⟩,
    ⟨29, 29, .w1c, 0, 1, none⟩,
    ⟨28, 28, .w1c, 0, 1, none⟩,
    ⟨27, 27, .w1c, 0, 1, none⟩,
    ⟨26, 26, .ro, 0, 1, none⟩,
    ⟨25, 25, .ro, 0, 1, none⟩,
    ⟨24, 12, .ro, 0, 8191, none⟩,
    ⟨11, 0, .ro, 0, 4095, none⟩]⟩,
  -- TC_nnn.STALL
  ⟨0x80040018, [(0x20, 256)], 0x0, [⟨31, 0, .w1c, 0, 0xFFFFFFFF, none⟩]⟩,
  -- TC_nnn.HWM
  ⟨0x8004001C, [(0x20, 256)], 0x0, [⟨12, 0, .ro, 0, 8191, none⟩]⟩]⟩

/-- RUN: R203. -/
def blk_RUN : Block := ⟨0x80044000, 0x100, 4, .at 0x80044000 3, [
  -- RUN.STATUS
  ⟨0x80044000, [], 0x400000, [⟨22, 16, .ro, 0, 127, none⟩,
    ⟨5, 5, .w1c, 0, 1, none⟩,
    ⟨4, 4, .w1c, 0, 1, none⟩,
    ⟨3, 3, .w1c, 0, 1, none⟩,
    ⟨2, 2, .ro, 0, 1, none⟩,
    ⟨0, 0, .ro, 0, 1, none⟩]⟩,
  -- RUN.CTRL
  ⟨0x80044004, [], 0x0, [⟨5, 5, .rw, 0, 1, none⟩,
    ⟨4, 4, .rw, 0, 1, none⟩,
    ⟨3, 3, .rw, 0, 1, none⟩]⟩,
  -- RUN.HEAT_CFG
  ⟨0x80044008, [], 0x3E8, [⟨31, 30, .pt, 0, 3, none⟩,
    ⟨29, 24, .pt, 0, 47, none⟩,
    ⟨23, 0, .rw, 16, 0xFFFFFF, none⟩]⟩,
  -- RUN.HEAT_NUM
  ⟨0x8004400C, [], 0x0, [⟨31, 0, .ro, 0, 0xFFFFFFFF, none⟩]⟩,
  -- RUN.TIME_LO
  ⟨0x80044010, [], 0x0, [⟨31, 0, .ro, 0, 0xFFFFFFFF, none⟩]⟩,
  -- RUN.TIME_HI
  ⟨0x80044014, [], 0x0, [⟨31, 0, .ro, 0, 0xFFFFFFFF, none⟩]⟩,
  -- RUN.AUDIT_CTRL
  ⟨0x80044018, [], 0x0, [⟨23, 16, .rw, 0, 255, none⟩,
    ⟨8, 8, .ro, 0, 1, none⟩,
    ⟨1, 1, .wo, 0, 1, none⟩,
    ⟨0, 0, .wo, 0, 1, none⟩]⟩,
  -- RUN.AUDIT_ISSUED_LO
  ⟨0x8004401C, [], 0x0, [⟨31, 0, .ro, 0, 0xFFFFFFFF, none⟩]⟩,
  -- RUN.AUDIT_RETIRED_LO
  ⟨0x80044020, [], 0x0, [⟨31, 0, .ro, 0, 0xFFFFFFFF, none⟩]⟩,
  -- RUN.AUDIT_RETURNED_LO
  ⟨0x80044024, [], 0x0, [⟨31, 0, .ro, 0, 0xFFFFFFFF, none⟩]⟩,
  -- RUN.AUDIT_HI_A
  ⟨0x80044028, [], 0x0, [⟨31, 16, .ro, 0, 0xFFFF, none⟩,
    ⟨15, 0, .ro, 0, 0xFFFF, none⟩]⟩,
  -- RUN.AUDIT_HI_B
  ⟨0x8004402C, [], 0x0, [⟨22, 16, .ro, 0, 127, none⟩,
    ⟨15, 0, .ro, 0, 0xFFFF, none⟩]⟩,
  -- RUN.AUDIT_LEVEL
  ⟨0x80044030, [], 0x0, [⟨28, 16, .ro, 0, 8191, none⟩,
    ⟨11, 0, .ro, 0, 4095, none⟩]⟩]⟩

/-- RUN.SNAP_k: R203. -/
def blk_RUNSNAP : Block := ⟨0x80048000, 0x800, 4, .none, [
  -- RUN.SNAP_k_LO
  ⟨0x80048000, [(0x10, 128)], 0x0, [⟨31, 0, .ro, 0, 0xFFFFFFFF, none⟩]⟩,
  -- RUN.SNAP_k_HI
  ⟨0x80048004, [(0x10, 128)], 0x0, [⟨31, 0, .ro, 0, 0xFFFFFFFF, none⟩]⟩,
  -- RUN.SNAP_k_TAG
  ⟨0x80048008, [(0x10, 128)], 0x0, [⟨31, 16, .ro, 0, 0xFFFF, none⟩,
    ⟨15, 0, .ro, 0, 0xFFFF, none⟩]⟩]⟩

/-- RUN.PUSH: R203. -/
def blk_RUNPUSH : Block := ⟨0x80049000, 0x20, 4, .none, [
  -- RUN.PUSH_LO
  ⟨0x80049000, [], 0x0, [⟨31, 0, .wo, 0, 0xFFFFFFFF, none⟩]⟩,
  -- RUN.PUSH_HI_q
  ⟨0x80049004, [(0x4, 4)], 0x0, [⟨31, 0, .wo, 0, 0xFFFFFFFF, none⟩]⟩,
  -- RUN.PUSH_STATUS
  ⟨0x80049014, [], 0x8, [⟨8, 8, .w1c, 0, 1, none⟩,
    ⟨3, 0, .ro, 0, 15, none⟩]⟩]⟩

/-- LE_nn: R229. -/
def blk_LE : Block := ⟨0x80050000, 0x80000, 5, .inst 0x8005000C 0x4000 7, [
  -- LE_nn.CTRL
  ⟨0x80050000, [(0x4000, 32)], 0x0, [⟨4, 4, .rw, 0, 1, none⟩,
    ⟨0, 0, .rw, 0, 1, none⟩]⟩,
  -- LE_nn.CFG
  ⟨0x80050004, [(0x4000, 32)], 0x0, [⟨21, 21, .pt, 0, 1, none⟩,
    ⟨20, 16, .pt, 0, 31, none⟩,
    ⟨13, 13, .pt, 0, 1, none⟩,
    ⟨12, 8, .pt, 0, 31, none⟩,
    ⟨1, 0, .pt, 0, 3, none⟩]⟩,
  -- LE_nn.RUNCFG
  ⟨0x80050008, [(0x4000, 32)], 0xFFF, [⟨31, 31, .pt, 0, 1, none⟩,
    ⟨25, 16, .pt, 0, 1023, none⟩,
    ⟨11, 0, .pt, 1, 4095, none⟩]⟩,
  -- LE_nn.STATUS
  ⟨0x8005000C, [(0x4000, 32)], 0x1, [⟨25, 16, .ro, 0, 1023, none⟩,
    ⟨9, 9, .ro, 0, 1, none⟩,
    ⟨8, 8, .w1c, 0, 1, none⟩,
    ⟨7, 7, .w1c, 0, 1, none⟩,
    ⟨6, 6, .w1c, 0, 1, none⟩,
    ⟨5, 5, .w1c, 0, 1, none⟩,
    ⟨4, 4, .w1c, 0, 1, none⟩,
    ⟨3, 3, .w1c, 0, 1, none⟩,
    ⟨2, 2, .ro, 0, 1, none⟩,
    ⟨1, 1, .ro, 0, 1, none⟩,
    ⟨0, 0, .ro, 0, 1, none⟩]⟩,
  -- LE_nn.PORT_q
  ⟨0x80050010, [(0x4000, 32), (0x4, 4)], 0x0, [⟨31, 22, .pt, 0, 1023, none⟩,
    ⟨20, 12, .pt, 0, 511, none⟩,
    ⟨11, 4, .pt, 0, 255, none⟩,
    ⟨1, 0, .pt, 0, 3, none⟩]⟩,
  -- LE_nn.TGT_t
  ⟨0x80050020, [(0x4000, 32), (0x4, 16)], 0x0, [⟨15, 15, .pt, 0, 1, none⟩,
    ⟨13, 8, .pt, 0, 47, none⟩,
    ⟨3, 0, .pt, 0, 5, none⟩]⟩,
  -- LE_nn.RUNS
  ⟨0x80050060, [(0x4000, 32)], 0x0, [⟨31, 0, .w1c, 0, 0xFFFFFFFF, none⟩]⟩,
  -- LE_nn.LATE
  ⟨0x80050064, [(0x4000, 32)], 0x0, [⟨31, 0, .w1c, 0, 0xFFFFFFFF, none⟩]⟩,
  -- LE_nn.STALL
  ⟨0x80050068, [(0x4000, 32)], 0x0, [⟨31, 0, .w1c, 0, 0xFFFFFFFF, none⟩]⟩,
  -- LE_nn.DISCARDED
  ⟨0x8005006C, [(0x4000, 32)], 0x0, [⟨31, 0, .w1c, 0, 0xFFFFFFFF, none⟩]⟩,
  -- LE_nn.RUNLEN
  ⟨0x80050070, [(0x4000, 32)], 0x0, [⟨31, 16, .w1c, 0, 0xFFFF, none⟩,
    ⟨15, 0, .ro, 0, 0xFFFF, none⟩]⟩,
  -- LE_nn.LIMIT_INFO
  ⟨0x80050074, [(0x4000, 32)], 0x0, [⟨25, 16, .ro, 0, 1023, none⟩,
    ⟨15, 8, .ro, 0, 255, none⟩,
    ⟨3, 0, .ro, 0, 15, none⟩]⟩,
  -- LE_nn.STATE_w_LO
  ⟨0x80050800, [(0x4000, 32), (0x8, 256)], 0x0, [⟨31, 0, .rw, 0, 0xFFFFFFFF, none⟩]⟩,
  -- LE_nn.STATE_w_HI
  ⟨0x80050804, [(0x4000, 32), (0x8, 256)], 0x0, [⟨7, 0, .rw, 0, 255, none⟩]⟩,
  -- LE_nn.PROG_i_LO
  ⟨0x80052000, [(0x4000, 32), (0x8, 1024)], 0x0, [⟨31, 0, .ro, 0, 0xFFFFFFFF, none⟩]⟩,
  -- LE_nn.PROG_i_HI
  ⟨0x80052004, [(0x4000, 32), (0x8, 1024)], 0x0, [⟨8, 0, .ro, 0, 511, none⟩]⟩]⟩

/-- LT: R229. -/
def blk_LT : Block := ⟨0x800D0000, 0x1000, 5, .at 0x800D0404 2, [
  -- LT.PART_k_BASE
  ⟨0x800D0000, [(0x10, 32)], 0x0, [⟨31, 31, .pt, 0, 1, none⟩,
    ⟨18, 0, .pt, 0, 0x7FFFF, none⟩]⟩,
  -- LT.PART_k_SIZE
  ⟨0x800D0004, [(0x10, 32)], 0x7000000, [⟨26, 24, .pt, 0, 3, some 7⟩,
    ⟨18, 0, .pt, 0, 0x7FFFF, none⟩]⟩,
  -- LT.PART_k_ORIGIN
  ⟨0x800D0008, [(0x10, 32)], 0x0, [⟨31, 0, .pt, 0, 0xFFFFFFFF, none⟩]⟩,
  -- LT.PART_k_SCALE
  ⟨0x800D000C, [(0x10, 32)], 0x0, [⟨12, 8, .pt, 0, 31, none⟩,
    ⟨3, 0, .pt, 0, 15, none⟩]⟩,
  -- LT.CTRL
  ⟨0x800D0400, [], 0x0, [⟨0, 0, .rw, 0, 1, none⟩]⟩,
  -- LT.STATUS
  ⟨0x800D0404, [], 0x0, [⟨2, 2, .w1c, 0, 1, none⟩,
    ⟨1, 1, .ro, 0, 1, none⟩,
    ⟨0, 0, .w1c, 0, 1, none⟩]⟩,
  -- LT.ECC_COUNT
  ⟨0x800D0408, [], 0x0, [⟨31, 0, .w1c, 0, 0xFFFFFFFF, none⟩]⟩,
  -- LT.ECC_ADDR
  ⟨0x800D040C, [], 0x0, [⟨31, 31, .ro, 0, 1, none⟩,
    ⟨18, 0, .ro, 0, 0x7FFFF, none⟩]⟩]⟩

/-- PG_nn: R255. -/
def blk_PG : Block := ⟨0x800E0000, 0x1800, 6, .inst 0x800E0028 0x80 3, [
  -- PG_nn.CTRL
  ⟨0x800E0000, [(0x80, 48)], 0x0, [⟨2, 2, .rw, 0, 1, none⟩,
    ⟨1, 1, .rw, 0, 1, none⟩,
    ⟨0, 0, .rw, 0, 1, none⟩]⟩,
  -- PG_nn.CFG
  ⟨0x800E0004, [(0x80, 48)], 0x0, [⟨29, 24, .pt, 0, 63, none⟩,
    ⟨23, 22, .pt, 0, 2, none⟩,
    ⟨21, 20, .pt, 0, 3, none⟩,
    ⟨19, 18, .pt, 0, 2, none⟩,
    ⟨17, 17, .pt, 0, 1, none⟩,
    ⟨16, 16, .pt, 0, 1, none⟩,
    ⟨15, 12, .pt, 0, 15, none⟩,
    ⟨11, 11, .pt, 0, 1, none⟩,
    ⟨10, 10, .pt, 0, 1, none⟩,
    ⟨7, 0, .pt, 0, 255, none⟩]⟩,
  -- PG_nn.PERIOD
  ⟨0x800E0008, [(0x80, 48)], 0xFA00, [⟨31, 0, .rw, 128, 0x3FFFC0, none⟩]⟩,
  -- PG_nn.PHASE
  ⟨0x800E000C, [(0x80, 48)], 0x0, [⟨31, 0, .rw, 0, 0x3FFFBF, none⟩]⟩,
  -- PG_nn.DUTY
  ⟨0x800E0010, [(0x80, 48), (0x4, 4)], 0x0, [⟨31, 0, .rw, 0, 0xFFFFFFFF, none⟩]⟩,
  -- PG_nn.DEAD
  ⟨0x800E0020, [(0x80, 48)], 0x0, [⟨31, 16, .rw, 0, 0xFFFF, none⟩,
    ⟨15, 0, .rw, 0, 0xFFFF, none⟩]⟩,
  -- PG_nn.BLANK
  ⟨0x800E0024, [(0x80, 48)], 0x0, [⟨31, 24, .rw, 0, 255, none⟩,
    ⟨23, 16, .rw, 0, 255, none⟩,
    ⟨15, 8, .rw, 0, 255, none⟩,
    ⟨7, 0, .rw, 0, 255, none⟩]⟩,
  -- PG_nn.STATUS
  ⟨0x800E0028, [(0x80, 48)], 0x1, [⟨11, 11, .ro, 0, 1, none⟩,
    ⟨10, 10, .w1c, 0, 1, none⟩,
    ⟨9, 9, .w1c, 0, 1, none⟩,
    ⟨8, 8, .w1c, 0, 1, none⟩,
    ⟨7, 7, .w1c, 0, 1, none⟩,
    ⟨6, 6, .w1c, 0, 1, none⟩,
    ⟨5, 5, .w1c, 0, 1, none⟩,
    ⟨4, 4, .w1c, 0, 1, none⟩,
    ⟨3, 3, .w1c, 0, 1, none⟩,
    ⟨2, 2, .ro, 0, 1, none⟩,
    ⟨1, 1, .ro, 0, 1, none⟩,
    ⟨0, 0, .ro, 0, 1, none⟩]⟩,
  -- PG_nn.EVT_WITHHELD
  ⟨0x800E002C, [(0x80, 48)], 0x0, [⟨31, 0, .w1c, 0, 0xFFFFFFFF, none⟩]⟩,
  -- PG_nn.LATE_EDGES
  ⟨0x800E0030, [(0x80, 48)], 0x0, [⟨31, 0, .w1c, 0, 0xFFFFFFFF, none⟩]⟩,
  -- PG_nn.PERIODS
  ⟨0x800E0034, [(0x80, 48)], 0x0, [⟨31, 0, .ro, 0, 0xFFFFFFFF, none⟩]⟩,
  -- PG_nn.ACTIVE_r
  ⟨0x800E0040, [(0x80, 48), (0x4, 6)], 0x0, [⟨31, 0, .ro, 0, 0xFFFFFFFF, none⟩]⟩,
  -- PG_nn.ACC_CTRL
  ⟨0x800E0060, [(0x80, 48)], 0x0, [⟨8, 8, .ro, 0, 1, none⟩,
    ⟨5, 4, .rw, 0, 3, none⟩,
    ⟨0, 0, .wo, 0, 1, none⟩]⟩,
  -- PG_nn.ACC_COMMANDED_LO
  ⟨0x800E0064, [(0x80, 48)], 0x0, [⟨31, 0, .ro, 0, 0xFFFFFFFF, none⟩]⟩,
  -- PG_nn.ACC_EMITTED_LO
  ⟨0x800E0068, [(0x80, 48)], 0x0, [⟨31, 0, .ro, 0, 0xFFFFFFFF, none⟩]⟩,
  -- PG_nn.ACC_SUPPRESSED_LO
  ⟨0x800E006C, [(0x80, 48)], 0x0, [⟨31, 0, .ro, 0, 0xFFFFFFFF, none⟩]⟩,
  -- PG_nn.ACC_HI_A
  ⟨0x800E0070, [(0x80, 48)], 0x0, [⟨31, 16, .ro, 0, 0xFFFF, none⟩,
    ⟨15, 0, .ro, 0, 0xFFFF, none⟩]⟩,
  -- PG_nn.ACC_HI_B
  ⟨0x800E0074, [(0x80, 48)], 0x0, [⟨16, 16, .ro, 0, 1, none⟩,
    ⟨15, 0, .ro, 0, 0xFFFF, none⟩]⟩]⟩

/-- PG.CAL: R255. -/
def blk_PGCAL : Block := ⟨0x800E2000, 0x4, 6, .none, [
  -- PG.CAL
  ⟨0x800E2000, [], 0x0, [⟨8, 8, .rw, 0, 1, none⟩,
    ⟨1, 1, .w1c, 0, 1, none⟩,
    ⟨0, 0, .ro, 0, 1, none⟩]⟩]⟩

/-- IC_c: R328. -/
def blk_ICC : Block := ⟨0x80100000, 0x10000, 7, .core, [
  -- IC_c.SRC_s
  ⟨0x80100000, [(0x1000, 16), (0x4, 384)], 0x0, [⟨15, 15, .pt, 0, 1, none⟩,
    ⟨11, 8, .pt, 0, 15, none⟩,
    ⟨0, 0, .ro, 0, 1, none⟩]⟩,
  -- IC_c.LEVEL_k
  ⟨0x80100800, [(0x1000, 16), (0x4, 12)], 0x0, [⟨31, 0, .ro, 0, 0xFFFFFFFF, none⟩]⟩,
  -- IC_c.PEND_k
  ⟨0x80100840, [(0x1000, 16), (0x4, 12)], 0x0, [⟨31, 0, .ro, 0, 0xFFFFFFFF, none⟩]⟩,
  -- IC_c.STATUS
  ⟨0x80100880, [(0x1000, 16)], 0x0, [⟨31, 31, .ro, 0, 1, none⟩,
    ⟨30, 30, .ro, 0, 1, none⟩,
    ⟨29, 29, .ro, 0, 1, none⟩,
    ⟨28, 28, .ro, 0, 1, none⟩,
    ⟨20, 16, .ro, 0, 31, none⟩,
    ⟨9, 0, .ro, 0, 1023, none⟩]⟩]⟩

/-- IC.SWI: R328. -/
def blk_ICSWI : Block := ⟨0x80110000, 0x20, 7, .none, [
  -- IC.SWI_SET_k
  ⟨0x80110000, [(0x4, 4)], 0x0, [⟨31, 0, .w1s, 0, 0xFFFFFFFF, none⟩]⟩,
  -- IC.SWI_CLR_k
  ⟨0x80110010, [(0x4, 4)], 0x0, [⟨31, 0, .w1c, 0, 0xFFFFFFFF, none⟩]⟩]⟩

/-- LD_n: R357. -/
def blk_LD : Block := ⟨0x80120000, 0x800, 31, .inst 0x80120018 0x100 4, [
  -- LD_n.CTRL
  ⟨0x80120000, [(0x100, 8)], 0x0, [⟨5, 4, .rw, 0, 2, none⟩,
    ⟨3, 3, .rw, 0, 1, none⟩,
    ⟨1, 1, .wo, 0, 1, none⟩,
    ⟨0, 0, .rw, 0, 1, none⟩]⟩,
  -- LD_n.SRC_LO
  ⟨0x80120004, [(0x100, 8)], 0x0, [⟨31, 0, .rw, 0, 0xFFFFFFFF, none⟩]⟩,
  -- LD_n.DST_LO
  ⟨0x80120008, [(0x100, 8)], 0x0, [⟨31, 0, .rw, 0, 0xFFFFFFFF, none⟩]⟩,
  -- LD_n.ADDR_HI
  ⟨0x8012000C, [(0x100, 8)], 0x0, [⟨19, 16, .rw, 0, 15, none⟩,
    ⟨3, 0, .rw, 0, 15, none⟩]⟩,
  -- LD_n.COUNT
  ⟨0x80120010, [(0x100, 8)], 0x0, [⟨31, 0, .rw, 0, 0xFFFFFFFF, none⟩]⟩,
  -- LD_n.IDX
  ⟨0x80120014, [(0x100, 8)], 0x0, [⟨31, 16, .rw, 0, 0xFFFF, none⟩,
    ⟨15, 0, .ro, 0, 0xFFFF, none⟩]⟩,
  -- LD_n.STATUS
  ⟨0x80120018, [(0x100, 8)], 0x1, [⟨31, 24, .ro, 0, 255, none⟩,
    ⟨5, 5, .ro, 0, 1, none⟩,
    ⟨4, 4, .w1c, 0, 1, none⟩,
    ⟨3, 3, .w1c, 0, 1, none⟩,
    ⟨2, 2, .w1c, 0, 1, none⟩,
    ⟨1, 1, .ro, 0, 1, none⟩,
    ⟨0, 0, .ro, 0, 1, none⟩]⟩,
  -- LD_n.FAULT_ADDR
  ⟨0x8012001C, [(0x100, 8)], 0x0, [⟨31, 0, .ro, 0, 0xFFFFFFFF, none⟩]⟩,
  -- LD_n.HELD_LO
  ⟨0x80120020, [(0x100, 8)], 0x0, [⟨31, 0, .ro, 0, 0xFFFFFFFF, none⟩]⟩,
  -- LD_n.HELD_HI
  ⟨0x80120024, [(0x100, 8)], 0x0, [⟨31, 0, .ro, 0, 0xFFFFFFFF, none⟩]⟩]⟩

/-- MEM: R357. -/
def blk_MEM : Block := ⟨0x80128000, 0x100, 31, .none, [
  -- MEM.CTRL
  ⟨0x80128000, [], 0x0, [⟨0, 0, .rw, 0, 1, none⟩]⟩,
  -- MEM.STATUS
  ⟨0x80128004, [], 0x0, [⟨3, 3, .ro, 0, 1, none⟩,
    ⟨2, 2, .ro, 0, 1, none⟩,
    ⟨1, 1, .ro, 0, 1, none⟩,
    ⟨0, 0, .w1c, 0, 1, none⟩]⟩,
  -- MEM.SRAM_CORR
  ⟨0x80128008, [], 0x0, [⟨31, 0, .w1c, 0, 0xFFFFFFFF, none⟩]⟩,
  -- MEM.DRAM_CORR
  ⟨0x8012800C, [], 0x0, [⟨31, 0, .w1c, 0, 0xFFFFFFFF, none⟩]⟩,
  -- MEM.FATAL_ADDR
  ⟨0x80128010, [], 0x0, [⟨31, 0, .ro, 0, 0xFFFFFFFF, none⟩]⟩]⟩

/-- LOCK: R378. -/
def blk_LOCK : Block := ⟨0x80130000, 0x1000, 31, .inst 0x80130008 0x40 2, [
  -- LOCK_p.CTRL
  ⟨0x80130000, [(0x40, 8)], 0x0, [⟨1, 1, .rw, 0, 1, none⟩,
    ⟨0, 0, .rw, 0, 1, none⟩]⟩,
  -- LOCK_p.STATUS
  ⟨0x80130004, [(0x40, 8)], 0x0, [⟨11, 8, .ro, 0, 15, none⟩,
    ⟨6, 4, .ro, 0, 7, none⟩,
    ⟨2, 0, .ro, 0, 7, none⟩]⟩,
  -- LOCK_p.FLAGS
  ⟨0x80130008, [(0x40, 8)], 0x0, [⟨2, 2, .w1c, 0, 1, none⟩,
    ⟨1, 1, .w1c, 0, 1, none⟩,
    ⟨0, 0, .w1c, 0, 1, none⟩]⟩,
  -- LOCK_p.LIMP_PC
  ⟨0x8013000C, [(0x40, 8)], 0x0, [⟨31, 0, .rw, 0, 0xFFFFFFFF, none⟩]⟩,
  -- LOCK_p.MISMATCH
  ⟨0x80130010, [(0x40, 8)], 0x0, [⟨31, 31, .ro, 0, 1, none⟩,
    ⟨15, 8, .ro, 0, 255, none⟩,
    ⟨2, 0, .ro, 0, 7, none⟩]⟩,
  -- LOCK_p.MISMATCH_PC
  ⟨0x80130014, [(0x40, 8)], 0x0, [⟨31, 0, .ro, 0, 0xFFFFFFFF, none⟩]⟩,
  -- LOCK_p.TIME
  ⟨0x80130018, [(0x40, 8)], 0x0, [⟨31, 0, .ro, 0, 0xFFFFFFFF, none⟩]⟩]⟩

/-- FLASH: R402. -/
def blk_FLASH : Block := ⟨0x80140000, 0x1000, 31, .at 0x80140004 3, [
  -- FLASH.CMD
  ⟨0x80140000, [], 0x0, [⟨31, 28, .wo, 0, 15, none⟩,
    ⟨25, 0, .wo, 0, 0x3FFFFFF, none⟩]⟩,
  -- FLASH.STATUS
  ⟨0x80140004, [], 0x0, [⟨19, 16, .ro, 0, 15, none⟩,
    ⟨8, 8, .ro, 0, 1, none⟩,
    ⟨7, 7, .ro, 0, 1, none⟩,
    ⟨6, 6, .w1c, 0, 1, none⟩,
    ⟨5, 5, .ro, 0, 1, none⟩,
    ⟨4, 4, .w1c, 0, 1, none⟩,
    ⟨3, 3, .w1c, 0, 1, none⟩,
    ⟨2, 2, .w1c, 0, 1, none⟩,
    ⟨1, 1, .ro, 0, 1, none⟩,
    ⟨0, 0, .ro, 0, 1, none⟩]⟩,
  -- FLASH.CTRL
  ⟨0x80140008, [], 0x0, [⟨6, 0, .rw, 0, 127, none⟩]⟩,
  -- FLASH.SUSPEND_BLOCK
  ⟨0x8014000C, [], 0x0, [⟨8, 0, .ro, 0, 511, none⟩]⟩,
  -- FLASH.BUF_k
  ⟨0x80140040, [(0x4, 16)], 0xFFFFFFFF, [⟨31, 0, .rw, 0, 0xFFFFFFFF, none⟩]⟩,
  -- FLASH.PWD_k
  ⟨0x80140080, [(0x4, 4)], 0x0, [⟨31, 0, .wo, 0, 0xFFFFFFFF, none⟩]⟩,
  -- FLASH.PROT_LO, the map with which devices leave the factory (R391)
  ⟨0x80140090, [], 0x1, [⟨31, 0, .ro, 0, 0xFFFFFFFF, none⟩]⟩,
  -- FLASH.PROT_HI
  ⟨0x80140094, [], 0x0, [⟨31, 0, .ro, 0, 0xFFFFFFFF, none⟩]⟩,
  -- FLASH.SEL
  ⟨0x80140098, [], 0x0, [⟨0, 0, .ro, 0, 1, none⟩]⟩,
  -- FLASH.SEL_SEQ
  ⟨0x8014009C, [], 0x0, [⟨31, 0, .ro, 0, 0xFFFFFFFF, none⟩]⟩,
  -- FLASH.ERASE_COUNT
  ⟨0x801400A0, [], 0x0, [⟨31, 0, .ro, 0, 0xFFFFFFFF, none⟩]⟩,
  -- FLASH.CORR_COUNT
  ⟨0x801400A4, [], 0x0, [⟨31, 0, .w1c, 0, 0xFFFFFFFF, none⟩]⟩,
  -- FLASH.FATAL_ADDR
  ⟨0x801400A8, [], 0x0, [⟨31, 0, .ro, 0, 0xFFFFFFFF, none⟩]⟩,
  -- FLASH.INTERRUPTED
  ⟨0x801400AC, [], 0x0, [⟨31, 31, .w1c, 0, 1, none⟩,
    ⟨27, 26, .ro, 0, 3, none⟩,
    ⟨25, 0, .ro, 0, 0x3FFFFFF, none⟩]⟩,
  -- FLASH.REMAP_SEL
  ⟨0x801400B0, [], 0x0, [⟨5, 0, .rw, 0, 63, none⟩]⟩,
  -- FLASH.REMAP_ENTRY
  ⟨0x801400B4, [], 0x0, [⟨31, 31, .ro, 0, 1, none⟩,
    ⟨30, 29, .ro, 0, 3, none⟩,
    ⟨13, 5, .ro, 0, 511, none⟩,
    ⟨4, 0, .ro, 0, 31, none⟩]⟩]⟩

/-- JRNL: R402. -/
def blk_JRNL : Block := ⟨0x80148000, 0x100, 31, .none, [
  -- JRNL.CTRL
  ⟨0x80148000, [], 0x0, [⟨0, 0, .rw, 0, 1, none⟩]⟩,
  -- JRNL.WP
  ⟨0x80148004, [], 0x0, [⟨15, 0, .rw, 0, 0xFFFF, none⟩]⟩,
  -- JRNL.STATUS
  ⟨0x80148008, [], 0x0, [⟨2, 2, .w1c, 0, 1, none⟩,
    ⟨1, 1, .ro, 0, 1, none⟩,
    ⟨0, 0, .w1c, 0, 1, none⟩]⟩,
  -- JRNL.CORR_COUNT
  ⟨0x8014800C, [], 0x0, [⟨31, 0, .w1c, 0, 0xFFFFFFFF, none⟩]⟩,
  -- JRNL.FATAL_ADDR
  ⟨0x80148010, [], 0x0, [⟨31, 0, .ro, 0, 0xFFFFFFFF, none⟩]⟩]⟩

/-- TW: R431. -/
def blk_TW : Block := ⟨0x80150000, 0x1000, 8, .at 0x80150044 5, [
  -- TW.NODE
  ⟨0x80150000, [], 0x0, [⟨31, 29, .pt, 0, 4, none⟩,
    ⟨28, 24, .pt, 0, 31, none⟩,
    ⟨16, 16, .pt, 0, 1, none⟩,
    ⟨10, 6, .rw, 0, 31, none⟩,
    ⟨5, 0, .rw, 0, 63, none⟩]⟩,
  -- TW.CFG
  ⟨0x80150004, [], 0xFF, [⟨7, 0, .pt, 1, 255, none⟩]⟩,
  -- TW.DOWN_MASK
  ⟨0x80150008, [], 0x0, [⟨31, 0, .pt, 0, 0xFFFFFFFF, none⟩]⟩,
  -- TW.RINGDIR_HOME
  ⟨0x8015001C, [], 0x0, [⟨31, 0, .pt, 0, 0xFFFFFFFF, none⟩]⟩,
  -- TW.RINGDIR_TRANSIT
  ⟨0x80150020, [], 0x0, [⟨31, 0, .pt, 0, 0xFFFFFFFF, none⟩]⟩,
  -- TW.DIR_HOME_LO
  ⟨0x8015000C, [], 0x0, [⟨31, 0, .pt, 0, 0xFFFFFFFF, none⟩]⟩,
  -- TW.DIR_HOME_HI
  ⟨0x80150010, [], 0x0, [⟨31, 0, .pt, 0, 0xFFFFFFFF, none⟩]⟩,
  -- TW.DIR_TRANSIT_LO
  ⟨0x80150014, [], 0x0, [⟨31, 0, .pt, 0, 0xFFFFFFFF, none⟩]⟩,
  -- TW.DIR_TRANSIT_HI
  ⟨0x80150018, [], 0x0, [⟨31, 0, .pt, 0, 0xFFFFFFFF, none⟩]⟩,
  -- TW.SYS_CTRL
  ⟨0x80150040, [], 0x0, [⟨13, 8, .rw, 0, 63, none⟩,
    ⟨1, 1, .wo, 0, 1, none⟩,
    ⟨0, 0, .wo, 0, 1, none⟩]⟩,
  -- TW.SYS_STATUS
  ⟨0x80150044, [], 0x0, [⟨27, 16, .ro, 0, 4095, none⟩,
    ⟨15, 8, .ro, 0, 255, none⟩,
    ⟨5, 5, .w1c, 0, 1, none⟩,
    ⟨4, 4, .w1c, 0, 1, none⟩,
    ⟨3, 3, .w1c, 0, 1, none⟩,
    ⟨2, 2, .w1c, 0, 1, none⟩,
    ⟨1, 1, .w1c, 0, 1, none⟩,
    ⟨0, 0, .ro, 0, 1, none⟩]⟩,
  -- TW.SYS_PERIOD
  ⟨0x80150048, [], 0x13880, [⟨23, 0, .rw, 16, 0xFFFFFF, none⟩]⟩,
  -- TW.SYS_START_LO
  ⟨0x8015004C, [], 0x0, [⟨31, 0, .rw, 0, 0xFFFFFFFF, none⟩]⟩,
  -- TW.SYS_START_HI
  ⟨0x80150050, [], 0x0, [⟨31, 0, .rw, 0, 0xFFFFFFFF, none⟩]⟩,
  -- TW.HEAT_K
  ⟨0x80150054, [], 0x0, [⟨31, 0, .ro, 0, 0xFFFFFFFF, none⟩]⟩,
  -- TW.TIME_OFFSET
  ⟨0x80150058, [], 0x0, [⟨31, 16, .ro, 0, 0xFFFF, none⟩,
    ⟨15, 0, .ro, 0, 0xFFFF, none⟩]⟩]⟩

/-- TW_p: R431. -/
def blk_TWP : Block := ⟨0x80151000, 0x7000, 8, .inst 0x80151008 0x400 7, [
  -- TW_p.CTRL
  ⟨0x80151000, [(0x400, 4)], 0x0, [⟨30, 24, .pt, 0, 127, none⟩,
    ⟨2, 2, .rw, 0, 1, none⟩,
    ⟨0, 0, .rw, 0, 1, none⟩]⟩,
  -- TW_p.LANE_CFG
  ⟨0x80151004, [(0x400, 4)], 0x2, [⟨11, 8, .pt, 0, 12, none⟩,
    ⟨7, 4, .pt, 0, 6, none⟩,
    ⟨1, 0, .pt, 0, 3, none⟩]⟩,
  -- TW_p.STATUS
  ⟨0x80151008, [(0x400, 4)], 0x800, [⟨31, 29, .ro, 0, 7, none⟩,
    ⟨19, 12, .ro, 0, 255, none⟩,
    ⟨11, 11, .ro, 0, 1, none⟩,
    ⟨10, 10, .ro, 0, 1, none⟩,
    ⟨9, 9, .ro, 0, 1, none⟩,
    ⟨8, 8, .w1c, 0, 1, none⟩,
    ⟨7, 7, .w1c, 0, 1, none⟩,
    ⟨6, 6, .w1c, 0, 1, none⟩,
    ⟨5, 5, .w1c, 0, 1, none⟩,
    ⟨4, 4, .w1c, 0, 1, none⟩,
    ⟨3, 3, .w1c, 0, 1, none⟩,
    ⟨2, 2, .w1c, 0, 1, none⟩,
    ⟨1, 1, .w1c, 0, 1, none⟩]⟩,
  -- TW_p.PARTNER
  ⟨0x8015100C, [(0x400, 4)], 0x0, [⟨31, 31, .ro, 0, 1, none⟩,
    ⟨28, 24, .ro, 0, 31, none⟩,
    ⟨23, 22, .ro, 0, 3, none⟩,
    ⟨10, 0, .ro, 0, 2047, none⟩]⟩,
  -- TW_p.ASYM
  ⟨0x80151010, [(0x400, 4)], 0x0, [⟨15, 0, .rw, 0, 0xFFFF, none⟩]⟩,
  -- TW_p.CRC_ERRORS
  ⟨0x80151014, [(0x400, 4)], 0x0, [⟨31, 0, .w1c, 0, 0xFFFFFFFF, none⟩]⟩,
  -- TW_p.RETRIES
  ⟨0x80151018, [(0x400, 4)], 0x0, [⟨31, 0, .w1c, 0, 0xFFFFFFFF, none⟩]⟩,
  -- TW_p.DEAD_INFO
  ⟨0x8015101C, [(0x400, 4)], 0x0, [⟨31, 31, .w1c, 0, 1, none⟩,
    ⟨21, 11, .ro, 0, 2047, none⟩,
    ⟨10, 0, .ro, 0, 2047, none⟩]⟩,
  -- TW_p.DEAD_LO
  ⟨0x80151020, [(0x400, 4)], 0x0, [⟨31, 0, .ro, 0, 0xFFFFFFFF, none⟩]⟩,
  -- TW_p.DEAD_HI
  ⟨0x80151024, [(0x400, 4)], 0x0, [⟨31, 0, .ro, 0, 0xFFFFFFFF, none⟩]⟩,
  -- TW_p.AUDIT_CTRL
  ⟨0x80151040, [(0x400, 4)], 0x0, [⟨8, 8, .ro, 0, 1, none⟩,
    ⟨0, 0, .wo, 0, 1, none⟩]⟩,
  -- TW_p.AUDIT_k_LO
  ⟨0x80151044, [(0x400, 4), (0x8, 7)], 0x0, [⟨31, 0, .ro, 0, 0xFFFFFFFF, none⟩]⟩,
  -- TW_p.AUDIT_k_HI
  ⟨0x80151048, [(0x400, 4), (0x8, 7)], 0x0, [⟨15, 0, .ro, 0, 0xFFFF, none⟩]⟩]⟩

/-- Host ports: R435, R436. -/
def blk_Hostports : Block := ⟨0x80160000, 0x20000, 9, .at 0x8016000C 0, [
  -- HOST.EN
  ⟨0x80160000, [], 0x0, [⟨24, 24, .pt, 0, 1, none⟩,
    ⟨23, 20, .pt, 0, 15, none⟩,
    ⟨19, 19, .pt, 0, 1, none⟩,
    ⟨18, 15, .pt, 0, 15, none⟩,
    ⟨14, 7, .pt, 0, 255, none⟩,
    ⟨6, 3, .pt, 0, 15, none⟩,
    ⟨2, 1, .pt, 0, 3, none⟩,
    ⟨0, 0, .pt, 0, 1, none⟩]⟩,
  -- HOST.POS_MODE
  ⟨0x80160004, [], 0x0, [⟨31, 0, .pt, 0, 0xFFFFFFFF, none⟩]⟩,
  -- HOST.LINK
  ⟨0x80160008, [], 0x0, [⟨2, 1, .rw, 0, 3, none⟩,
    ⟨0, 0, .rw, 0, 1, none⟩]⟩,
  -- HOST.STATUS
  ⟨0x8016000C, [], 0x0, [⟨0, 0, .w1c, 0, 1, none⟩]⟩,
  -- ETH_n.MGMT_CTRL
  ⟨0x80162800, [(0x1000, 2)], 0x0, [⟨1, 1, .rw, 0, 1, none⟩,
    ⟨0, 0, .rw, 0, 1, none⟩]⟩,
  -- ETH_n.MGMT_IPV4
  ⟨0x80162804, [(0x1000, 2)], 0x0, [⟨31, 0, .rw, 0, 0xFFFFFFFF, none⟩]⟩,
  -- ETH_n.MGMT_IPV6_k
  ⟨0x80162810, [(0x1000, 2), (0x4, 4)], 0x0, [⟨31, 0, .rw, 0, 0xFFFFFFFF, none⟩]⟩,
  -- ETH_n.MAC_LO
  ⟨0x80162820, [(0x1000, 2)], 0x0, [⟨31, 0, .rw, 0, 0xFFFFFFFF, none⟩]⟩,
  -- ETH_n.MAC_HI
  ⟨0x80162824, [(0x1000, 2)], 0x0, [⟨15, 0, .rw, 0, 0xFFFF, none⟩]⟩]⟩

/-- SESSION: R449. -/
def blk_SESSION : Block := ⟨0x80180000, 0x1000, 31, .at 0x80180004 27, [
  -- SESSION.CTRL
  ⟨0x80180000, [], 0x3C, [⟨17, 17, .rw, 0, 1, none⟩,
    ⟨16, 16, .rw, 0, 1, none⟩,
    ⟨11, 0, .rw, 0, 4095, none⟩]⟩,
  -- SESSION.STATUS
  ⟨0x80180004, [], 0x0, [⟨27, 27, .w1c, 0, 1, none⟩,
    ⟨26, 26, .w1c, 0, 1, none⟩,
    ⟨25, 25, .w1c, 0, 1, none⟩,
    ⟨24, 24, .w1c, 0, 1, none⟩,
    ⟨17, 17, .ro, 0, 1, none⟩,
    ⟨16, 16, .ro, 0, 1, none⟩,
    ⟨12, 8, .ro, 0, 31, none⟩,
    ⟨4, 0, .ro, 0, 31, none⟩]⟩,
  -- SESSION.FWD_LEN
  ⟨0x80180008, [], 0x0, [⟨18, 16, .ro, 0, 7, none⟩,
    ⟨8, 0, .ro, 0, 511, none⟩]⟩,
  -- SESSION.REPLY_CTRL
  ⟨0x8018000C, [], 0x0, [⟨31, 31, .wo, 0, 1, none⟩,
    ⟨8, 0, .rw, 0, 256, none⟩]⟩,
  -- SESSION.FWD_k
  ⟨0x80180100, [(0x4, 64)], 0x0, [⟨31, 0, .ro, 0, 0xFFFFFFFF, none⟩]⟩,
  -- SESSION.REPLY_k
  ⟨0x80180200, [(0x4, 64)], 0x0, [⟨31, 0, .rw, 0, 0xFFFFFFFF, none⟩]⟩]⟩

/-- ASSAY: R462. -/
def blk_ASSAY : Block := ⟨0x80190000, 0x1000, 31, .at 0x80190004 2, [
  -- ASSAY.CTRL
  ⟨0x80190000, [], 0x0, [⟨2, 0, .rw, 0, 7, none⟩]⟩,
  -- ASSAY.STATUS
  ⟨0x80190004, [], 0x7F7F0000, [⟨31, 31, .ro, 0, 1, none⟩,
    ⟨30, 24, .ro, 0, 127, none⟩,
    ⟨22, 16, .ro, 0, 127, none⟩,
    ⟨2, 2, .w1c, 0, 1, none⟩,
    ⟨1, 1, .w1c, 0, 1, none⟩,
    ⟨0, 0, .w1c, 0, 1, none⟩]⟩,
  -- ASSAY.REQ_k
  ⟨0x80190010, [(0x4, 3)], 0x0, [⟨31, 0, .w1s, 0, 0xFFFFFFFF, none⟩]⟩,
  -- ASSAY.CANCEL_k
  ⟨0x80190020, [(0x4, 3)], 0x0, [⟨31, 0, .wo, 0, 0xFFFFFFFF, none⟩]⟩,
  -- ASSAY.RESULT_r
  ⟨0x80190100, [(0x4, 86)], 0x0, [⟨31, 24, .ro, 0, 255, none⟩,
    ⟨23, 16, .ro, 0, 255, none⟩,
    ⟨2, 2, .ro, 0, 1, none⟩,
    ⟨1, 0, .ro, 0, 3, none⟩]⟩]⟩

/-- Every block span of R333 (the TCM window of R331 is memory). -/
def blocks : List Block := [
  blk_CLKRSTBOOT,
  blk_PMSUP,
  blk_IOMUX,
  blk_PAT,
  blk_MD,
  blk_XB,
  blk_CONV,
  blk_DEC,
  blk_WC,
  blk_WCRBSEL,
  blk_QUENCH,
  blk_SV,
  blk_SVTEMP,
  blk_TCn,
  blk_RUN,
  blk_RUNSNAP,
  blk_RUNPUSH,
  blk_LE,
  blk_LT,
  blk_PG,
  blk_PGCAL,
  blk_ICC,
  blk_ICSWI,
  blk_LD,
  blk_MEM,
  blk_LOCK,
  blk_FLASH,
  blk_JRNL,
  blk_TW,
  blk_TWP,
  blk_Hostports,
  blk_SESSION,
  blk_ASSAY]

end RegTable

end Sys2Proof.Machine
end

