-- ==== Sys2Proof/Machine/State.lean ====
section
/-! DEFINITION. The machine's state, as plain data, and the state right after reset. -/

namespace Sys2Proof.Machine

/-! ### Supply, clocks and reset (R30 to R58, R79 to R95) -/

/-- Where the supply stands (R34 to R38, R69). -/
inductive Supply where
  /-- VIN has not risen above 8.6 V since it was last lost. -/
  | off
  /-- Steps 1 to 3 of R34 are under way. -/
  | ramping
  /-- A full reset is discharging VMID (R37). -/
  | discharging
  /-- VMID is below 0.5 V and power-up waits for VIN or for a holding cause to end (R83). -/
  | waiting
  /-- Power-good has been reached. -/
  | good
deriving DecidableEq, Repr

/-- The power states of R51. -/
inductive PowerState where
  | run | idle | hold | dormant
deriving DecidableEq, Repr

/-- The current-limit record of one ball (R41): whether it is in limit, and its accumulated limit time in µs. -/
structure BallLimit where
  inLimit : Bool
  spent : Nat
deriving DecidableEq, Repr

/-- The supply, the reset controller and the always-on domain, beside their registers. -/
structure SupplyState where
  phase : Supply
  /-- VIN is present under R30. -/
  vin : Bool
  /-- VIN has been above 64 V and not yet below 62 V (R30). -/
  overvoltage : Bool
  /-- RESET_N is held low (R81). -/
  pinLow : Bool
  /-- A thermal trip whose Tj is not yet below 110 °C (R50). -/
  hot : Bool
  /-- REFCLK is absent (R79). -/
  refLost : Bool
  power : PowerState
  /-- The state being entered (R54), if entry is under way. -/
  entering : Option PowerState
  /-- The straps at the balls: bit b is 1 when IOV_SEL_b is tied to GND (R63). -/
  straps : BitVec 12
  /-- Tj was above SUP.TJ_WARN.THRESH, and VIN below SUP.VIN_WARN.THRESH, when last judged (R49, R58). -/
  tjAbove : Bool
  vinBelow : Bool
  /-- The sources that were high when the cores' clocks stopped and have not been seen low since (R324). -/
  highAtStop : List Nat
  /-- The sources that have risen since the clocks stopped (R324). -/
  risen : List Nat
  /-- The 1 ms average of P_IN that last completed with no region under test (R453). -/
  pBase : Nat
  limits : SMap BallLimit
  /-- The balls that R41 has switched off, by grid position. -/
  ballsOff : List Nat
  /-- The watchdog countdown in µs (R94). -/
  wdog : Nat
  /-- Boot has committed a Pattern (R109), or the recovery monitor runs (R87). -/
  committed : Bool
  /-- Byte length of the active Pattern (R53). -/
  patternBytes : Nat
deriving DecidableEq, Repr

/-! ### Converters (R115 to R143, R167 to R180) -/

/-- One decimator path (R132 to R140). -/
structure PathState where
  /-- The path takes input bits. -/
  taking : Bool
  /-- The enable bit was written 0 while the path takes input. -/
  stopping : Bool
  /-- The enable bit was written 1 again during the drain (R140). -/
  restart : Bool
  /-- A result or withheld output has been formed since the start. -/
  primed : Bool
  /-- Bit entries still to pass before the start delay ends (R132). -/
  skip : Nat
  /-- The bits taken since the previous result, oldest first, each with whether it stands for a code violation. -/
  queue : List (Bool × Bool)
  /-- The bits of the filter's window up to the previous result, newest first. -/
  hist : List Bool
  /-- RUNNING was 0 at some time since the previous result. -/
  srcDown : Bool
  /-- A code violation occurred in the start delay. -/
  viol : Bool
  /-- The holding buffer, oldest first (R135). -/
  buf : List Payload
  produced : BitVec 48
  delivered : BitVec 48
deriving DecidableEq, Repr

/-- A path that has never been started. -/
def PathState.init : PathState :=
  { taking := false, stopping := false, restart := false, primed := false, skip := 0, queue := [], hist := [],
    srcDown := false, viol := false, buf := [], produced := 0, delivered := 0 }

/-- Both paths of one decimator. -/
structure DecState where
  swift : PathState
  fine : PathState
deriving DecidableEq, Repr

/-- One of the 160 streams: the last bit it delivered, how many equal bits that one ends, whether its last cell was a
violation, and whether RUNNING has been 1 at some time since its bits were last taken (R116, R117, R121). -/
structure StreamState where
  last : Option Bool
  run : Nat
  lastViol : Bool
  up : Bool
deriving DecidableEq, Repr

/-- One window comparator (R145 to R151, R466): its outputs, whether its request has been 1 at some time in this rc, and
whether the capture latch takes the request in this rc and took it in the rc before, which Quench sees in this one. -/
structure WcState where
  above : Bool
  below : Bool
  seen : Bool
  now : Bool
  prev : Bool
  /-- STATUS and TRIP_COUNT before the rise counted in this rc, which a window that begins in it takes back (R150, R151). -/
  undo : Option (Word × Word)
deriving DecidableEq, Repr

/-- What a Survey converter is doing (R170, R174). -/
inductive SvJob where
  | none
  /-- Starting up before a conversion. -/
  | starting
  | entry
  | urgent
  /-- Powered, waiting for its token buffer (R176). -/
  | buffer
deriving DecidableEq, Repr

/-- One Survey converter, beside its registers. -/
structure SvState where
  job : SvJob
  /-- The entries of the running pass, copied at its first rc (R172). -/
  entries : List Word
  /-- The accepted urgent request that has not ended (R174). -/
  urgent : Option Word
  /-- Results waiting for credit (R176). -/
  buf : List Payload
  /-- EN was written 0 and the drain of R177 is not complete. -/
  draining : Bool
  /-- The pass is paused for HOLD (R178). -/
  paused : Bool
  /-- The conversion in progress began while the comparator DAC readback had not settled (R152). -/
  unsettled : Bool
  /-- The rc in which the last sequencer conversion ended (R174). -/
  ended : Option Nat
deriving DecidableEq, Repr

/-! ### Quench and the outputs (R153 to R163, R246 to R248) -/

/-- What stands at a PWM ball. -/
inductive Pin where
  | z | low | high
deriving DecidableEq, Repr

/-- Who controls a PWM output. -/
inductive OutMode where
  /-- High impedance, and driven by nobody. -/
  | hiZ
  /-- Released, and waiting for its group's next boundary (R92). -/
  | await
  | driven
  /-- Held at its safe state by its trip group (R156). -/
  | tripped
  /-- At its safe state because its group has stopped (R250, R252). -/
  | stopped
  /-- Held at its safe state by the global force (R158, R467). -/
  | held
deriving DecidableEq, Repr

/-- One interval of an output's ideal signal (R235): its rising and falling instants in fine steps (the falling
instant of a complementary output is known only once the next interval of its partner is), and whether its pulse
has been commanded and counted (R246). -/
structure Interval where
  rise : Nat
  fall : Option Nat
  commanded : Bool
  counted : Bool
deriving DecidableEq, Repr

/-- One PWM output. -/
structure OutState where
  mode : OutMode
  pin : Pin
  /-- A SAFE 1 output that waits for its dead time or its fixed delay before it goes high (R156, R158). -/
  highDue : Bool
  /-- The rc at whose end the present force was commanded. -/
  forcedAt : Nat
  /-- The intervals of earlier periods that have not ended, newest first, the interval of the period before this one,
  which stays until the next boundary, and the interval of this period. -/
  older : List Interval
  prev : Option Interval
  cur : Option Interval
  /-- The end of the blanking window (R245): active while rc is below it. -/
  blankEnd : Nat
  commanded : BitVec 48
  emitted : BitVec 48
  suppressed : BitVec 48
deriving DecidableEq, Repr

/-- The copy that ACC_CTRL.SNAP takes of one output (R247). -/
structure AccCopy where
  commanded : BitVec 48
  emitted : BitVec 48
  suppressed : BitVec 48
  inProgress : Bool
deriving DecidableEq, Repr

/-- One PWM group's timeline (R230 to R234), in fine steps. -/
structure PgState where
  /-- T_k and L_k of the period in progress, and the length it would have without a cut (R236). -/
  start : Nat
  len : Nat
  uncut : Nat
  /-- The instant at which the next period starts; none while the group waits for its master or for a heat. -/
  next : Option Nat
  /-- The PHASE and the DEAD in effect. -/
  phase : Nat
  dead : Word
  /-- The restart instants that heat starts have fixed and that are not yet reached, earliest first (R233). -/
  restartAt : List Nat
  /-- The first rc whose master start or heat start may start the group (R231, R251). -/
  armed : Nat
  /-- The next boundary is the stop boundary (R249), or the stop for HOLD or DORMANT (R54, R252). -/
  stopNext : Bool
  holdNext : Bool
  /-- EN was written 1 while DISABLE_PENDING is 1 (R250). -/
  reenable : Bool
  /-- Stopped for HOLD with EN left at 1 (R252). -/
  holdStop : Bool
  /-- The master reports DISABLED and this group runs on with its last period length (R234). -/
  orphan : Bool
  /-- PHASE became smaller at the last boundary, so the next master start falls inside the lengthened period (R232). -/
  wrapped : Bool
  /-- The start and length of the period before this one, in which shifted outputs may still be (R236); the length is 0 in
  a group's first period. -/
  prevStart : Nat
  prevUncut : Nat
  /-- What the period event reports of the period just ending (R244). -/
  sawForced : Bool
  sawLate : Bool
  sawResync : Bool
deriving DecidableEq, Repr

/-! ### The Runner (R181 to R203) -/

/-- A token in flight: its payload, its tag (R181), the consumer positions that have accepted it, and those whose block
reported DISABLED while it stood at the head (R195). -/
structure Token where
  payload : Payload
  tag : BitVec 16
  accepted : List Nat
  passed : List Nat
deriving DecidableEq, Repr

/-- One channel: its queue, oldest first, its free credits and its audit counters (R185 to R194). -/
structure Channel where
  queue : List Token
  free : Nat
  issued : BitVec 48
  retired : BitVec 48
  returned : BitVec 48
  /-- EN was written 1 while DISABLE_PENDING is 1 (R194). -/
  reenable : Bool
  /-- The producer waits for credit, and STALL has counted every rc before this one (R186). -/
  stall : Option Nat
deriving DecidableEq, Repr

/-- The copy that RUN.AUDIT_CTRL.SNAP takes of one channel (R192). -/
structure ChannelCopy where
  issued : BitVec 48
  retired : BitVec 48
  returned : BitVec 48
  inflight : Nat
  free : Nat
  riser : Nat
deriving DecidableEq, Repr

/-- One snapshot register (R199). -/
structure Snap where
  payload : Payload
  tag : BitVec 16
  count : BitVec 16
deriving DecidableEq, Repr

/-- One entry of the snapshot crossing (R200): the rc of its acceptances, and what they left in each snapshot register. -/
structure SnapEntry where
  since : Nat
  snaps : SMap Snap
deriving DecidableEq, Repr

/-- The held and captured words of one reader: a core, a management port or a Ladle engine
(R197, R220, R225, R465). -/
structure Reader where
  timeHi : Word
  stateLo : Word
  stateHi : Byte
  tableLo : Word
  tableHi : BitVec 16
deriving DecidableEq, Repr

/-! ### Law engines (R204 to R229) -/

/-- What a run waits for (R218, R223). -/
inductive LawWait where
  | none
  /-- An OUT waits for a credit of its channel. -/
  | credit
  /-- A lookup waits for its read port. -/
  | port
deriving DecidableEq, Repr

/-- One input latch: its port, its payload and the rc at whose end it was accepted (R212). -/
structure Latch where
  port : Nat
  payload : Payload
  since : Nat
deriving DecidableEq, Repr

/-- One shadow write on its way (R217): the target index and the value. -/
structure ShadowWrite where
  target : Nat
  value : Word
deriving DecidableEq, Repr

/-- One law engine, beside its registers. -/
structure LawState where
  /-- PC of the next operation. -/
  pc : Nat
  latches : List Latch
  /-- 1 more than the rc in which each port's latch was last emptied: it was not empty at the start of that rc (R212). -/
  freed : SMap Nat
  /-- A heat trigger pends since this heat start (R214). -/
  heat : Option Nat
  /-- Operations executed in the run, and the rc of its dispatch. -/
  ops : Nat
  began : Nat
  /-- The rc in which the next operation may execute; while the engine waits, the first rc that STALL has not counted. -/
  nextRc : Nat
  /-- The next operation executes as NOP (R209). -/
  skip : Bool
  wait : LawWait
  shadows : List ShadowWrite
  /-- The disable point of R226 has passed: nothing dispatches and tokens are discarded. -/
  closed : Bool
  /-- EN was written 1 while DISABLE_PENDING is 1 (R227). -/
  reenable : Bool
deriving DecidableEq, Repr

/-- A core's store to the Law Table window that waits for a read port (R223, R225). -/
structure TableStore where
  reader : Nat
  entry : Nat
  value : BitVec 48
deriving DecidableEq, Repr

/-- The push ports of one core (R198): the held low word, the buffer of ports and payloads, and REFUSED. -/
structure PushPorts where
  lo : Word
  buf : List (Nat × Payload)
  refused : Bool
deriving DecidableEq, Repr

/-! ### Cores (R256 to R328, R338 to R350) -/

/-- The four stacks of a core (R264): user and supervisor data stack, user and supervisor return stack. -/
inductive StackId where
  | du | ds | ru | rs
deriving DecidableEq, Repr

/-- One stack: its pointer, its window, and the cells held in its cache by virtual address (R264 to R266). -/
structure Stack where
  ptr : Word
  lo : Word
  hi : Word
  cells : SMap (BitVec 64)
deriving DecidableEq, Repr

/-- One TLB entry (R345): segment, virtual bits [27:12], frame bits [35:12], the permissions and key of its page entry,
the physical address of that entry, and whether it is locked. -/
structure TlbEntry where
  seg : Nat
  page : Nat
  frame : Nat
  u : Bool
  w : Bool
  x : Bool
  d : Bool
  key : Nat
  source : Nat
  locked : Bool
deriving DecidableEq, Repr

/-- The load instructions of R295. -/
inductive LoadKind where
  | ld | ldh | ldqh | ldb | ldbs | ldx
deriving DecidableEq, Repr

/-- A load that waits for a memory slower than the D-TCM (R277): its kind, its virtual address, and the physical address
of each byte it reads. -/
structure LoadWait where
  kind : LoadKind
  va : Nat
  bytes : List Nat
deriving DecidableEq, Repr

/-- A load in its shadow (R276): the stack and the address of the cell that takes the data. -/
structure LoadShadow where
  stack : StackId
  cell : Nat
  value : Cell
deriving DecidableEq, Repr

/-- A store that the crossbar has accepted and that has not landed (R295, R332): its physical address and its bytes, the key it
carries, and whether it is of device type and of user mode (R363). -/
structure Store where
  addr : Nat
  bytes : List Byte
  key : Nat := 0
  device : Bool := false
  user : Bool := false
deriving DecidableEq, Repr

/-- A claimed source and its vector (R320). -/
structure Claim where
  source : Nat
  vector : Word
deriving DecidableEq, Repr

/-- One core. The record of a checker in locked mode holds nothing of a controller, and no accepted stores: they are its primary's
(R360, R362). Fields named `…E` hold the effective value of an SY
register (R259); their partners hold the committed value. -/
structure Core where
  started : Bool
  /-- Halted under R318. -/
  halted : Bool
  waiting : Bool
  /-- Halted by the debug port, and one instruction allowed by a step (R375). -/
  debugHalt : Bool
  debugStep : Bool
  pc : Word
  psw : Word
  pswE : Word
  lc : Word
  ls : Word
  le : Word
  lcE : Word
  lsE : Word
  leE : Word
  evbase : Word
  evbaseE : Word
  ivbase : Word
  ivbaseE : Word
  /-- SEG_n_BASE at 2n and SEG_n_CTRL at 2n + 1. -/
  seg : SMap Word
  segE : SMap Word
  /-- A written value waits for the next synchronising event: bits 0 to 2 for LC, LS and LE, bit 3 for LA (R280), and bit
  n of `segPend` for a register of SEG_n (R348). -/
  pend : BitVec 4
  segPend : BitVec 16
  prg : Cell
  /-- The next instruction is the first after RETI (R301). -/
  prgLive : Bool
  du : Stack
  ds : Stack
  ru : Stack
  rs : Stack
  fr : SMap Cell
  pkr : Word
  walkInfo : Word
  walkInfoHi : Word
  lockFill : Bool
  lockFull : Bool
  /-- Most recently used first. -/
  tlb : List TlbEntry
  cause : Word
  faultAddr : Word
  shadowPc : Word
  shadowPsw : Word
  shadowPrg : Cell
  shadowStatus : Word
  rlevel : BitVec 5
  globalHold : Bool
  icClaim : Word
  entryLevel : Word
  icFlags : Word
  en : SMap Word
  claim : Option Claim
  wakeLatch : Bool
  loadWait : Option LoadWait
  shadow : Option LoadShadow
  /-- The long instruction in progress, in the form of PRG (R300). -/
  job : Option Cell
  stores : List Store
  /-- Instruction-cache lines by physical address, most recently used first (R261). -/
  icache : List (Nat × List Byte)
  /-- The addresses, in execution order, of bytes that stand in the fetch buffer under a translation or a cache line that has been
  removed since (R257, R347). -/
  fetched : List Nat
deriving DecidableEq, Repr

/-! ### Locked pairs (R358 to R375) -/

/-- What one core of a locked pair puts out in one instruction, by the groups of R363: the doublewords it fetches; the addresses,
size, privilege, key and device type of the requests that leave it, with the stack cells it holds, which its spills and fills
change; the data it stores; what it asks of its controller, its instruction cache and its TLB; the payloads it pushes; and
its PC, mode, IE, wait, halt and CAUSE. What it writes to memory at once is in `landed`, and what a block instruction reads in
`reads`. -/
structure CoreOut where
  fetch : List Nat
  reads : List Nat
  landed : List (Nat × Byte)
  request : List (Nat × Nat × Bool × Bool × Nat × Bool)
  held : List Nat
  data : List (List Byte)
  control : List Nat
  push : List (Nat × List Byte)
  pc : Word
  mode : Bool
  ie : Bool
  wait : Bool
  halt : Bool
  entry : Word
deriving DecidableEq, Repr

/-- A checker before an instruction that its primary has executed and it has not: its record, and its TCMs by offset, with the errors
in them (R360). -/
structure CheckerMark where
  core : Core
  tcm : SMap Byte
  poison : List Nat
  upsets : SMap WordEcc
deriving DecidableEq, Repr

/-- What the delay registers of a locked pair hold of one instruction (R360): its PC on the checker, the checker before it, what the
primary and the checker put out, and what a fault makes of the comparison. -/
structure DelayEntry where
  before : CheckerMark
  pc : Word
  primary : CoreOut
  checker : CoreOut
  fault : CmpReport
deriving DecidableEq, Repr

/-! ### Ladle (R351 to R354) -/

/-- One Ladle engine, beside its registers. -/
structure LadleState where
  /-- Units done since GO. -/
  units : Nat
  /-- WR_IDX: it has risen modulo the COUNT of each unit (R351). -/
  wrIdx : Nat
  /-- The core whose GO started the present COPY, for FENCE (R351). -/
  starter : Option Nat
  /-- EN was written 0 while a unit is in progress (R353). -/
  stopping : Bool
  /-- The payload of the unit in progress: a token accepted and not yet written, or one read and not yet issued. -/
  payload : Option Payload
deriving DecidableEq, Repr

/-! ### Flash (R379 to R397) -/

/-- A flash command that runs, with the data it took at its start. -/
inductive FlashJob where
  | program (offset : Nat) (data : List Byte)
  /-- `begun` when it is an erase that RESUME goes on with. -/
  | erase (block : Nat) (begun : Bool)
  /-- The erase to suspend, or none while nothing runs. -/
  | suspend (block : Option Nat)
  /-- RESUME with nothing suspended; a resumed erase is an `erase`. -/
  | resume
  | swap
  | unlock (hash : BitVec 256)
  | lock
  | setPwd (hash : BitVec 256)
  | setProt (map : BitVec 64)
  /-- SET_KEY of the session engine: erase block 10 and program its line 0 (R444). -/
  | setKey (hash : BitVec 256)
deriving DecidableEq, Repr

/-- One entry of the remap table (R390). -/
structure Remap where
  kind : Nat
  block : Nat
  spare : Nat
deriving DecidableEq, Repr

/-- The flash die and what its controller keeps, beside its registers. Everything but `job` and `suspended` is
non-volatile. -/
structure FlashState where
  bytes : SMap Byte
  /-- Lines programmed since their block was last erased. -/
  lines : SMap Bool
  /-- Lines that a reset left indeterminate (R389), or that PROGRAM_FAIL did (R387): each byte reads as a free value. -/
  torn : SMap Nat
  job : Option FlashJob
  suspended : Option Nat
  /-- The records of commands in progress, in the journal die: the value of FLASH.INTERRUPTED.CMD and the offset (R389). -/
  records : List (Nat × Nat)
  remap : List Remap
  /-- Blocks marked for retirement by PROGRAM_FAIL. -/
  retire : List Nat
  /-- Blocks marked bad by rule 3 of R390. -/
  bad : List Nat
  /-- Erase counts of logical blocks, and of spares at 512 + spare. -/
  erases : SMap Nat
  prot : BitVec 64
  pwdHash : BitVec 256
  pwdFails : Nat
  /-- The UNLOCK lockout, kept in the journal die (R392). -/
  pwdLocked : Bool
deriving DecidableEq, Repr

/-! ### Twiast (R403 to R431) -/

/-- A token on a link (R407). -/
structure TwToken where
  dest : BitVec 11
  src : BitVec 11
  hops : Byte
  payload : Payload
deriving DecidableEq, Repr

/-- The bring-up states of R418. -/
inductive TwLink where
  | disabled | train | lock | init | up | down
deriving DecidableEq, Repr

/-- One Twiast port, beside its registers. -/
structure TwPort where
  link : TwLink
  /-- EN is 0 and the drain of R421 is not complete; EN was written 1 again meanwhile. -/
  draining : Bool
  reenable : Bool
  /-- The transmit crossing: tokens accepted from this device's Tundish (R413). -/
  crossing : List TwToken
  /-- The retry buffer, oldest first, with each flit's SEQ; how many of its newest entries are still to be (re)sent. -/
  retry : List (BitVec 10 × TwToken)
  unsent : Nat
  txSeq : BitVec 10
  /-- Resends of the present oldest flit (R415). -/
  resends : Nat
  rxSeq : BitVec 10
  /-- A NAK has been sent for the present gap, or is due. -/
  nakSent : Bool
  nakDue : Bool
  /-- The LOCAL and TRANSIT landing buffers, oldest first (R414). -/
  localBuf : List TwToken
  transitBuf : List TwToken
  localCr : Nat
  transitCr : Nat
  /-- Landing slots freed since the last LINK flit. -/
  localFreed : Nat
  transitFreed : Nat
  /-- Token slots since an injected token went, and whether the next injected one is a captured token (R412). -/
  slots : Nat
  capturedTurn : Bool
  /-- Word-clock slots since the last control flit (R409). -/
  sinceControl : Nat
  /-- Control flits that wait for their slot. -/
  control : List FlitWord
  dead : Option TwToken
  linkBase : BitVec 48
  /-- The port has been UP since the last full reset. -/
  beenUp : Bool
  /-- The seven audit counters of R417, and the copy that AUDIT_CTRL.SNAP took. -/
  audit : SMap (BitVec 48)
  copy : SMap (BitVec 48)
  /-- The flit sent in the last word-clock slot. -/
  sent : FlitWord
deriving DecidableEq, Repr

/-- A heat schedule (R427 to R429). -/
structure HeatPlan where
  epoch : BitVec 12
  gen : Byte
  period : BitVec 24
  start : BitVec 64
deriving DecidableEq, Repr

/-- Time alignment and the system heats (R423 to R429). -/
structure TwSystem where
  /-- T1 of the TIME_REQ that awaits its response, and the TW.ASYM in force when its exchange began (R431). -/
  asked : Option (Stamp × Word)
  /-- The last θ values, newest first, each in 1/2,500 of a fine step (R424). -/
  thetas : List Int
  /-- LOCKED has been set once since commit. -/
  lockedOnce : Bool
  /-- The last HEAT flit adopted, unless software wrote FORGET. -/
  adopted : Option HeatPlan
  /-- The schedule in force, and the schedule adopted whose first start is not yet reached. -/
  plan : Option HeatPlan
  coming : Option HeatPlan
  /-- The schedule of the last ISSUE since the last full reset. -/
  issued : Option HeatPlan
  /-- EPOCH in the journal die, outside its window; none before its first use. -/
  epoch : Option (BitVec 12)
deriving DecidableEq, Repr

/-! ### Host ports and sessions (R432 to R449) -/

/-- The instruction of the test access port (R432, R433). -/
inductive TapInstr where
  | bypass | idcode | samplePreload | extest | extestPulse | extestTrain
deriving DecidableEq, Repr

/-- The line mode of an Ethernet port (R432, R435). -/
inductive LineMode where
  | base1000X
  | sgmii
deriving DecidableEq, Repr

/-- A response of a management port, as bytes, the source address and port of the request, and the MAC address that an Ethernet
port sends it from (R436, R438). -/
structure Response where
  bytes : List Byte
  source : BitVec 144
  mac : BitVec 48
deriving DecidableEq, Repr

/-- A frame that the session engine does not take: a message, with the CODE of its first byte, or an address query. -/
inductive HandedFrame where
  | message (code : Byte) (req : MgmtReq)
  | query (q : AddressQuery)
deriving DecidableEq, Repr

/-- A frame handed to firmware by an Ethernet port, and its timestamp: the time base in the rc of capture (R437, R438). -/
structure Handed where
  frame : HandedFrame
  time : BitVec 64
deriving DecidableEq, Repr

/-- The session engine, the management ports and the test access port, beside their registers. -/
structure HostState where
  /-- A link is up: bit 0 PCIe, bits 1 and 2 ETH_0 and ETH_1. -/
  links : BitVec 3
  /-- The source a session is bound to (R446). -/
  sources : SMap (BitVec 144)
  /-- Consecutive OPEN failures of each port, kept in the journal die (R445). -/
  fails : SMap Nat
  /-- The last response of each port; none from a request until its response is ready. -/
  responses : SMap Response
  /-- The requests that wait at their ports, oldest first, each with its CODE, and the port served last (R443). -/
  waiting : SMap (List (Byte × MgmtReq))
  lastPort : Nat
  /-- MSI-X vectors raised since the last request of port 0: vector 0 tells of a response (R438). -/
  msix : Byte
  /-- The line mode that each Ethernet port has been put in, and what each has handed to firmware, oldest first. -/
  lineModes : SMap LineMode
  handed : SMap (List Handed)
  /-- The pending FORWARD: its port, its tag and its source (R442). -/
  forward : Option (Nat × Byte × BitVec 144)
  /-- The SET_KEY whose flash command runs: its port, its tag and its source (R444). -/
  keyReply : Option (Nat × Byte × BitVec 144)
  /-- The answers of the Ethernet ports to ARP and Neighbor Discovery: the MAC address given (R436). -/
  answers : SMap (BitVec 48)
  /-- The level of ETH_PPS_n, and the rc in which it rose (R437). -/
  pps : BitVec 2
  ppsRose : SMap Nat
  /-- The word of the last register read. -/
  readData : Word
  tap : TapInstr
  /-- The levels preloaded for EXTEST, by ball. -/
  preload : SMap Bool
  /-- PCIE and ETH_n report a lost link to their interrupt source. -/
  linkEvents : BitVec 3
  /-- The enabled events that the controllers of sources 70 to 110 report, source 70 in bit 0 (R326, R449). -/
  events : BitVec 41
  /-- PCIE_REFCLK toggles (R95). -/
  pcieRef : Bool
  /-- The counter and the captured index of each quadrature position interface; of a serial-absolute one the position last read, and
0 (R432). -/
  pos : SMap (BitVec 32 × BitVec 32)
  /-- The receive FIFO of each UART, oldest character first, at most 64 (R432). -/
  uart : SMap (List Byte)
  /-- The ball levels that SAMPLE captured, by order in the list of R61 (R432). -/
  sampled : SMap Bool
deriving DecidableEq, Repr

/-! ### Assay (R450 to R462) -/

/-- Arbitration of one pair (R370): its regions still to be tested, those under test, and which of its cores failed. -/
structure Arbitration where
  pair : Nat
  queue : List Nat
  running : List Nat
  failed : List Nat
deriving DecidableEq, Repr

/-- Step 7 of R85 while it is under way: the option word and the entry address that step 8 uses, and the regions still to be
tested, in order (R458). -/
structure BootTest where
  option : Nat
  entry : Nat
  queue : List Nat
deriving DecidableEq, Repr

/-- Assay, beside its registers. -/
structure AssayState where
  lane0 : Option Nat
  lane1 : Option Nat
  boot : Option BootTest
  arbitrations : List Arbitration
  /-- Regions whose failure holds back output release, or a core (R459, R460). -/
  failed : List Nat
  /-- The regions left in reset by RESTORE_FAIL (R457). -/
  lost : List Nat
deriving DecidableEq, Repr

/-! ### The state -/

/-- The state of the ZM7160. -/
structure State where
  /-- The memory-mapped registers, by physical address. -/
  regs : SMap Word
  /-- The Tundish: channels, the audit copy, free Riser slots and Assay's test tokens. -/
  chans : SMap Channel
  audit : SMap ChannelCopy
  riserFree : Nat
  assayTokens : Nat
  /-- The conservation alarm (R25), the uncorrectable ECC event (R26). -/
  alarm : Bool
  eccReported : Bool
  /-- The snapshot registers in the Runner domain, the entries that are crossing, oldest first, and the cores' copy
  (R199, R200). -/
  snaps : SMap Snap
  snapCross : List SnapEntry
  snapCopy : SMap Snap
  /-- The high and tag words captured of snapshot k for reader r, at 128 r + k. -/
  captured : SMap (Word × Word)
  readers : SMap Reader
  pushes : SMap PushPorts
  decs : SMap DecState
  /-- The streams, by SRC of R124. -/
  streams : SMap StreamState
  wcs : SMap WcState
  /-- WC.RB_SEL as it stood before its selection last changed (R152). -/
  rbFrom : Option Word
  svs : SMap SvState
  outs : SMap OutState
  pgs : SMap PgState
  accs : SMap AccCopy
  laws : SMap LawState
  /-- State word w of engine n at 256 n + w, and program slot i of engine n at 1024 n + i. -/
  lawWords : SMap Cell
  lawProg : SMap (BitVec 64)
  lawTable : SMap (BitVec 48)
  tableQ : List TableStore
  /-- The rc at whose end read port p last served. -/
  ports : SMap Nat
  /-- Requests 32 to 39 (R368) and request 63 (R318). -/
  pairFault : BitVec 8
  coreHalted : Bool
  cores : SMap Core
  /-- The delay registers of each pair, oldest instruction first: at most two (R360). -/
  delays : SMap (List DelayEntry)
  ladles : SMap LadleState
  /-- The channel of priority r that shared consumer endpoint e served last, plus 1, at 4 e + r (R184). -/
  turn : SMap Nat
  /-- The rc of the last heat start, and of the next local one (R196). -/
  heatLast : Option Nat
  heatDue : Option Nat
  /-- The mode of each pair as step 5 of R85 fixed it: 1 is locked. -/
  pairLock : BitVec 8
  /-- The bytes of the TCMs (at their window addresses), the shared SRAM and the DRAM, by physical address. -/
  mem : SMap Byte
  /-- The journal's bytes, by offset. -/
  journal : SMap Byte
  /-- The 8-byte words and flash lines that hold an uncorrectable error, by physical address, in rising order. -/
  poison : List Nat
  /-- The errors that have struck such words and lines and that nothing has met yet (R262, R335, R382, R398; log entry 104). -/
  upsets : SMap WordEcc
  flash : FlashState
  tw : SMap TwPort
  twSys : TwSystem
  host : HostState
  assay : AssayState
  /-- The exposed bits of each register named by an EXPOSE record (R28, R112). -/
  exposed : SMap Word
  /-- The level at each multiplexed ball (R64). -/
  gpio : BitVec 114
  /-- Software sources SRC_128 to SRC_255 (R325). -/
  swi : BitVec 128
  supply : SupplyState
  /-- rc passed since commit, and the 64-bit time base (R197). -/
  rc : Nat
  timeBase : BitVec 64
  /-- The model's own count of the free values used (log entry 2); no statement rests on its value. -/
  freeCount : Nat
  /-- The commands that wait, first in, first out. -/
  pending : List Instr
deriving DecidableEq, Repr

/-- Why a command stops the machine. No command of this model does: the constructor stands for an arm whose command has no
effect in the manual, and no arm uses it (safe). -/
inductive Fault where
  /-- Nothing raises it (safe). -/
  | none
deriving DecidableEq, Repr

/-- Why a command is refused by the model. -/
inductive Refusal where
  /-- The dispatch of a command that has no meaning yet raises it (safe). -/
  | notModelled (mnemonic : String)
deriving DecidableEq, Repr

/-! ### Reset -/

/-- A stack that no cell has been pushed to, in its reset window (R283). -/
def Stack.reset (lo hi : Word) : Stack := { ptr := hi, lo := lo, hi := hi, cells := [] }

/-- The reset values of SEG_n_BASE (at 2n) and SEG_n_CTRL (at 2n + 1) (R356). -/
def segReset (k : Nat) : Word :=
  if k % 2 = 0 then BitVec.ofNat 32 (k / 2 * 0x1000000) else if k < 16 then 0xFFFF000D else 0xFFFF0025

/-- A core at its reset values (R283, R327, R356). -/
def Core.reset : Core :=
  { started := false, halted := false, waiting := false, debugHalt := false, debugStep := false, pc := 0,
    psw := 0x01000040, pswE := 0x01000040, lc := 0, ls := 0, le := 0, lcE := 0, lsE := 0, leE := 0,
    evbase := 0, evbaseE := 0, ivbase := 0x4000, ivbaseE := 0x4000, seg := [], segE := [],
    pend := 0, segPend := 0, prg := 0, prgLive := false,
    du := Stack.reset 0 0, ds := Stack.reset 0x3E000 0x3F000, ru := Stack.reset 0 0, rs := Stack.reset 0x3F000 0x3FF00,
    fr := [], pkr := 0, walkInfo := 0, walkInfoHi := 0, lockFill := false, lockFull := false, tlb := [], cause := 0,
    faultAddr := 0, shadowPc := 0, shadowPsw := 0, shadowPrg := 0, shadowStatus := 0, rlevel := 0, globalHold := false,
    icClaim := 0, entryLevel := 0, icFlags := 0, en := [], claim := none, wakeLatch := false, loadWait := none,
    shadow := none, job := none, stores := [], icache := [], fetched := [] }

/-- The flash as it leaves the factory (R381, R391, R392): the password hash is that of 16 zero bytes. -/
def FlashState.factory : FlashState :=
  { bytes := [], lines := [], torn := [], job := none, suspended := none, records := [], remap := [], retire := [],
    bad := [], erases := [], prot := 1, pwdHash := 0x374708FFF7719DD5979EC875D56CD2286F6D3CF7EC317A3B25632AAB28EC37BB, pwdFails := 0,
    pwdLocked := false }

/-- A Twiast port at reset. -/
def TwPort.reset : TwPort :=
  { link := .disabled, draining := false, reenable := false, crossing := [], retry := [], unsent := 0, txSeq := 0,
    resends := 0, rxSeq := 0, nakSent := false, nakDue := false, localBuf := [], transitBuf := [], localCr := 0,
    transitCr := 0, localFreed := 0, transitFreed := 0, slots := 0, capturedTurn := false, sinceControl := 0,
    control := [], dead := none, linkBase := 0, beenUp := false, audit := [], copy := [], sent := 0 }

/-- Time alignment at reset. -/
def TwSystem.reset : TwSystem :=
  { asked := none, thetas := [], lockedOnce := false, adopted := none, plan := none, coming := none, issued := none,
    epoch := none }

/-- The host ports at reset. -/
def HostState.reset : HostState :=
  { links := 0, sources := [], fails := [], responses := [], waiting := [], lastPort := 4, msix := 0, lineModes := [],
    handed := [], forward := none, keyReply := none, answers := [], pps := 0, ppsRose := [], readData := 0,
    tap := .bypass, preload := [], linkEvents := 0, events := 0, pcieRef := false, pos := [], uart := [], sampled := [] }

/-- Assay at reset. -/
def AssayState.reset : AssayState := { lane0 := none, lane1 := none, boot := none, arbitrations := [], failed := [], lost := [] }

/-- The supply when VIN has just risen above 8.6 V (R34, log entry 5). -/
def SupplyState.reset : SupplyState :=
  { phase := .ramping, vin := true, overvoltage := false, pinLow := false, hot := false, refLost := false, power := .run,
    entering := none, straps := 0, tjAbove := false, vinBelow := false, highAtStop := [], risen := [], pBase := 0, limits := [], ballsOff := [],
    wdog := 0, committed := false, patternBytes := 0 }

/-- The machine right after reset: VIN has just risen on a device as it left the factory, every register is at its
reset value, and power-up is under way (R34, R83, log entry 5). -/
def State.reset : State :=
  { regs := [], chans := [], audit := [], riserFree := 64, assayTokens := 0, alarm := false, eccReported := false,
    snaps := [], snapCross := [], snapCopy := [], captured := [], readers := [], pushes := [], decs := [], streams := [], wcs := [], rbFrom := none, svs := [], outs := [],
    pgs := [], accs := [], laws := [], lawWords := [], lawProg := [], lawTable := [], tableQ := [], ports := [],
    pairFault := 0, coreHalted := false, cores := [], delays := [], ladles := [], turn := [], heatLast := none, heatDue := none, pairLock := 0, mem := [], journal := [], poison := [], upsets := [],
    flash := FlashState.factory, tw := [], twSys := TwSystem.reset, host := HostState.reset, assay := AssayState.reset,
    exposed := [], gpio := 0, swi := 0, supply := SupplyState.reset, rc := 0, timeBase := 0, freeCount := 0,
    pending := [] }

end Sys2Proof.Machine
end

