-- ==== Sys2Proof/Machine/Ops.lean ====
section
/-! DEFINITION. The named operations over registers, fields, flags and counters that every block uses (R12 to R16). -/

namespace Sys2Proof.Machine

/-! ### Fields of a word -/

/-- The value of the field at place `f` of `w`. -/
def fieldOf (w : Word) (f : Fld) : Nat := (w.toNat >>> f.lo) % 2 ^ (f.hi - f.lo + 1)

/-- A word whose field at place `f` is all ones. -/
def fieldMask (f : Fld) : Word := BitVec.ofNat 32 ((2 ^ (f.hi - f.lo + 1) - 1) <<< f.lo)

/-- The value `v`, moved to the place `f`. -/
def fieldBits (f : Fld) (v : Nat) : Word := BitVec.ofNat 32 ((v % 2 ^ (f.hi - f.lo + 1)) <<< f.lo)

/-- `w` with `v` in the field at place `f`. -/
def putField (w : Word) (f : Fld) (v : Nat) : Word := (w &&& ~~~ fieldMask f) ||| fieldBits f v

/-- 1 for true, 0 for false. -/
def bit01 (b : Bool) : Nat := if b then 1 else 0

/-! ### The register map -/

/-- The index of address `a` in the registers of `d`, if it is one of them. -/
def dimsMatch : Nat → List (Nat × Nat) → Bool
  | off, [] => decide (off = 0)
  | off, (stride, count) :: rest =>
    match rest with
    | [] => decide (off % stride = 0) && decide (off / stride < count)
    | _ :: _ => decide (off / stride < count) && dimsMatch (off % stride) rest

/-- Address `a` is one of the registers that row `d` of the register table describes. -/
def RegDef.has (d : RegDef) (a : Nat) : Bool := decide (d.base ≤ a) && dimsMatch (a - d.base) d.dims

/-- The block span that holds address `a` (R333). -/
def blockAt (a : Nat) : Option Block := RegTable.blocks.find? (fun b => decide (b.base ≤ a) && decide (a < b.base + b.size))

/-- The row of the register table for address `a`. -/
def regDefAt (a : Nat) : Option RegDef :=
  match blockAt a with
  | none => none
  | some b => b.regs.find? (fun d => d.has a)

/-- The bits of address `a` that a field defines; every other bit is reserved (R15). -/
def definedMask (a : Nat) : Word :=
  match regDefAt a with
  | none => 0
  | some d => d.fields.foldl (fun m f => m ||| fieldMask ⟨f.hi, f.lo⟩) 0

/-- The reset word of address `a`: the value of its register table (DEC_n.CFG resets to 0x9100 + n, and PG_nn.ACTIVE_4 to
0xFA00). -/
def resetWord (a : Nat) : Word :=
  match regDefAt a with
  | none => 0
  | some d =>
    if d.base = A.DEC_CFG 0 then BitVec.ofNat 32 (d.reset + (a - d.base) / 0x80)
    else if d.base = A.PG_ACTIVE 0 0 ∧ (a - d.base) % 0x80 = 0x10 then 0xFA00
    else BitVec.ofNat 32 d.reset

/-- The word stored for the register at address `a`. -/
def State.reg (s : State) (a : Nat) : Word := mapGet resetWord s.regs a

/-- Store `w` at the register `a`; reserved bits stay zero (R15). -/
def State.setReg (s : State) (a : Nat) (w : Word) : State :=
  { s with regs := mapSet resetWord s.regs a (w &&& definedMask a) }

/-- The value of one field of a register. -/
def State.fld (s : State) (a : Nat) (f : Fld) : Nat := fieldOf (s.reg a) f

/-- One bit of a register is 1. -/
def State.bit (s : State) (a : Nat) (f : Fld) : Bool := decide (s.fld a f ≠ 0)

/-- Store `v` in one field of a register. -/
def State.setFld (s : State) (a : Nat) (f : Fld) (v : Nat) : State := s.setReg a (putField (s.reg a) f v)

/-- Set a flag. -/
def State.setBit (s : State) (a : Nat) (f : Fld) : State := s.setFld a f (2 ^ (f.hi - f.lo + 1) - 1)

/-- Clear a flag. -/
def State.clrBit (s : State) (a : Nat) (f : Fld) : State := s.setFld a f 0

/-- Set or clear a flag. -/
def State.putBit (s : State) (a : Nat) (f : Fld) (b : Bool) : State := if b then s.setBit a f else s.clrBit a f

/-- Set a flag if `b` holds, and leave it otherwise. -/
def State.setBitIf (s : State) (b : Bool) (a : Nat) (f : Fld) : State := if b then s.setBit a f else s

/-- Apply `f` when `b` holds. -/
def State.doIf (s : State) (b : Bool) (f : State → State) : State := if b then f s else s

/-- A saturating 32-bit event counter: one more, and its COUNT_FULL flag at 0xFFFF_FFFF. -/
def State.countEvent (s : State) (a : Nat) (fullAt : Nat) (full : Fld) : State :=
  let n := (s.reg a).toNat
  let s := if n < 0xFFFFFFFF then s.setReg a (BitVec.ofNat 32 (n + 1)) else s
  s.setBitIf (decide (0xFFFFFFFF ≤ n + 1)) fullAt full

/-- `k` events of such a counter at once. -/
def State.countEvents (s : State) (a k : Nat) (fullAt : Nat) (full : Fld) : State :=
  if k = 0 then s
  else
    let n := (s.reg a).toNat + k
    (s.setReg a (BitVec.ofNat 32 (min n 0xFFFFFFFF))).setBitIf (decide (0xFFFFFFFF ≤ n)) fullAt full

/-- A saturating counter with no flag. -/
def State.countSat (s : State) (a : Nat) (f : Fld) : State :=
  let n := s.fld a f
  if n + 1 < 2 ^ (f.hi - f.lo + 1) then s.setFld a f (n + 1) else s

/-- A counter that wraps. -/
def State.countWrap (s : State) (a : Nat) (f : Fld) : State := s.setFld a f (s.fld a f + 1)

/-! ### Time -/

/-- One rc passes: the count of rc since commit and the 64-bit time base rise by 1 (R197). -/
def State.tickRc (s : State) : State := { s with rc := s.rc + 1, timeBase := s.timeBase + 1 }

/-- The command falls in rc `r`: time passes up to it, if it is not there yet (log entry 6). -/
def State.advanceTo (s : State) (r : Nat) : State :=
  if s.rc < r then { s with rc := r, timeBase := s.timeBase + BitVec.ofNat 64 (r - s.rc) } else s

/-- Every rail is up. -/
def State.powered (s : State) : Bool := decide (s.supply.phase = .good) && decide (s.supply.power ≠ .dormant)

/-- The device is powered, its boot has reached the commit or recovery, and it is not in DORMANT. -/
def State.alive (s : State) : Bool :=
  decide (s.supply.phase = .good) && s.supply.committed && decide (s.supply.power ≠ .dormant)

/-- The Runner domain is running: the device is alive and not in HOLD (R51). -/
def State.runnerOn (s : State) : Bool := s.alive && decide (s.supply.power ≠ .hold)

/-- Step 7 of R85 is under way: no producer issues a token into a channel, and no law engine dispatches (R458). -/
def State.bootTesting (s : State) : Bool := s.assay.boot.isSome

/-! ### Free values -/

/-- The next free value (log entry 2). -/
def State.free (s : State) : BitVec 64 := Config.freeValue s.freeCount

/-- Count one free value as used. -/
def State.spent (s : State) : State := { s with freeCount := s.freeCount + 1 }

end Sys2Proof.Machine
end

