-- ==== Sys2Proof/Machine/Runner.lean ====
section
/-! DEFINITION. The Runner and the Tundish: endpoints, channels, issue, retirement, the Riser, the audit, the push
and snapshot ports (chapter 9). -/

namespace Sys2Proof.Machine

/-! ### Endpoints (R182) -/

def epSwift (n : Nat) : Nat := n
def epFine (n : Nat) : Nat := 0x0A0 + n
def epLawIn (n q : Nat) : Nat := 0x140 + 4 * n + q
def epLawOut (n q : Nat) : Nat := 0x1C0 + 4 * n + q
def epPeriod (g : Nat) : Nat := 0x240 + g
def epShadow (g : Nat) : Nat := 0x270 + g
def epSurvey (n : Nat) : Nat := 0x2A0 + n
def epNotice (g : Nat) : Nat := 0x2A8 + g
def epTwRx (p : Nat) : Nat := 0x2B8 + p
def epTwTx (p : Nat) : Nat := 0x2BC + p
def epPush (c q : Nat) : Nat := 0x2C0 + 4 * c + q
def epSnap (k : Nat) : Nat := 0x300 + k
def epLdWrite (n : Nat) : Nat := 0x380 + n
def epLdRead (n : Nat) : Nat := 0x388 + n

/-- The register at `a` is some TC_nnn.ROUTE_P. -/
def isRouteP (a : Nat) : Bool :=
  decide (A.TC_ROUTE_P 0 ≤ a) && decide (a < A.TC_ROUTE_P 256) && decide ((a - A.TC_ROUTE_P 0) % 0x20 = 0)

/-- The channel whose producer is endpoint `code`, if the Pattern routes one (R182, R183). -/
def State.producerChannel (s : State) (code : Nat) : Option Nat :=
  s.regs.findSome? (fun p =>
    if isRouteP p.1 && decide (fieldOf p.2 F.TC_ROUTE_P_PROD = code) then some ((p.1 - A.TC_ROUTE_P 0) / 0x20) else none)

/-- The consumer positions of channel `n` and their endpoints (0x3FF marks an unused one). -/
def State.consumers (s : State) (n : Nat) : List (Nat × Nat) :=
  [(0, s.fld (A.TC_ROUTE_C n) F.TC_ROUTE_C_CONS_LO), (1, s.fld (A.TC_ROUTE_C n) F.TC_ROUTE_C_CONS_HI),
   (2, s.fld (A.TC_ROUTE_D n) F.TC_ROUTE_D_CONS_LO), (3, s.fld (A.TC_ROUTE_D n) F.TC_ROUTE_D_CONS_HI)].filter
    (fun p => decide (p.2 ≠ 0x3FF))

/-- The channel whose ROUTE_C or ROUTE_D stands at `a`, with the position of its lower field. -/
def routeAt (a : Nat) : Option (Nat × Nat) :=
  if A.TC_ROUTE_P 0 ≤ a ∧ a < A.TC_ROUTE_P 256 then
    match (a - A.TC_ROUTE_P 0) % 0x20 with
    | 4 => some ((a - A.TC_ROUTE_P 0) / 0x20, 0)
    | 8 => some ((a - A.TC_ROUTE_P 0) / 0x20, 2)
    | _ => none
  else none

/-- The channels that the Pattern routes to endpoint `code` as a consumer, in rising order, and at which position: a channel
may name a shared consumer at several (R182, R183). -/
def State.channelsInto (s : State) (code : Nat) : List (Nat × Nat) :=
  s.regs.flatMap (fun p =>
    match routeAt p.1 with
    | none => []
    | some (n, q) =>
      (if fieldOf p.2 F.TC_ROUTE_C_CONS_LO = code then [(n, q)] else []) ++
        (if fieldOf p.2 F.TC_ROUTE_C_CONS_HI = code then [(n, q + 1)] else []))

/-- The block of consumer `code` reports DISABLED, so the consumer takes every token as accepted (R195). -/
def State.consumerDisabled (s : State) (code : Nat) : Bool :=
  if 0x140 ≤ code ∧ code < 0x1C0 then s.bit (A.LE_STATUS ((code - 0x140) / 4)) F.LE_STATUS_DISABLED
  else if 0x270 ≤ code ∧ code < 0x2A0 then s.bit (A.PG_STATUS (code - 0x270)) F.PG_STATUS_DISABLED
  else if 0x2BC ≤ code ∧ code < 0x2C0 then s.bit (A.TW_STATUS (code - 0x2BC)) F.TW_STATUS_DISABLED
  else if 0x380 ≤ code ∧ code < 0x388 then s.bit (A.LD_STATUS (code - 0x380)) F.LD_STATUS_DISABLED
  else false

/-! ### Channels -/

/-- A channel that has carried nothing. -/
def Channel.init : Channel :=
  { queue := [], free := 0, issued := 0, retired := 0, returned := 0, reenable := false, stall := none }

/-- What a channel that holds no token keeps until a full reset, while it is switched off: its counters (R190). -/
def Channel.kept (c : Channel) : Channel :=
  { Channel.init with issued := c.issued, retired := c.retired, returned := c.returned }

/-- The state of channel `n`. -/
def State.chan (s : State) (n : Nat) : Channel := mapGet (fun _ => Channel.init) s.chans n

/-- Store the state of channel `n`. -/
def State.setChan (s : State) (n : Nat) (c : Channel) : State := { s with chans := mapInsert s.chans n c }

/-- The token occupies a Riser slot (R181). -/
def Token.riser (t : Token) : Bool := t.tag.getLsbD 7

/-- Tokens in flight on a channel, and how many of them are Riser tokens. -/
def Channel.inflight (c : Channel) : Nat := c.queue.length
def Channel.risers (c : Channel) : Nat := (c.queue.filter Token.riser).length

/-- The two equations of R191 for channel `n`. -/
def State.channelBalanced (s : State) (n : Nat) : Bool :=
  let c := s.chan n
  decide (c.issued - c.retired - c.returned = BitVec.ofNat 48 c.inflight) &&
    decide (c.free + c.inflight = s.fld (A.TC_CREDIT n) F.TC_CREDIT_ALLOC + c.risers)

/-- Every Riser token in flight. -/
def State.riserTokens (s : State) : Nat := s.chans.foldl (fun k p => k + p.2.risers) 0

/-- Raise the conservation alarm until full reset (R25). -/
def State.raiseAlarm (s : State) : State := { s with alarm := true }

/-- The checks of R191, made after an event of channel `n`. -/
def State.auditChannel (s : State) (n : Nat) : State :=
  let s := if s.channelBalanced n then s
    else ((s.setBit (A.TC_STATUS n) F.TC_STATUS_CONS_FAULT).setBit A.RUN_STATUS F.RUN_STATUS_CONS_FAULT).raiseAlarm
  if s.riserFree + s.riserTokens + s.assayTokens = 64 then s
  else (s.setBit A.RUN_STATUS F.RUN_STATUS_CONS_FAULT).raiseAlarm

/-- A 48-bit audit counter wrapped when it was counted up by one to zero. -/
def wrapped (n : BitVec 48) : Bool := decide (n = 0)

/-- The consumer at position `q` has accepted the token, or is treated as if it had (R195). -/
def Token.takenBy (t : Token) (q : Nat) : Bool := t.accepted.contains q || t.passed.contains q

/-- A token at the head of its channel: the consumers of `cons` whose block is disabled count as having accepted it. -/
def Token.passing (cons : List (Nat × Bool)) (t : Token) : Token :=
  { t with passed := (cons.filter (fun p => p.2 && !t.takenBy p.1)).map (·.1) ++ t.passed }

/-- What becomes of the tokens at the head of a queue, oldest first: every token that each consumer of `cons` has
accepted (or whose block is disabled) leaves; the second list says of each whether some consumer accepted it, and
whether it was a Riser token (R185, R195). -/
def settleQueue (cons : List (Nat × Bool)) : List Token → List Token × List (Bool × Bool)
  | [] => ([], [])
  | t :: ts =>
    if cons.all (fun p => p.2 || t.takenBy p.1) then
      let r := settleQueue cons ts
      (r.1, (decide (t.accepted ≠ []), t.riser) :: r.2)
    else (t.passing cons :: ts, [])

/-- STALL of channel `n` counts `k` rc. -/
def State.countStall (s : State) (n k : Nat) : State := s.countEvents (A.TC_STALL n) k (A.TC_STATUS n) F.TC_STATUS_COUNT_FULL

/-- Credits come back to channel `n` at the end of this rc, in which FREE is still 0 for a producer that waits (R185, R186). -/
def creditBack (n : Nat) (s : State) : State :=
  let c := s.chan n
  match c.stall with
  | none => s
  | some u => if c.free = 0 then (s.countStall n (s.rc + 1 - u)).setChan n { c with stall := some (max u (s.rc + 1)) } else s

/-- Tokens that leave channel `n` are counted as retired or returned, and their credits and Riser slots come back
(R185, R188, R193, R195). -/
def State.leaveTokens (s : State) (n : Nat) (queue : List Token) (gone : List (Bool × Bool)) : State :=
  let s := s.doIf (gone.any (fun g => !g.2)) (creditBack n)
  let c := s.chan n
  let kept := BitVec.ofNat 48 (gone.filter (fun g => g.1)).length
  let back := BitVec.ofNat 48 (gone.filter (fun g => !g.1)).length
  let risers := (gone.filter (fun g => g.2)).length
  let c' := { c with queue := queue, free := c.free + (gone.length - risers),
                     retired := c.retired + kept, returned := c.returned + back }
  let s := { s.setChan n c' with riserFree := s.riserFree + risers }
  s.setBitIf (decide (c'.retired < c.retired) || decide (c'.returned < c.returned)) (A.TC_STATUS n) F.TC_STATUS_AUDIT_WRAP

/-- Retire or return every token of channel `n` that nothing holds any longer. -/
def State.settle (s : State) (n : Nat) : State :=
  let cons := (s.consumers n).map (fun p => (p.1, s.consumerDisabled p.2))
  let r := settleQueue cons (s.chan n).queue
  (s.leaveTokens n r.1 r.2).auditChannel n

/-- Settle every channel that names consumer `code`, after its block has become DISABLED (R195). -/
def State.settleInto (s : State) (code : Nat) : State :=
  (s.channelsInto code).foldl (fun s p => s.settle p.1) s

/-- The tag of a token issued now on channel `n` (R181). -/
def State.tagFor (s : State) (n : Nat) (riser remote : Bool) : BitVec 16 :=
  BitVec.ofNat 16 (n % 256 * 256 + bit01 riser * 128 + bit01 remote * 64 + s.fld A.RUN_HEAT_NUM F.RUN_HEAT_NUM_NUM % 16)

/-- Where R188 places a Riser token: behind every token already accepted by some consumer and behind every earlier
Riser token, ahead of the first untouched ordinary token. -/
def placeRiser (t : Token) : List Token → List Token
  | [] => [t]
  | u :: us => if u.riser || decide (u.accepted ≠ []) || decide (u.passed ≠ []) then u :: placeRiser t us else t :: u :: us

/-- The channel is draining or disabled, so a token issued into it is returned (R193). -/
def State.channelClosed (s : State) (n : Nat) : Bool :=
  s.bit (A.TC_STATUS n) F.TC_STATUS_DISABLE_PENDING || s.bit (A.TC_STATUS n) F.TC_STATUS_DISABLED

/-- Record the largest INFLIGHT of channel `n`. -/
def State.noteHwm (s : State) (n : Nat) (k : Nat) : State :=
  if s.fld (A.TC_HWM n) F.TC_HWM_HWM < k then s.setFld (A.TC_HWM n) F.TC_HWM_HWM k else s

/-- Issue one token into channel `n`, which holds a credit or gives a Riser slot (R185, R186, R188, R193). -/
def State.issueToken (s : State) (n : Nat) (payload : Payload) (riser remote : Bool) : State :=
  let c := s.chan n
  let s := s.noteHwm n (c.inflight + 1)
  if s.channelClosed n then
    let c' := { c with issued := c.issued + 1, returned := c.returned + 1 }
    ((s.setChan n c').setBitIf (wrapped c'.issued || wrapped c'.returned) (A.TC_STATUS n) F.TC_STATUS_AUDIT_WRAP).auditChannel n
  else
    let t : Token := { payload := payload, tag := s.tagFor n riser remote, accepted := [], passed := [] }
    let c' := { c with queue := (if riser then placeRiser t c.queue else c.queue ++ [t]),
                       free := (if riser then c.free else c.free - 1), issued := c.issued + 1 }
    let s := { s.setChan n c' with riserFree := (if riser then s.riserFree - 1 else s.riserFree) }
    (s.setBitIf (wrapped c'.issued) (A.TC_STATUS n) F.TC_STATUS_AUDIT_WRAP).settle n

/-- A producer offers a token to channel `n`: it is issued if FREE is above 0, and otherwise STALL counts this rc, once
(R186). The second part says whether it was issued. -/
def State.offer (s : State) (n : Nat) (payload : Payload) (remote : Bool) : State × Bool :=
  let c := s.chan n
  if c.free = 0 then
    ((s.countStall n (match c.stall with
                      | none => 1
                      | some u => s.rc + 1 - u)).setChan n { c with stall := some (s.rc + 1) }, false)
  else ((s.setChan n { c with stall := none }).issueToken n payload false remote, true)

/-- The offer of a producer that withholds: without credit, and in step 7 of the boot, it makes no token of the event, and waits
for none (R186, R458). -/
def State.offerOnce (s : State) (n : Nat) (payload : Payload) : State × Bool :=
  if s.bootTesting then (s, false)
  else if (s.chan n).free = 0 then (s.countStall n 1, false) else (s.issueToken n payload false false, true)

/-- The producer of channel `n` has no token to offer any more. -/
def State.withdraw (s : State) (n : Nat) : State :=
  if (s.chan n).stall.isSome then s.setChan n { s.chan n with stall := none } else s

/-- STALL of channel `n` when time passes to rc `r`: every rc of a wait in which FREE is 0 (R186). -/
def passChannel (r n : Nat) (s : State) : State :=
  let c := s.chan n
  match c.stall with
  | none => s
  | some u => (if c.free = 0 then s.countStall n (r - u) else s).setChan n { c with stall := some (max u r) }

/-! ### Disabling and enabling a channel (R193, R194) -/

def channelDisable (n : Nat) (s : State) : State :=
  if s.bit (A.TC_STATUS n) F.TC_STATUS_DISABLED then s.clrBit (A.TC_CTRL n) F.TC_CTRL_EN
  else
    ((s.clrBit (A.TC_CTRL n) F.TC_CTRL_EN).setBit (A.TC_STATUS n) F.TC_STATUS_DISABLE_PENDING).setChan n
      { s.chan n with reenable := false }

def channelDisabled (n : Nat) (s : State) : State :=
  if s.bit (A.TC_STATUS n) F.TC_STATUS_DISABLE_PENDING && decide ((s.chan n).queue = []) then
    let s' := s.clrBit (A.TC_STATUS n) F.TC_STATUS_DISABLE_PENDING
    if (s.chan n).reenable then s'.setChan n { s.chan n with reenable := false }
    else s'.setBit (A.TC_STATUS n) F.TC_STATUS_DISABLED
  else s

def channelEnable (n : Nat) (s : State) : State :=
  if s.fld (A.TC_ROUTE_P n) F.TC_ROUTE_P_PROD = 0x3FF then s.setBit (A.TC_STATUS n) F.TC_STATUS_CFG_REJECT
  else if s.bit (A.TC_STATUS n) F.TC_STATUS_DISABLE_PENDING then
    (s.setBit (A.TC_CTRL n) F.TC_CTRL_EN).setChan n { s.chan n with reenable := true }
  else (s.setBit (A.TC_CTRL n) F.TC_CTRL_EN).clrBit (A.TC_STATUS n) F.TC_STATUS_DISABLED

/-! ### The audit copy and the high-water marks (R192, R203) -/

def Channel.copy (c : Channel) : ChannelCopy :=
  { issued := c.issued, retired := c.retired, returned := c.returned, inflight := c.inflight, free := c.free,
    riser := c.risers }

def auditSnap (s : State) : State :=
  State.setBit { s with audit := s.chans.map (fun p => (p.1, p.2.copy)) } A.RUN_AUDIT_CTRL F.RUN_AUDIT_CTRL_VALID

/-- The copy of channel `n`; a channel that has carried nothing copies zeros. -/
def State.auditCopy (s : State) (n : Nat) : ChannelCopy := mapGet (fun _ => Channel.init.copy) s.audit n

def hwmClear (s : State) : State :=
  (List.range 256).foldl (fun s n => s.setFld (A.TC_HWM n) F.TC_HWM_HWM (s.chan n).inflight) s

/-! ### Quench notices (R162, R187 to R189) -/

/-- The Riser tokens that trip group `g` holds in flight. -/
def State.noticesInFlight (s : State) (g : Nat) : Nat :=
  match s.producerChannel (epNotice g) with
  | none => 0
  | some n => (s.chan n).risers

/-- Group `g` issues its notice, or skips it while both of its Riser slots are in flight. -/
def issueNotice (g : Nat) (payload : Payload) (s : State) : State :=
  match s.producerChannel (epNotice g) with
  | none => s
  | some n =>
    if s.noticesInFlight g < 2 then s.issueToken n payload true false
    else s.setBit A.RUN_STATUS F.RUN_STATUS_NOTICE_SKIPPED

/-! ### Readers: the time base, snapshots and push ports (R197 to R200, R465) -/

/-- A reader that has captured nothing. -/
def Reader.init : Reader := { timeHi := 0, stateLo := 0, stateHi := 0, tableLo := 0, tableHi := 0 }

def State.reader (s : State) (r : Nat) : Reader := mapGet (fun _ => Reader.init) s.readers r
def State.setReader (s : State) (r : Nat) (x : Reader) : State := { s with readers := mapInsert s.readers r x }

/-- A read of RUN.TIME_LO by reader `r`: the low word now, and the high word captured for that reader. -/
def timeLoRead (r : Nat) (s : State) : Word × State :=
  (s.timeBase.setWidth 32, s.setReader r { s.reader r with timeHi := (s.timeBase >>> 32).setWidth 32 })

/-- A snapshot register that has accepted nothing. -/
def Snap.init : Snap := { payload := 0, tag := 0, count := 0 }

def State.snap (s : State) (k : Nat) : Snap := mapGet (fun _ => Snap.init) s.snaps k

/-- The later values of two entries win: `new` over `old`. -/
def mergeSnaps (old new : SMap Snap) : SMap Snap := new.foldl (fun m p => mapInsert m p.1 p.2) old

/-- The trim of R75 makes rc run faster than cc. -/
def State.rcFaster (s : State) : Bool :=
  let t := s.fld A.TW_TIME_OFFSET F.TW_TIME_OFFSET_TRIM
  decide (0 < t) && decide (t < 0x8000)

/-- How many of the oldest entries of the snapshot crossing have reached the cores' copy: none within 2 cc of the end of their rc,
every one after 3 cc, and a free number between them. Only while rc runs faster than cc can the crossing fill, and then an entry
may wait for the 8 before it too (R78, R199, R200, log entry 72). -/
def State.snapsCrossed (s : State) : Nat :=
  let last := if s.rcFaster then 12 else 4
  let sure := (s.snapCross.takeWhile (fun e => decide (e.since + last ≤ s.rc))).length
  let most := (s.snapCross.takeWhile (fun e => decide (e.since + 3 ≤ s.rc))).length
  sure + s.free.toNat % (most - sure + 1)

/-- The entries that have crossed stand in the cores' copy. -/
def crossSnaps (s : State) : State :=
  match s.snapCross with
  | [] => s
  | l =>
    let n := s.snapsCrossed
    { s.spent with snapCross := l.drop n, snapCopy := (l.take n).foldl (fun m e => mergeSnaps m e.snaps) s.snapCopy }

/-- An acceptance enters the crossing: into the entry of its rc, or as a new entry, for which a crossing that holds 8 entries
merges its two oldest (R200). -/
def pushSnap (rc k : Nat) (x : Snap) (l : List SnapEntry) : List SnapEntry :=
  if l.getLast?.any (fun e => decide (e.since = rc)) then
    l.map (fun e => if e.since = rc then { e with snaps := mapInsert e.snaps k x } else e)
  else
    (match l with
     | a :: b :: rest => if 8 ≤ l.length then { b with snaps := mergeSnaps a.snaps b.snaps } :: rest else l
     | _ => l) ++ [{ since := rc, snaps := [(k, x)] }]

/-- Snapshot register `k` accepts a token. -/
def snapAccept (k : Nat) (payload : Payload) (tag : BitVec 16) (s : State) : State :=
  let x : Snap := { payload := payload, tag := tag, count := (s.snap k).count + 1 }
  let s := crossSnaps s
  { s with snaps := mapInsert s.snaps k x, snapCross := pushSnap s.rc k x s.snapCross }

/-- Snapshot register `k` as reader `r` sees it: a core (below 16) sees the cores' copy, every other reader the register in
the Runner domain (R199, R465). -/
def State.snapFor (s : State) (r k : Nat) : Snap := mapGet (fun _ => Snap.init) (if r < 16 then s.snapCopy else s.snaps) k

/-- A read of RUN.SNAP_k_LO by reader `r`: the low word, with the high word and the tag word captured for that reader. -/
def snapLoRead (r k : Nat) (s : State) : Word × State :=
  let x := s.snapFor r k
  (x.payload.setWidth 32,
   { s with captured := mapInsert s.captured (128 * r + k) ((x.payload >>> 32).setWidth 32, x.count ++ x.tag) })

/-- The words that reader `r` last captured from snapshot register `k`. -/
def State.snapCaptured (s : State) (r k : Nat) : Word × Word := mapGet (fun _ => (0, 0)) s.captured (128 * r + k)

/-- The push ports of a core: its held low word, its buffer and its REFUSED flag. -/
def PushPorts.init : PushPorts := { lo := 0, buf := [], refused := false }

def State.push (s : State) (c : Nat) : PushPorts := mapGet (fun _ => PushPorts.init) s.pushes c
def State.setPush (s : State) (c : Nat) (p : PushPorts) : State := { s with pushes := mapInsert s.pushes c p }

/-- A store to RUN.PUSH_LO. -/
def pushLo (c : Nat) (w : Word) (s : State) : State := s.setPush c { s.push c with lo := w }

/-- A store to RUN.PUSH_HI_q: the token enters the core's buffer, or is refused. -/
def pushHi (c q : Nat) (w : Word) (s : State) : State :=
  let p := s.push c
  if decide (p.buf.length < 8) && (s.producerChannel (epPush c q)).isSome then
    s.setPush c { p with buf := p.buf ++ [(q, w ++ p.lo)] }
  else s.setPush c { p with refused := true }

/-- The oldest entry of core `c`'s push buffer is offered to its port's channel. -/
def issuePush (c : Nat) (s : State) : State :=
  match (s.push c).buf with
  | [] => s
  | (q, payload) :: rest =>
    match s.producerChannel (epPush c q) with
    | none => s
    | some n =>
      let r := s.offer n payload false
      if r.2 then r.1.setPush c { s.push c with buf := rest } else r.1

end Sys2Proof.Machine
end

