-- ==== Sys2Proof/Machine/Outputs.lean ====
section
/-! DEFINITION. The PWM outputs: their pins, their safe states, the forces that hold them, and pulse accounting
(R154, R156, R158, R246, R247, R467). -/

namespace Sys2Proof.Machine

/-- An output that has commanded nothing, at high impedance. -/
def OutState.init : OutState :=
  { mode := .hiZ, pin := .z, highDue := false, forcedAt := 0, older := [], prev := none, cur := none, blankEnd := 0,
    commanded := 0, emitted := 0, suppressed := 0 }

/-- What an output with no pulse in progress keeps until a full reset, while it is switched off: its counters (R247). -/
def OutState.kept (x : OutState) : OutState :=
  { OutState.init with commanded := x.commanded, emitted := x.emitted, suppressed := x.suppressed }

/-- The state of output `o`, which is PWM_o: output `o % 4` of group `o / 4`. -/
def State.out (s : State) (o : Nat) : OutState := mapGet (fun _ => OutState.init) s.outs o
def State.setOut (s : State) (o : Nat) (x : OutState) : State := { s with outs := mapInsert s.outs o x }

/-- The safe state of output `o`: 0 low, 1 high, 2 high impedance (R154). -/
def State.safeOf (s : State) (o : Nat) : Nat := s.fld (A.QUENCH_OUT (o / 4)) ⟨8 * (o % 4) + 7, 8 * (o % 4) + 6⟩

/-- The trip group of output `o`, 31 for none (R154). -/
def State.tripGroupOf (s : State) (o : Nat) : Nat := s.fld (A.QUENCH_OUT (o / 4)) ⟨8 * (o % 4) + 4, 8 * (o % 4)⟩

/-- A trip group is latched. -/
def State.latched (s : State) (g : Nat) : Bool := decide (g < 16) && s.bit (A.QUENCH_CAUSE g) F.QUENCH_CAUSE_VALID

/-- The pulse of an interval is in progress (R246). -/
def Interval.running (i : Interval) : Bool := i.commanded && !i.counted

/-- The falling rc of an interval lies after rc `r`, or is not known yet. -/
def Interval.fallsAfter (i : Interval) (r : Nat) : Bool :=
  match i.fall with
  | none => true
  | some f => decide (r < f / 64)

/-- The intervals an output holds, newest first. -/
def OutState.intervals (x : OutState) : List Interval := x.cur.toList ++ x.prev.toList ++ x.older

/-- Every interval of an output changed by `f`. -/
def OutState.mapIntervals (x : OutState) (f : Interval → Interval) : OutState :=
  { x with older := x.older.map f, prev := x.prev.map f, cur := x.cur.map f }

/-- The pulses in progress of which `hit` holds. -/
def OutState.hits (x : OutState) (hit : Interval → Bool) : Nat :=
  (x.intervals.filter (fun i => i.running && hit i)).length

/-- How many pulses of an output are in progress. -/
def OutState.inProgress (x : OutState) : Nat := x.hits (fun _ => true)

/-- Mark an interval's pulse as counted when `hit` holds of it. -/
def Interval.countIf (hit : Interval → Bool) (i : Interval) : Interval :=
  if i.running && hit i then { i with counted := true } else i

/-- Count every pulse in progress of which `hit` holds as suppressed. -/
def OutState.suppress (x : OutState) (hit : Interval → Bool) : OutState :=
  { x.mapIntervals (Interval.countIf hit) with suppressed := x.suppressed + BitVec.ofNat 48 (x.hits hit) }

/-- Count every pulse in progress of which `hit` holds as emitted. -/
def OutState.emit (x : OutState) (hit : Interval → Bool) : OutState :=
  { x.mapIntervals (Interval.countIf hit) with emitted := x.emitted + BitVec.ofNat 48 (x.hits hit) }

/-- The pin of an output that goes to safe state `safe`: an output that must go high and is not high waits for its dead
time, low until then (R156). DESIGN CHOICE (log entry 74): R156 gives the dead time to an output that is high or low, and
an output at Z whose SAFE is 1 is also low first, then high. -/
def OutState.toSafe (x : OutState) (safe : Nat) : OutState :=
  if safe = 2 then { x with pin := .z, highDue := false }
  else if safe = 1 then
    if x.pin = .high then { x with highDue := false } else { x with pin := .low, highDue := true }
  else { x with pin := .low, highDue := false }

/-- Store an output after an accounting event: wraps set AUDIT_WRAP, and the check of R247 is made. -/
def State.putOut (s : State) (o : Nat) (x : OutState) : State :=
  let old := s.out o
  let s := s.setOut o x
  let s := s.setBitIf (decide (x.commanded < old.commanded) || decide (x.emitted < old.emitted) ||
    decide (x.suppressed < old.suppressed)) (A.PG_STATUS (o / 4)) F.PG_STATUS_AUDIT_WRAP
  if x.commanded - x.emitted - x.suppressed = BitVec.ofNat 48 x.inProgress then s
  else (s.setBit (A.PG_STATUS (o / 4)) F.PG_STATUS_CONS_FAULT).raiseAlarm

/-- The force of a trip group, commanded at the end of rc `r`: a pulse that falls after `r` is suppressed, and the
output is held at its safe state (R156, R246). An output already held keeps its earlier force (R157). -/
def tripOutput (r o : Nat) (s : State) : State :=
  let x := s.out o
  if x.mode = .held then s
  else
    let at' := if x.mode = .tripped then x.forcedAt else r
    s.putOut o ({ x.suppress (fun i => i.fallsAfter r) with mode := .tripped, forcedAt := at' }.toSafe (s.safeOf o))

/-- The force of the outputs of group `g` after it latches in rc `r - 1`. -/
def tripOutputs (g r : Nat) (s : State) : State :=
  (List.range 192).foldl (fun s o => if s.tripGroupOf o = g then tripOutput r o s else s) s

/-- The pin of an output that the force drives: an output whose SAFE is 1 is driven low, high or not, and then waits for
the fixed delay (R158). -/
def OutState.forceSafe (x : OutState) (safe : Nat) : OutState :=
  if safe = 2 then { x with pin := .z, highDue := false } else { x with pin := .low, highDue := decide (safe = 1) }

/-- The global force of R158 on one output: it acts on an output that has left Z at output release. -/
def globalForce (o : Nat) (s : State) : State :=
  let x := s.out o
  if x.mode = .hiZ ∨ x.mode = .await ∨ x.mode = .held then s
  else s.setOut o ({ x with mode := .held, older := [], prev := none, cur := none }.forceSafe (s.safeOf o))

/-- A forced SAFE 1 output goes high: after its dead time under R156, or after the fixed delay of R158. -/
def safeHighDeadTime (o : Nat) (s : State) : State :=
  let x := s.out o
  if (decide (x.mode = .tripped) || decide (x.mode = .stopped)) && x.highDue then
    s.setOut o { x with pin := .high, highDue := false }
  else s

def safeHighForceDelay (o : Nat) (s : State) : State :=
  let x := s.out o
  if decide (x.mode = .held) && x.highDue then s.setOut o { x with pin := .high, highDue := false } else s

/-- 50 µs to 60 µs after detection a force-held output becomes high impedance (R467). -/
def forceHoldExpiry (o : Nat) (s : State) : State :=
  let x := s.out o
  if x.mode = .held then s.setOut o { x with mode := .hiZ, pin := .z, highDue := false } else s

end Sys2Proof.Machine
end

