-- ==== Sys2Proof/Machine/Quench.lean ====
section
/-! DEFINITION. Window comparators and Quench: requests, capture, trip groups, release (chapter 7). -/

namespace Sys2Proof.Machine

/-- A law engine that has run nothing. -/
def LawState.init : LawState :=
  { pc := 0, latches := [], freed := [], heat := none, ops := 0, began := 0, nextRc := 0, skip := false, wait := .none,
    shadows := [], closed := false, reenable := false }

/-! ### Comparators (R145 to R152) -/

def WcState.init : WcState := { above := false, below := false, seen := false, now := false, prev := false, undo := none }

def State.wc (s : State) (n : Nat) : WcState := mapGet (fun _ => WcState.init) s.wcs n
def State.setWc (s : State) (n : Nat) (w : WcState) : State := { s with wcs := mapInsert s.wcs n w }

/-- A comparator that is enabled and not yet READY holds its request raised (R148). -/
def State.wcHeld (s : State) (n : Nat) : Bool :=
  s.bit (A.WC_CTRL n) F.WC_CTRL_EN && !s.bit (A.WC_STATUS n) F.WC_STATUS_READY

/-- The comparator's own request under R146. -/
def State.wcOwn (s : State) (n : Nat) : Bool :=
  s.bit (A.WC_CTRL n) F.WC_CTRL_EN && s.bit (A.WC_STATUS n) F.WC_STATUS_READY &&
    (match s.fld (A.WC_CTRL n) F.WC_CTRL_MODE with
     | 0 => (s.wc n).above
     | 1 => (s.wc n).below
     | _ => (s.wc n).above || (s.wc n).below)

/-- Blanking signal `j` of group `g` is active in this rc (R245); a disabled group's signals are inactive (R150). -/
def State.blankActive (s : State) (g j : Nat) : Bool :=
  !s.bit (A.PG_STATUS g) F.PG_STATUS_DISABLED && decide (s.rc < (s.out (4 * g + j)).blankEnd)

/-- Comparator `n` is blanked in this rc (R150). -/
def State.wcBlanked (s : State) (n : Nat) : Bool :=
  let g := s.fld (A.WC_CTRL n) F.WC_CTRL_BLANK_PG
  decide (g < 48) &&
    (List.range 4).any (fun j => (s.fld (A.WC_CTRL n) F.WC_CTRL_BLANK_SEL).testBit j && s.blankActive g j)

/-- The unblanked request rises: TRIP and TRIP_COUNT (R151). -/
def countTrip (n : Nat) (s : State) : State :=
  (s.setBit (A.WC_STATUS n) F.WC_STATUS_TRIP).countEvent (A.WC_TRIP_COUNT n) (A.WC_STATUS n) F.WC_STATUS_COUNT_FULL

/-- STATUS and TRIP_COUNT of comparator `n`, as they stand before a rise is counted in this rc. -/
def State.tripWords (s : State) (n : Nat) : Word × Word := (s.reg (A.WC_STATUS n), s.reg (A.WC_TRIP_COUNT n))

/-- The capture latch takes the request if it is 1 in this rc and the rc is not blanked; a value that was 0 in the rc
before rises (R150, R151). -/
def capture (n : Nat) (s : State) : State :=
  let w := s.wc n
  if s.wcOwn n then
    let takes := !s.wcBlanked n
    let rises := takes && !w.now && !w.prev
    (s.setWc n { w with seen := true, now := w.now || takes, undo := if rises then some (s.tripWords n) else w.undo }).doIf rises
      (countTrip n)
  else s

/-- The capture of comparator `n` when time passes to rc `r`, the request and the windows being as they are: a request
that is still 1 in the first rc after its window is captured there (R150, R151, R466). -/
def captureAt (r n : Nat) (s : State) : State :=
  let w := s.wc n
  let own := s.wcOwn n
  let then' := { s with rc := r - 1 }
  let now' := { s with rc := r }
  let prev := if r = s.rc + 1 then w.now else own && !then'.wcBlanked n
  let now := own && !now'.wcBlanked n
  let undo := if now && !w.now && !prev then some (s.tripWords n) else none
  (s.setWc n { w with seen := own, now := now, prev := prev, undo := undo }).doIf (now && !w.now) (countTrip n)

/-- STALL of law engine `n` counts every rc of its wait before rc `r` that it has not counted (R216, R218, R223). -/
def lawStall (r n : Nat) (s : State) : State :=
  let x := mapGet (fun _ => LawState.init) s.laws n
  if x.wait = .none then s
  else { s.countEvents (A.LE_STALL n) (r - x.nextRc) (A.LE_STATUS n) F.LE_STATUS_COUNT_FULL with
           laws := mapInsert s.laws n { x with nextRc := max x.nextRc r } }

/-- What every rc that passes counts while the Runner domain runs: the waits of producers and of law engines. -/
def passWaits (r : Nat) (s : State) : State :=
  let s := (s.chans.map Prod.fst).foldl (fun s n => passChannel r n s) s
  (s.laws.map Prod.fst).foldl (fun s n => lawStall r n s) s

/-- Time passes up to rc `r`, if it is not there yet (log entry 6); the capture latches and the waits go with it. -/
def State.passTo (s : State) (r : Nat) : State :=
  if s.rc < r then
    (((s.wcs.map Prod.fst).foldl (fun s n => captureAt r n s) s).doIf s.runnerOn (passWaits r)).advanceTo r
  else s

/-- The producer of channel `n`, which waits, issues in the rc after the one at whose end its credit came back, at the earliest
(R185). -/
def State.passCredit (s : State) (n : Nat) : State :=
  match (s.chan n).stall with
  | none => s
  | some u => if (s.chan n).free = 0 then s else s.passTo u

/-- Every latch that its comparator feeds unblanked in this rc takes the request (R150). -/
def State.captureAll (s : State) : State := (s.wcs.map Prod.fst).foldl (fun s n => capture n s) s

/-- A rise of comparator `n` that was counted in this rc is no rise; a flag or a count that was cleared meanwhile stays clear. -/
def untrip (n : Nat) (s : State) : State :=
  match (s.wc n).undo with
  | none => s
  | some (status, count) =>
    let flags := fieldMask F.WC_STATUS_TRIP ||| fieldMask F.WC_STATUS_COUNT_FULL
    let s := s.setReg (A.WC_STATUS n) (s.reg (A.WC_STATUS n) &&& (status ||| ~~~flags))
    if s.reg (A.WC_TRIP_COUNT n) = 0 then s else s.setReg (A.WC_TRIP_COUNT n) count

/-- A window that begins in this rc: the latch takes nothing of a comparator that it blanks, and no rise is counted in the rc (R150,
R151). -/
def State.reblank (s : State) : State :=
  (s.wcs.map Prod.fst).foldl (fun s n =>
    if s.wcBlanked n then (untrip n s).setWc n { s.wc n with now := false, undo := none } else s) s

/-- The input crosses a threshold: ABOVE and BELOW take their new values, never 1 together (R145). -/
def comparatorCrossing (n : Nat) (above below : Bool) (s : State) : State :=
  if s.alive then capture n (s.setWc n { s.wc n with above := above && !below, below := below && !above }) else s

/-- 2 µs after commit the comparator is READY, and its held request drops (R148). -/
def comparatorReady (n : Nat) (s : State) : State :=
  if s.alive && s.wcHeld n then capture n (s.setBit (A.WC_STATUS n) F.WC_STATUS_READY) else s

/-- A write of WC_nn.THR: both codes are stored, or the write is refused whole unless HI is greater than LO as signed
codes (R149). -/
def thresholdWrite (n : Nat) (w : Word) (s : State) : State :=
  if signedOf 12 (fieldOf w F.WC_THR_LO) < signedOf 12 (fieldOf w F.WC_THR_HI) then s.setReg (A.WC_THR n) w
  else s.setBit (A.WC_STATUS n) F.WC_STATUS_CFG_REJECT

/-- A write of WC.RB_SEL: a new selection clears SETTLED, and the old one stays known; a reserved COMP is refused (R152, R16). -/
def rbSelWrite (w : Word) (s : State) : State :=
  let comp := fieldOf w F.WC_RB_SEL_COMP
  let dac := fieldOf w F.WC_RB_SEL_DAC
  let s := if fieldOf w F.WC_RB_SEL_CFG_REJECT = 1 then s.clrBit A.WC_RB_SEL F.WC_RB_SEL_CFG_REJECT else s
  let s' := s.setFld A.WC_RB_SEL F.WC_RB_SEL_DAC dac
  let s' := if comp < 96 then s'.setFld A.WC_RB_SEL F.WC_RB_SEL_COMP comp else s'.setBit A.WC_RB_SEL F.WC_RB_SEL_CFG_REJECT
  if s'.fld A.WC_RB_SEL F.WC_RB_SEL_COMP = s.fld A.WC_RB_SEL F.WC_RB_SEL_COMP ∧ dac = s.fld A.WC_RB_SEL F.WC_RB_SEL_DAC then s'
  else { s'.clrBit A.WC_RB_SEL F.WC_RB_SEL_SETTLED with rbFrom := some (s.reg A.WC_RB_SEL) }

/-- 2 µs after a selection change, or after commit, SETTLED reads 1 (R152). -/
def rbSettled (s : State) : State := s.setBitIf s.alive A.WC_RB_SEL F.WC_RB_SEL_SETTLED

/-! ### Requests (R153, R430, R466) -/

/-- The alarm of Twiast port `p` (R430). -/
def State.twAlarm (s : State) (p : Nat) : Bool :=
  let m := s.fld (A.TW_CTRL p) F.TW_CTRL_QMASK
  (m.testBit 0 && s.bit (A.TW_STATUS p) F.TW_STATUS_LINK_DOWN) ||
  (m.testBit 1 && s.bit (A.TW_STATUS p) F.TW_STATUS_RETRY_EXHAUSTED) ||
  (m.testBit 2 && s.bit (A.TW_STATUS p) F.TW_STATUS_CONFIG_MISMATCH) ||
  (m.testBit 3 && s.bit (A.TW_STATUS p) F.TW_STATUS_PARTNER_RESET) ||
  (m.testBit 4 && s.bit (A.TW_STATUS p) F.TW_STATUS_DEAD) ||
  (m.testBit 5 && s.bit A.TW_SYS_STATUS F.TW_SYS_STATUS_TIME_LOST) ||
  (m.testBit 6 && s.bit A.TW_SYS_STATUS F.TW_SYS_STATUS_HEAT_LATE)

/-- Request `i` is raised in this rc, before blanking: a comparator's own request has been 1 at some time in it
(R153, R466). -/
def State.requestRaised (s : State) (i : Nat) : Bool :=
  if i < 32 then s.bit (A.LE_STATUS i) F.LE_STATUS_LIMIT
  else if i < 40 then s.pairFault.getLsbD (i - 32)
  else if i < 44 then s.twAlarm (i - 40)
  else if i = 44 then s.alarm
  else if i = 45 then s.bit A.QUENCH_CTRL F.QUENCH_CTRL_SW_REQ
  else if i = 63 then s.coreHalted
  else if 64 ≤ i ∧ i < 160 then s.wcHeld (i - 64) || s.wcOwn (i - 64) || (s.wc (i - 64)).seen
  else false

/-- Request `i` is raised and unblanked in this rc: a comparator's in the rc after one in which the capture latch took it
(R466). -/
def State.requestUnblanked (s : State) (i : Nat) : Bool :=
  if i < 64 then s.requestRaised i else s.wcHeld (i - 64) || (s.wc (i - 64)).prev

/-- Group `g` takes request `i` (R154). -/
def State.takes (s : State) (g i : Nat) : Bool := (s.reg (A.QUENCH_IN g (i / 32))).getLsbD (i % 32)

/-- Some request that group `g` takes is raised, before blanking. -/
def State.groupRaised (s : State) (g : Nat) : Bool :=
  (List.range 160).any (fun i => s.takes g i && s.requestRaised i)

/-- The lowest-numbered raised and unblanked request that group `g` takes (R161). -/
def State.groupCause (s : State) (g : Nat) : Option Nat :=
  (List.range 160).find? (fun i => s.takes g i && s.requestUnblanked i)

/-- Output release has occurred. -/
def State.released (s : State) : Bool := s.bit A.BOOT_STATUS F.BOOT_STATUS_RELEASED

/-! ### Groups (R155 to R162) -/

/-- The notice payload of R162. -/
def noticePayload (g request : Nat) (time : Word) : Payload :=
  BitVec.ofNat 4 g ++ (0#4) ++ BitVec.ofNat 8 request ++ (0#16) ++ time

/-- Group `g` latches on `cause` in this rc: CAUSE, TIME and NEW, the force of its outputs at the end of the next rc, and
its notice (R155, R156, R161, R162, R164). -/
def groupLatch (g cause : Nat) (s : State) : State :=
  let s := s.setReg (A.QUENCH_CAUSE g) (putField (putField (s.reg (A.QUENCH_CAUSE g)) F.QUENCH_CAUSE_REQUEST cause)
    F.QUENCH_CAUSE_VALID 1)
  let s := s.setReg (A.QUENCH_TIME g) (s.timeBase.setWidth 32)
  let s := s.setBit A.QUENCH_STATUS F.QUENCH_STATUS_NEW
  let sticky := (List.range 32).any (fun i => s.takes g (32 + i) && s.requestRaised (32 + i))
  let s := s.setBitIf sticky (A.QUENCH_CAUSE g) F.QUENCH_CAUSE_STICKY
  let s := tripOutputs g (s.rc + 1) s
  if s.bit (A.QUENCH_GCFG g) F.QUENCH_GCFG_NOTICE then issueNotice g (noticePayload g cause (s.timeBase.setWidth 32)) s else s

/-- Group `g` sees its requests: it latches, or a latched group takes note of a system request (rules 3 and 6 of R155). -/
def groupCombine (g : Nat) (s : State) : State :=
  if s.latched g then
    s.setBitIf ((List.range 32).any (fun i => s.takes g (32 + i) && s.requestRaised (32 + i))) (A.QUENCH_CAUSE g)
      F.QUENCH_CAUSE_STICKY
  else
    match s.groupCause g with
    | some i => groupLatch g i s
    | none => s

/-- A comparator request that the latch took in this rc feeds Quench in the next one (R150). -/
def State.feedQuench (s : State) (i : Nat) : State :=
  if decide (64 ≤ i) && (s.wc (i - 64)).now && !(s.wc (i - 64)).prev then s.passTo (s.rc + 1) else s

/-- A request rises and is combined into every trip group that takes it; before output release no group latches
(R153, R155). -/
def quenchRequest (i : Nat) (s : State) : State :=
  let s := s.feedQuench i
  if s.alive && s.released then
    (List.range 16).foldl (fun s g => if s.takes g i then groupCombine g s else s) s
  else s

/-- At output release every group with a raised, unblanked request latches (rule 2 of R155). -/
def quenchArm (s : State) : State :=
  (List.range 16).foldl (fun s g => groupCombine g s) (s.setBit A.QUENCH_STATUS F.QUENCH_STATUS_ARMED)

/-- A group clears: VALID and STICKY clear, and the outputs return at their groups' next boundaries (R159, R161). -/
def groupClear (g : Nat) (s : State) : State :=
  (s.clrBit (A.QUENCH_CAUSE g) F.QUENCH_CAUSE_VALID).clrBit (A.QUENCH_CAUSE g) F.QUENCH_CAUSE_STICKY

/-- The rc before the next boundary of group `g`'s reference group, if that group has one and the rc is not past. -/
def State.testRc (s : State) (g : Nat) : Option Nat :=
  let ref := s.fld (A.QUENCH_GCFG g) F.QUENCH_GCFG_REF_PG
  (s.pgs.find? (fun e => decide (e.1 = ref))).bind (fun e =>
    e.2.next.bind (fun t => if s.rc < t / 64 then some (t / 64 - 1) else none))

/-- A CYCLE-mode group is tested in the rc before a boundary of its reference group: without a raised request it clears
itself at the end of that rc (rule 5 of R155). -/
def groupSelfClear (g : Nat) (s : State) : State :=
  if s.runnerOn && s.latched g && s.bit (A.QUENCH_GCFG g) F.QUENCH_GCFG_MODE then
    match s.testRc g with
    | none => s
    | some r =>
      let s := s.passTo r
      if !s.bit (A.QUENCH_CAUSE g) F.QUENCH_CAUSE_STICKY && !s.groupRaised g then groupClear g s else s
  else s

/-- A write to QUENCH.RELEASE decides each named latched group on its own (R159). -/
def quenchRelease (bits : BitVec 16) (s : State) : State :=
  (List.range 16).foldl (fun s g =>
    if bits.getLsbD g && s.latched g then
      if s.groupRaised g then s.setBit A.QUENCH_STATUS F.QUENCH_STATUS_RELEASE_REFUSED else groupClear g s
    else s) s

/-- A write to QUENCH.CTRL.SW_REQ. -/
def swReq (raise : Bool) (s : State) : State := s.putBit A.QUENCH_CTRL F.QUENCH_CTRL_SW_REQ raise

/-- A write to SW_REQ or RELEASE from a core in user mode is ignored and sets CFG_REJECT (R160). -/
def quenchRefuse (s : State) : State := s.setBit A.QUENCH_STATUS F.QUENCH_STATUS_CFG_REJECT

/-! ### What Quench shows (R155, R166) -/

/-- QUENCH.REQ_k. -/
def State.quenchReq (s : State) (k : Nat) : Word :=
  (List.range 32).foldl (fun w i => if s.requestRaised (32 * k + i) then w ||| BitVec.ofNat 32 (2 ^ i) else w) 0

/-- QUENCH.STATUS.TRIPPED. -/
def State.tripped (s : State) : Nat :=
  (List.range 16).foldl (fun w g => if (if s.released then s.latched g else s.groupRaised g) then w + 2 ^ g else w) 0

/-- QUENCH.FORCED_k. -/
def State.forcedBits (s : State) (k : Nat) : Word :=
  (List.range 32).foldl (fun w i =>
    if (s.out (32 * k + i)).mode = .tripped then w ||| BitVec.ofNat 32 (2 ^ i) else w) 0

end Sys2Proof.Machine
end

