-- ==== Sys2Proof/Machine/Pwm.lean ====
section
/-! DEFINITION. PWM groups: timeline, intervals, dead time, shadows, period events, blanking, pulse accounting, stopping
and restarting (chapter 11). Instants are in fine steps: fine step 64 × t is the first of rc t. -/

namespace Sys2Proof.Machine

/-! ### State access -/

def PgState.init : PgState :=
  { start := 0, len := 64000, uncut := 64000, next := none, phase := 0, dead := 0, restartAt := [], armed := 0,
    stopNext := false, holdNext := false, reenable := false, holdStop := false, orphan := false, wrapped := false,
    prevStart := 0, prevUncut := 0,
    sawForced := false, sawLate := false, sawResync := false }

def State.pg (s : State) (g : Nat) : PgState := mapGet (fun _ => PgState.init) s.pgs g
def State.setPg (s : State) (g : Nat) (p : PgState) : State := { s with pgs := mapInsert s.pgs g p }

def State.pgEn (s : State) (g : Nat) : Bool := s.bit (A.PG_CTRL g) F.PG_CTRL_EN
def State.pgRunning (s : State) (g : Nat) : Bool := s.bit (A.PG_STATUS g) F.PG_STATUS_RUNNING
def State.pgPending (s : State) (g : Nat) : Bool := s.bit (A.PG_STATUS g) F.PG_STATUS_DISABLE_PENDING
def State.pgDisabled (s : State) (g : Nat) : Bool := s.bit (A.PG_STATUS g) F.PG_STATUS_DISABLED
def State.heatRunning (s : State) : Bool := s.bit A.RUN_STATUS F.RUN_STATUS_HEAT_RUNNING

/-- The effective SYNC: 0 FREE, 1 FOLLOW, 2 HEAT; under heat source 2, SYNC 2 acts as SYNC 0 (R231). -/
def State.pgSync (s : State) (g : Nat) : Nat :=
  let m := s.fld (A.PG_CFG g) F.PG_CFG_SYNC
  if m = 2 ∧ s.fld A.RUN_HEAT_CFG F.RUN_HEAT_CFG_SRC = 2 then 0 else m

/-- The active PERIOD and PHASE. -/
def State.pgPeriod (s : State) (g : Nat) : Nat := (s.reg (A.PG_ACTIVE g 4)).toNat
def State.pgPhase (s : State) (g : Nat) : Nat := (s.reg (A.PG_ACTIVE g 5)).toNat

/-- The active PHASE within a period of `len` steps (R232). -/
def State.pgPhaseIn (s : State) (g len : Nat) : Nat := s.pgPhase g % max len 1

/-- Output `j` of a group is paired with its neighbour (R237). -/
def State.pgPaired (s : State) (g j : Nat) : Bool :=
  if j < 2 then s.bit (A.PG_CFG g) F.PG_CFG_PAIR_AB else s.bit (A.PG_CFG g) F.PG_CFG_PAIR_CD

/-- Output `j` is enabled (R238). -/
def State.pgOutEn (s : State) (g j : Nat) : Bool := (s.fld (A.PG_CFG g) F.PG_CFG_OUT_EN).testBit j

/-- The dead time, in fine steps, in front of a rise of output `j` (R237): none for an unpaired output. -/
def State.pgDead (s : State) (g j : Nat) : Nat :=
  if s.pgPaired g j then
    let n := fieldOf (s.pg g).dead (if j % 2 = 0 then F.PG_DEAD_DT_A else F.PG_DEAD_DT_B)
    if s.bit (A.PG_CFG g) F.PG_CFG_DT_UNIT then 64 * n else n
  else 0

/-! ### Intervals (R235, R236) -/

/-- The duty in fine steps for a period of `p` steps, and whether the clamp changed it. -/
def dutySteps (dfmt : Bool) (duty : Word) (p : Nat) : Nat × Bool :=
  let x := if dfmt then roundHalfUp (duty.toInt * p) (2 ^ 31) else duty.toInt
  let d := clampInt 0 p x
  (d.toNat, decide (d ≠ x))

/-- The rising and falling instants of duty `d` in the period from `t` of `p` steps, by ALIGN. -/
def alignInterval (align t p d : Nat) : Nat × Nat :=
  match align with
  | 0 => (t, t + d)
  | 1 => (t + (p - d) / 2, t + (p - d) / 2 + d)
  | _ => (t + (p - d), t + p)

/-- The start of output `j`'s own period within a period from `t` of `p` steps: CD_OFS shifts C and D (R236). -/
def State.pgShift (s : State) (g j t p : Nat) : Nat :=
  if j < 2 then t else t + p * s.fld (A.PG_CFG g) F.PG_CFG_CD_OFS / 4

/-- The instants of output `j` for the period from `t` of `p` steps, with the active duty of now; a degenerate interval
has equal instants. The flag says that the clamp changed the duty. -/
def State.pgInstants (s : State) (g j t p : Nat) : (Nat × Nat) × Bool :=
  let r := dutySteps (s.bit (A.PG_CFG g) F.PG_CFG_DFMT) (s.reg (A.PG_ACTIVE g j)) p
  (alignInterval (s.fld (A.PG_CFG g) ⟨2 * j + 1, 2 * j⟩) (s.pgShift g j t p) p r.1, r.2)

/-- A fresh interval between two instants; none when they are equal. -/
def freshInterval (r : Nat × Nat) : Option Interval :=
  if r.1 < r.2 then some { rise := r.1, fall := some r.2, commanded := false, counted := false } else none

/-- An interval still matters at instant `t`: it has not ended there. -/
def Interval.beyond (i : Interval) (t : Nat) : Bool :=
  match i.fall with
  | none => true
  | some f => decide (t < f)

/-- The programmed rising instant of an interval whose rise the dead time `dt` delays, if it gives a pulse (R237). -/
def Interval.pulseAt (i : Interval) (dt : Nat) : Option Nat :=
  match i.fall with
  | none => some (i.rise + dt)
  | some f => if i.rise + dt < f then some (i.rise + dt) else none

/-- The ideal signal of a pair has no edge where interval `i` ends and `n` begins at once, so the output keeps the one
pulse of `i`: `i` has commanded its pulse, or was too short for its dead time (R235, R237, log entry 7). -/
def Interval.runsInto (i n : Interval) (dt : Nat) : Bool :=
  decide (i.fall = some n.rise) && (i.commanded || (i.pulseAt dt).isNone)

/-- The earlier and the present interval of a paired output as one, where the first runs into the second. -/
def OutState.joined (x : OutState) (dt : Nat) : Option OutState :=
  match x.prev, x.cur with
  | some i, some n => if i.runsInto n dt then some { x with prev := none, cur := some { i with fall := n.fall } } else none
  | _, _ => none

/-! ### Blanking (R245) -/

/-- The blanking length of output `j`, in rc. -/
def State.blankLen (s : State) (g j : Nat) : Nat := s.fld (A.PG_BLANK g) ⟨8 * j + 7, 8 * j⟩

/-- An edge of output `j` placed in rc `e` starts or extends its window. -/
def OutState.blank (x : OutState) (e len : Nat) : OutState :=
  if len = 0 then x else { x with blankEnd := max x.blankEnd (e + len) }

/-- Pulses in progress whose interval has ended by instant `t` are emitted; a driven ball goes low, unless a pulse rises
at `t`. -/
def OutState.endBy (x : OutState) (t len : Nat) (rises : Bool) : OutState :=
  let y := x.emit (fun i => !i.beyond t)
  if x.hits (fun i => !i.beyond t) ≠ 0 ∧ x.mode = .driven ∧ !rises then { y with pin := .low }.blank (t / 64) len else y

/-- An interval at its period's end: one that has ended gives no pulse any more (R243). -/
def Interval.past (i : Interval) (t : Nat) : Interval :=
  if i.beyond t then i else { i with commanded := true, counted := true }

/-- A new period starts at instant `t`: the intervals of earlier periods that last beyond it stay, and so does that of the
period just ended, in which a shifted output may still be (R236, R243). -/
def OutState.rollover (x : OutState) (t : Nat) : OutState :=
  { x with older := (x.prev.toList ++ x.older).filter (fun i => i.beyond t), prev := x.cur.map (fun i => i.past t), cur := none }

/-- An output takes the interval `new` of the period from `t`. -/
def OutState.takes (x : OutState) (t dt len : Nat) (paired : Bool) (new : Option Interval) : OutState :=
  match x.cur, new with
  | some i, some n =>
    if paired && (decide (n.rise = t) && i.runsInto n dt) then
      let y := x.emit (fun k => decide (k ≠ i) && !k.beyond t)
      { y with older := (y.prev.toList ++ y.older).filter (fun k => k.beyond t), prev := none, cur := some { i with fall := n.fall } }
    else { (x.endBy t len (decide (n.pulseAt dt = some t))).rollover t with cur := new }
  | _, some n => { (x.endBy t len (decide (n.pulseAt dt = some t))).rollover t with cur := new }
  | _, none => (x.endBy t len false).rollover t

/-- The complementary output's intervals after its partner's interval of this period changed from `was` to `now`: it is
high from each fall of the partner to the partner's next rise (R237). -/
def complementOfPair (was now : Option Interval) (b : OutState) : OutState :=
  match was, now with
  | none, some a =>
    let fresh : Option Interval := a.fall.map (fun f => { rise := f, fall := none, commanded := false, counted := false })
    { b with older := b.prev.toList ++ b.older, prev := b.cur.map (fun i => { i with fall := some a.rise }), cur := fresh }
  | some _, some a =>
    { b with prev := b.prev.map (fun i => { i with fall := some a.rise }),
             cur := b.cur.map (fun i => { i with rise := a.fall.getD i.rise }) }
  | some _, none =>
    { b with cur := b.prev.map (fun i => { i with fall := none }), prev := b.older.head?, older := b.older.tail }
  | none, none => b

/-- The same after a change of the partner's interval of the period before, whose interval of this period is `cur`. -/
def complementOfEarlier (was now cur : Option Interval) (b : OutState) : OutState :=
  match cur with
  | none => complementOfPair was now b
  | some c =>
    let r := complementOfPair was now { b with older := b.older.tail, prev := b.older.head?, cur := b.prev }
    { r with older := r.prev.toList ++ r.older, prev := r.cur.map (fun i => { i with fall := some c.rise }), cur := b.cur }

/-- Place the interval of output `j` for the period from `t` of `p` steps. -/
def placeOutput (g j t p : Nat) (s : State) : State :=
  if s.pgPaired g j && decide (j % 2 = 1) then s
  else
    let r := s.pgInstants g j t p
    let new := freshInterval r.1
    let x := (s.out (4 * g + j)).takes t (s.pgDead g j) (s.blankLen g j) (s.pgPaired g j) new
    let s := (s.setBitIf r.2 (A.PG_STATUS g) F.PG_STATUS_DUTY_CLAMP).putOut (4 * g + j) x
    if s.pgPaired g j then
      let b := (s.out (4 * g + j + 1)).endBy t (s.blankLen g (j + 1)) false
      s.putOut (4 * g + j + 1) (complementOfPair none new { b with older := b.older.filter (fun i => i.beyond t) })
    else s

/-- Place all four outputs. -/
def placeOutputs (g t p : Nat) (s : State) : State :=
  (List.range 4).foldl (fun s j => placeOutput g j t p s) s

/-! ### Late edges (R243) -/

/-- An interval that has not begun takes its new instants, moved to `lim` where the rise lies before it. -/
def retimeNew (lim : Nat) (r : Nat × Nat) : Option Interval × Nat :=
  if r.2 ≤ r.1 ∨ r.2 < lim then (none, 0)
  else if r.1 < lim then (some { rise := lim, fall := some r.2, commanded := false, counted := false }, 1)
  else (freshInterval r, 0)

/-- The interval that `old` becomes when its instants become `r` at the end of the rc before instant `lim`, and how many
edges move to `lim`. -/
def retime (old : Option Interval) (r : Nat × Nat) (lim : Nat) : Option Interval × Nat :=
  match old with
  | some i =>
    match i.fall with
    | none => (old, 0)
    | some f =>
      if lim ≤ i.rise then retimeNew lim r else if f < lim then (old, 0)
      else if r.2 < lim then (some { i with fall := some lim }, 1) else (some { i with fall := some r.2 }, 0)
  | none => retimeNew lim r

/-- What a cut at instant `r` leaves of an interval: it ends there at the latest, and one that would begin later is not there
(R233, R236). -/
def Interval.cutAt (r : Nat) (i : Interval) : Option Interval :=
  if r ≤ i.rise then none
  else some { i with fall := some (match i.fall with
                                    | some f => min f r
                                    | none => r) }

/-- The instant at which the period in progress of a HEAT group is cut, if it is (R233). -/
def State.pgCut (s : State) (g : Nat) : Option Nat :=
  let p := s.pg g
  if s.pgSync g = 2 ∧ p.len < p.uncut then p.next else none

/-- The period before the one in progress of a HEAT group was cut: every interval that began in it has ended, and no other begins
(R233, R236). -/
def State.pgWasCut (s : State) (g : Nat) : Bool :=
  let p := s.pg g
  decide (s.pgSync g = 2) && decide (p.start < p.prevStart + p.prevUncut)

/-- An interval that a cut of the period in progress shortens (R233). -/
def State.withinCut (s : State) (g : Nat) (i : Option Interval) : Option Interval :=
  match s.pgCut g with
  | some r => i.bind (Interval.cutAt r)
  | none => i

/-- Count `k` late edges of group `g`. -/
def countLate (g : Nat) : Nat → State → State
  | 0, s => s
  | k + 1, s =>
    countLate g k (((s.countEvent (A.PG_LATE_EDGES g) (A.PG_STATUS g) F.PG_STATUS_COUNT_FULL).setBit (A.PG_STATUS g)
      F.PG_STATUS_LATE).setPg g { s.pg g with sawLate := true })

/-- A new duty of output `j` takes effect in the rc after this one. -/
def retimeOutput (g j : Nat) (s : State) : State :=
  if s.pgPaired g j && decide (j % 2 = 1) then s
  else
    let p := s.pg g
    let x := s.out (4 * g + j)
    let lim := 64 * (s.rc + 1)
    let r := s.pgInstants g j p.start p.uncut
    let now := retime x.cur r.1 lim
    let cur := s.withinCut g now.1
    let early := decide (2 ≤ j) && decide (p.prevUncut ≠ 0) && !s.pgWasCut g && decide (lim ≤ s.pgShift g j p.start p.uncut)
    let q := s.pgInstants g j p.prevStart p.prevUncut
    let old := if early then retime x.prev q.1 lim else (x.prev, 0)
    let prev := s.withinCut g old.1
    let s := (s.setBitIf (r.2 || (early && q.2)) (A.PG_STATUS g) F.PG_STATUS_DUTY_CLAMP).putOut (4 * g + j) { x with prev := prev, cur := cur }
    let s := countLate g (now.2 + old.2) s
    if s.pgPaired g j then
      s.putOut (4 * g + j + 1) (complementOfEarlier x.prev prev cur (complementOfPair x.cur cur (s.out (4 * g + j + 1))))
    else s

/-! ### Shadows and active registers (R241, R242) -/

/-- The shadow register `r` of group `g`: DUTY_A to DUTY_D, PERIOD, PHASE. -/
def aShadow (g r : Nat) : Nat :=
  match r with
  | 4 => A.PG_PERIOD g
  | 5 => A.PG_PHASE g
  | _ => A.PG_DUTY g r

/-- The value is legal for shadow register `r` (R16, R255). -/
def shadowLegal (r v : Nat) : Bool :=
  match r with
  | 4 => decide (128 ≤ v) && decide (v ≤ 4194240)
  | 5 => decide (v ≤ 4194239)
  | _ => true

/-- An enabled law-engine target names shadow register `r` of group `g` (R217, R241). -/
def State.lawTargets (s : State) (g r : Nat) : Bool :=
  (List.range 32).any (fun n =>
    (List.range 16).any (fun t =>
      let w := s.reg (A.LE_TGT n t)
      decide (fieldOf w F.LE_TGT_EN = 1) && decide (fieldOf w F.LE_TGT_PG = g) && decide (fieldOf w F.LE_TGT_REG = r)))

/-- A value lands in a shadow register; a reserved PERIOD or PHASE is refused (R16, R241). -/
def shadowLand (g r : Nat) (v : Word) (s : State) : State :=
  if shadowLegal r v.toNat then s.setReg (aShadow g r) v else s.setBit (A.PG_STATUS g) F.PG_STATUS_CFG_REJECT

/-- A core's write to a shadow register: refused for a register that a law-engine target names (R241). -/
def shadowCoreWrite (g r : Nat) (v : Word) (s : State) : State :=
  if s.lawTargets g r then s.setBit (A.PG_STATUS g) F.PG_STATUS_CFG_REJECT else shadowLand g r v s

/-- A token at the shadow input of group `g` (R242). -/
def shadowToken (g : Nat) (payload : Payload) (s : State) : State :=
  let r := (payload >>> 48).toNat % 8
  if s.pgDisabled g then s
  else if 6 ≤ r then s.setBit (A.PG_STATUS g) F.PG_STATUS_CFG_REJECT
  else shadowCoreWrite g r (payload.setWidth 32) s

/-- Copy one shadow register to its active register; a duty of a running group is retimed. -/
def transferOne (g r : Nat) (s : State) : State :=
  let v := s.reg (aShadow g r)
  if s.reg (A.PG_ACTIVE g r) = v then s
  else
    let s := s.setReg (A.PG_ACTIVE g r) v
    if decide (r < 4) && s.pgRunning g then retimeOutput g r s else s

def transferDuties (g : Nat) (s : State) : State := (List.range 4).foldl (fun s r => transferOne g r s) s
def transferTiming (g : Nat) (s : State) : State := transferOne g 5 (transferOne g 4 s)

/-- At a transfer rc the active registers take their shadow values under the update policy (R241): `kind` says which
transfer rc this is. -/
def shadowTransfer (g : Nat) (kind : TransferKind) (s : State) : State :=
  if s.pgDisabled g then (if kind = .landed then transferTiming g (transferDuties g s) else s)
  else
    match s.fld (A.PG_CFG g) F.PG_CFG_UPDATE, kind with
    | 0, .landed => transferDuties g s
    | 0, .beforeBoundary => transferTiming g s
    | 1, .beforeBoundary => transferTiming g (transferDuties g s)
    | 2, .heat => if s.heatRunning then transferTiming g (transferDuties g s) else s
    | _, _ => s

/-! ### Pulses (R246) -/

/-- The interval gives a pulse that has not been commanded. -/
def Interval.waits (i : Interval) (dt : Nat) : Bool := !i.commanded && (i.pulseAt dt).isSome

/-- Pulses are commanded: after output release, in RUN or IDLE, while the group runs and the output is enabled. -/
def State.pulsesOn (s : State) (g j : Nat) : Bool :=
  s.alive && s.released && (decide (s.supply.power = .run) || decide (s.supply.power = .idle)) && s.pgRunning g &&
    s.pgOutEn g j && (decide ((s.out (4 * g + j)).mode = .driven) || decide ((s.out (4 * g + j)).mode = .tripped))

/-- The intervals of an output by place: 0 is that of this period, 1 that of the period before, and the older follow. -/
def OutState.slot (x : OutState) : Nat → Option Interval
  | 0 => x.cur
  | 1 => x.prev
  | k + 2 => x.older[k]?

def OutState.setSlot (x : OutState) (i : Interval) : Nat → OutState
  | 0 => { x with cur := some i }
  | 1 => { x with prev := some i }
  | k + 2 => { x with older := x.older.set k i }

/-- The places of an output's intervals, oldest first. -/
def OutState.places (x : OutState) : List Nat := (List.range (x.older.length + 2)).reverse

/-- Command the pulse of interval `i`, in place `k`, at its programmed instant `t`. -/
def commandPulse (o t : Nat) (i : Interval) (k : Nat) (s : State) : State :=
  let s := s.passTo (t / 64)
  let x := (s.out o).emit (fun k => !k.beyond t)
  let forced := decide (x.mode = .tripped) && (decide (x.forcedAt < t / 64) || i.fallsAfter x.forcedAt)
  let j := { i with commanded := true, counted := forced }
  let x := { x with commanded := x.commanded + 1, suppressed := x.suppressed + BitVec.ofNat 48 (bit01 forced) }
  let x := x.setSlot j k
  let x := if x.mode = .driven ∧ x.pin ≠ .high then { x with pin := .high }.blank (t / 64) (s.blankLen (o / 4) (o % 4)) else x
  (s.putOut o x).reblank

/-- An edge at instant `t` lies before the next boundary of group `g`; what lies at the boundary is the boundary's. -/
def State.beforeBoundary (s : State) (g t : Nat) : Bool :=
  match (s.pg g).next with
  | some n => decide (t < n)
  | none => true

/-- The oldest interval of an output whose pulse waits, its instant, and its place. -/
def OutState.waiting (x : OutState) (dt : Nat) : Option (Interval × Nat × Nat) :=
  x.places.findSome? (fun k =>
    (x.slot k).bind (fun i => if i.waits dt then (i.pulseAt dt).map (fun t => (i, t, k)) else none))

/-- At an output's rising instant a pulse is commanded (R246). -/
def pulseCommanded (o : Nat) (s : State) : State :=
  let g := o / 4
  let dt := s.pgDead g (o % 4)
  let x := s.out o
  let y := if s.pgPaired g (o % 4) then (x.joined dt).getD x else x
  match y.waiting dt with
  | some (i, t, k) => if s.pulsesOn g (o % 4) && s.beforeBoundary g t then commandPulse o t i k (s.setOut o y) else s
  | none => s

/-- An interval that begins exactly at instant `f`, so that the output stays high across it. -/
def OutState.joins (x : OutState) (f dt : Nat) : Bool :=
  (x.prev.map (fun i => decide (i.pulseAt dt = some f))).getD false ||
    (x.cur.map (fun i => decide (i.pulseAt dt = some f))).getD false

/-- End the pulse in progress whose falling instant is `f`. -/
def endPulse (o f : Nat) (s : State) : State :=
  let s := s.passTo (f / 64)
  let x := (s.out o).emit (fun i => decide (i.fall = some f))
  let x := if x.mode = .driven ∧ !x.joins f (s.pgDead (o / 4) (o % 4)) then
      { x with pin := .low }.blank (f / 64) (s.blankLen (o / 4) (o % 4)) else x
  (s.putOut o x).reblank

/-- The falling instant of the pulse in progress, if it is known, and the place of its interval. -/
def OutState.falling (x : OutState) : Option (Nat × Nat) :=
  x.places.findSome? (fun k => (x.slot k).bind (fun i => if i.running then i.fall.map (fun f => (f, k)) else none))

/-- At the falling instant a commanded pulse is counted as emitted (R246); the output of a pair whose ideal signal stays
high goes on. -/
def pulseEnd (o : Nat) (s : State) : State :=
  let g := o / 4
  let x := s.out o
  match x.falling with
  | some (f, k) =>
    if s.beforeBoundary g f then
      match (if k = 1 ∧ s.pgPaired g (o % 4) then x.joined (s.pgDead g (o % 4)) else none) with
      | some y => (s.passTo (f / 64)).setOut o y
      | none => endPulse o f s
    else s
  | none => s

/-! ### Boundaries (R230 to R234, R244, R248) -/

/-- What an output that returns to its ideal level at instant `t` keeps of the intervals that began before: a pulse still
to come, not one that rose while the output was held, whose ball stays low until it ends; the interval of a pair that a
duty of the whole period carried across the boundary begins afresh there (R235, R248, log entry 7). -/
def OutState.afresh (x : OutState) (t dt : Nat) (second : Bool) : OutState :=
  let gone := fun (i : Interval) => i.commanded || decide (i.rise + dt < t)
  { x with prev := x.prev.bind (fun i => if gone i && !i.running then none else some i),
           older := x.older.filter (fun i => !gone i || i.running),
           cur := x.cur.map (fun i =>
             if t ≤ i.rise ∨ i.running then i
             else if second then (if gone i then { i with commanded := true, counted := true } else i)
             else { rise := t, fall := i.fall, commanded := false, counted := false }) }

/-- At a boundary each output of the group that may return leaves its safe state, low until its next interval; an output
whose trip group is latched goes to or stays at its safe state; a disabled output is at high impedance (R238, R248, R70). -/
def returnOutput (g j e : Nat) (s : State) : State :=
  let o := 4 * g + j
  let x := s.out o
  if !s.released ∨ x.mode = .held then s
  else if s.latched (s.tripGroupOf o) then
    if x.mode = .await ∨ x.mode = .stopped ∨ x.mode = .hiZ then tripOutput s.rc o s else s
  else if !s.pgOutEn g j then s.setOut o { x with mode := .hiZ, pin := .z, highDue := false }
  else if x.mode = .driven then s
  else
    let y := x.afresh (s.pg g).start (s.pgDead g j) (s.pgPaired g j && decide (j % 2 = 1))
    s.setOut o ({ y with mode := .driven, pin := .low, highDue := false }.blank e (s.blankLen g j))

def returnOutputs (g e : Nat) (s : State) : State :=
  (List.range 4).foldl (fun s j => returnOutput g j e s) s

/-- Quench holds some output of group `g`. -/
def State.groupForced (s : State) (g : Nat) : Bool :=
  (List.range 4).any (fun j => decide ((s.out (4 * g + j)).mode = .tripped))

/-- The payload of a period event (R244). -/
def eventPayload (g : Nat) (forced late resync : Bool) (num : BitVec 16) (time : Word) : Payload :=
  BitVec.ofNat 8 g ++ (0#4) ++ BitVec.ofBool forced ++ BitVec.ofBool late ++ BitVec.ofBool resync ++ (0#1) ++ num ++ time

/-- The period event is issued, or withheld without credit (R244). -/
def periodEvent (g : Nat) (forced late resync : Bool) (s : State) : State :=
  if s.bit (A.PG_CTRL g) F.PG_CTRL_EVT_EN && s.pgEn g then
    match s.producerChannel (epPeriod g) with
    | none => s
    | some c =>
      let payload := eventPayload g forced late resync ((s.reg (A.PG_PERIODS g)).setWidth 16) (s.timeBase.setWidth 32)
      let r := s.offerOnce c payload
      if r.2 then r.1
      else (r.1.countEvent (A.PG_EVT_WITHHELD g) (A.PG_STATUS g) F.PG_STATUS_COUNT_FULL).setBit (A.PG_STATUS g)
        F.PG_STATUS_EVT_WITHHELD
  else s

/-- The groups that follow group `g`. -/
def State.followers (s : State) (g : Nat) : List Nat :=
  (List.range 48).filter (fun f => decide (s.fld (A.PG_CFG f) F.PG_CFG_SYNC = 1) &&
    decide (s.fld (A.PG_CFG f) F.PG_CFG_SYNC_PG = g) && decide (g < f))

/-- The master of group `f` starts a period of `len` steps at `t`: a waiting follower gets its first start, and a running
one ends its period at the matching start. One that ran on alone ends the period in progress at the first start of the
master, moved by PHASE, that does not shorten it and leaves it at least 128 steps: at this one, or, if the master keeps its
length, at a later one that the master's next starts confirm (R231, R234, R251). DESIGN CHOICE (log entry 81): where a HEAT
master's cut shortens the follower's period, an interval that has begun keeps its end beyond the boundary; R233 ends
intervals at the cut in the HEAT group only. DESIGN CHOICE (log entry 98): the intervals of a period that R234 lengthens keep the
places that its length before gave them; and where the master stops and starts again without reporting DISABLED (R250), the follower
starts a period at the instant it expected, and ends it at the master's new start plus PHASE. -/
def followStart (f t len : Nat) (s : State) : State :=
  let p := s.pg f
  if s.pgRunning f then
    let c := t + p.phase
    let need := max (p.start + p.uncut) (p.start + 128)
    if p.orphan then
      let c' := c + (need - c + max len 1 - 1) / max len 1 * max len 1
      s.setPg f { p with next := some c', len := c' - p.start, orphan := decide (c < need) }
    else if p.wrapped then s.setPg f { p with wrapped := false }
    else if p.start < c then s.setPg f { p with next := some c, len := c - p.start }
    else s
  else if (s.pgEn f && !s.pgPending f && !p.holdStop) && decide (p.next = none) && decide (p.armed ≤ t / 64) then
    s.setPg f { p with next := some (t + s.pgPhaseIn f len), phase := s.pgPhaseIn f len }
  else s

/-- The length of the period that starts now, before a cut, the phase then in effect, and whether that phase became
smaller (R231, R232); a follower without its master keeps the master's last length (R234). -/
def State.nextLength (s : State) (g : Nat) : Nat × Nat × Bool :=
  let p := s.pg g
  let sync := s.pgSync g
  let base := max (if sync = 1 then (s.pg (s.fld (A.PG_CFG g) F.PG_CFG_SYNC_PG)).len else s.pgPeriod g) 1
  let new := s.pgPhaseIn g base
  if sync = 2 then (base, new, false)
  else
    let old := if s.pgRunning g then p.phase % base else new
    (base + (new + base - old) % base, new, decide (new < old))

/-- A cut at instant `r` ends every interval that has begun, and removes those that have not (R233, R236). -/
def cutOutputs (g r : Nat) (s : State) : State :=
  (List.range 4).foldl (fun s j =>
    if s.pgPaired g j && decide (j % 2 = 1) then s
    else
      let x := s.out (4 * g + j)
      let now := x.cur.bind (Interval.cutAt r)
      let old := x.prev.bind (Interval.cutAt r)
      let s := s.setOut (4 * g + j) { x with older := x.older.filterMap (Interval.cutAt r), prev := old, cur := now }
      if s.pgPaired g j then
        s.setOut (4 * g + j + 1) (complementOfEarlier x.prev old now (complementOfPair x.cur now (s.out (4 * g + j + 1))))
      else s) s

/-- A period of group `g` starts at instant `t` (R230 to R236, R244, R248). -/
def startPeriod (g t : Nat) (s : State) : State :=
  let s := s.passTo (t / 64)
  let p := s.pg g
  let n := s.nextLength g
  let keep := p.restartAt.filter (fun r => decide (t < r))
  let cut := keep.head?.filter (fun r => decide (r < t + n.1))
  let finish := cut.getD (t + n.1)
  let forced := p.sawForced || s.groupForced g
  let late := p.sawLate
  let resync := p.sawResync
  let s := s.setPg g { p with start := t, len := finish - t, uncut := n.1, next := some finish, phase := n.2.1,
                              dead := s.reg (A.PG_DEAD g), restartAt := keep, wrapped := n.2.2 && s.pgRunning g, prevStart := p.start,
                              prevUncut := if s.pgRunning g then p.uncut else 0, sawForced := false, sawLate := false, sawResync := cut.isSome }
  let s := s.setBitIf cut.isSome (A.PG_STATUS g) F.PG_STATUS_RESYNC
  let s := placeOutputs g t n.1 (s.setBit (A.PG_STATUS g) F.PG_STATUS_RUNNING)
  let s := match cut with
    | some r => cutOutputs g r s
    | none => s
  let s := returnOutputs g (t / 64) s
  let s := s.setPg g { s.pg g with sawForced := s.groupForced g }
  let s := s.countWrap (A.PG_PERIODS g) F.PG_PERIODS_NUM
  let s := periodEvent g forced late resync s.reblank
  (s.followers g).foldl (fun s f => followStart f t (finish - t) s) s

/-- Group `g` is the reference group of heat source 2. -/
def State.heatRef (s : State) (g : Nat) : Bool :=
  decide (s.fld A.RUN_HEAT_CFG F.RUN_HEAT_CFG_SRC = 2) && decide (s.fld A.RUN_HEAT_CFG F.RUN_HEAT_CFG_REF_PG = g)

/-- The next boundary of the pending group `g` is its stop boundary: a heat has started since EN was written 0, heats are
not running, or it is the reference group of heat source 2 (R249). DESIGN CHOICE (log entry 99): R249 speaks of a group that runs; one
that still waits for its first period stops where that period was to start, or at once when no start is planned. -/
def State.pgStopsNext (s : State) (g : Nat) : Bool :=
  s.pgPending g && ((s.pg g).stopNext || !s.heatRunning || s.heatRef g || !s.pgRunning g)

/-- The restart instants with one more, `r`, in order (R233). -/
def PgState.restarts (p : PgState) (r : Nat) : List Nat :=
  p.restartAt.filter (fun x => decide (x < r)) ++ r :: p.restartAt.filter (fun x => decide (r < x))

/-- What a heat start in this rc does to group `g`: it fixes one more restart instant, and one that lies before the end of the period
in progress cuts it (R231, R233, R249). -/
def pgAtHeat (g : Nat) (s : State) : State :=
  let p := s.pg g
  let phase := s.pgPhaseIn g (s.pgPeriod g)
  let r := 64 * (s.rc + 1) + phase
  let p := if s.pgPending g then { p with stopNext := true } else p
  if s.pgSync g = 2 then
    if s.pgRunning g then
      if r < p.next.getD 0 then
        let s := s.setPg g { p with restartAt := p.restarts r, phase := phase, next := some r, len := r - p.start, sawResync := true }
        cutOutputs g r (s.setBit (A.PG_STATUS g) F.PG_STATUS_RESYNC)
      else s.setPg g { p with restartAt := p.restarts r, phase := phase }
    else if s.pgEn g && !p.holdStop && decide (p.armed ≤ s.rc) then
      s.setPg g (if p.next = none then { p with next := some r, phase := phase } else { p with restartAt := p.restarts r })
    else s.setPg g p
  else s.setPg g p

def pgsAtHeat (s : State) : State := (List.range 48).foldl (fun s g => pgAtHeat g s) s

/-! ### Enabling, stopping, HOLD (R249 to R252) -/

/-- Group `g` may start from rc `r` on (R231, R251): FREE at its PHASE in that rc; FOLLOW and HEAT wait for a start of their
master or a heat in that rc or later. -/
def pgArmAt (g r : Nat) (s : State) : State :=
  let phase := s.pgPhaseIn g (s.pgPeriod g)
  let next := if s.pgSync g = 0 then some (64 * r + phase) else none
  s.setPg g { s.pg g with next := next, phase := phase, restartAt := [], armed := r, stopNext := false, holdNext := false,
                          reenable := false, holdStop := false, orphan := false, wrapped := false, sawForced := false,
                          sawLate := false, sawResync := false }

/-- Group `g` starts again after an enable in this rc (R251). -/
def pgArm (g : Nat) (s : State) : State := pgArmAt g (s.rc + 1) s

/-- A write sets EN. -/
def pgEnable (g : Nat) (s : State) : State :=
  if s.pgPending g then (s.setBit (A.PG_CTRL g) F.PG_CTRL_EN).setPg g { s.pg g with reenable := true }
  else if s.pgDisabled g then
    pgArm g ((s.setBit (A.PG_CTRL g) F.PG_CTRL_EN).clrBit (A.PG_STATUS g) F.PG_STATUS_DISABLED)
  else s.setBit (A.PG_CTRL g) F.PG_CTRL_EN

/-- A write clears EN: the stop boundary is the first boundary at or after the next heat start, or the next boundary while
heats are not running and for the reference group of heat source 2 (R249). -/
def pgDisable (g : Nat) (s : State) : State :=
  if s.pgDisabled g then s.clrBit (A.PG_CTRL g) F.PG_CTRL_EN
  else
    ((s.clrBit (A.PG_CTRL g) F.PG_CTRL_EN).setBit (A.PG_STATUS g) F.PG_STATUS_DISABLE_PENDING).setPg g
      { s.pg g with stopNext := (s.pg g).stopNext || !s.heatRunning || s.heatRef g || (s.pg g).holdStop, reenable := false }

/-- One released output goes to its safe state at instant `t`, and a pulse that falls later is suppressed (R246, R250). -/
def stopOutput (t o : Nat) (s : State) : State :=
  let x := (s.out o).emit (fun i => !i.beyond t)
  let x := x.suppress (fun i => i.beyond t)
  let x := { x with older := [], prev := none, cur := none }
  if x.mode = .driven ∨ x.mode = .await then s.putOut o ({ x with mode := .stopped }.toSafe (s.safeOf o)) else s.putOut o x

/-- The timeline of group `g` stops at instant `t`. -/
def stopTimeline (g t : Nat) (s : State) : State :=
  let s := s.passTo (t / 64)
  let s := (List.range 4).foldl (fun s j => stopOutput t (4 * g + j) s) s
  (s.clrBit (A.PG_STATUS g) F.PG_STATUS_RUNNING).setPg g
    { s.pg g with next := none, restartAt := [], stopNext := false, holdNext := false }

/-- A FOLLOW group whose master reports DISABLED runs on alone (R234). -/
def orphanFollowers (g : Nat) (s : State) : State :=
  (s.followers g).foldl (fun s f =>
    if s.pgRunning f then (s.setPg f { s.pg f with orphan := true }).setBit (A.PG_STATUS f) F.PG_STATUS_MASTER_LOST else s) s

/-- A group that reports DISABLED: under heat source 2 its heats end (R196), its followers run on alone, and its shadow
input takes every token (R195). -/
def pgNowDisabled (g : Nat) (s : State) : State :=
  let s := s.setBit (A.PG_STATUS g) F.PG_STATUS_DISABLED
  let s := if s.heatRef g then s.clrBit A.RUN_STATUS F.RUN_STATUS_HEAT_RUNNING else s
  ((orphanFollowers g s).settleInto (epShadow g)).captureAll

/-- Group `g` stops for HOLD or DORMANT at its boundary at `t` (R252). -/
def pgHoldStop (g t : Nat) (s : State) : State :=
  let s := stopTimeline g t s
  s.setPg g { s.pg g with holdStop := true }

/-- On entry to HOLD or DORMANT a group stops at its next boundary, with EN left at 1, be it the start of its first period; the outputs
of one that waits for its master or for a heat go to their safe states at once (R51, R54, R252). -/
def pgHold (g : Nat) (s : State) : State :=
  let p := s.pg g
  if s.pgRunning g || p.next.isSome || s.pgPending g then s.setPg g { p with holdNext := true }
  else if s.pgEn g && !p.holdStop then pgHoldStop g (64 * s.rc) s
  else s

/-- The stop boundary (R250). -/
def stopBoundary (g : Nat) (s : State) : State :=
  let p := s.pg g
  if s.runnerOn && s.pgStopsNext g then
    let s := stopTimeline g (p.next.getD (64 * s.rc)) s
    let s := s.clrBit (A.PG_STATUS g) F.PG_STATUS_DISABLE_PENDING
    if p.reenable then (pgArm g s).doIf p.holdNext (pgHold g) else pgNowDisabled g s
  else s


/-- An entry to HOLD or DORMANT is abandoned, or left: every group with EN at 1 that has stopped restarts, and one that was
to stop, or to start, goes on; one whose stop is pending restarts after it (R250, R252). -/
def pgResume (g : Nat) (s : State) : State :=
  if s.pgRunning g || (s.pg g).next.isSome then s.setPg g { s.pg g with holdNext := false }
  else if s.pgEn g && !s.pgPending g then pgArm g s else s

/-- A PWM group's period starts (R230), or the group stops there for HOLD or DORMANT (R252). -/
def periodBoundary (g : Nat) (s : State) : State :=
  match (s.pg g).next with
  | some t =>
    if s.runnerOn && (s.pgEn g || s.pgPending g) && !s.pgStopsNext g then
      if (s.pg g).holdNext then pgHoldStop g t s else startPeriod g t s
    else s
  | none => s

/-- At output release each output waits at Z for its group's next boundary, and those of a disabled group go safe
(R92, R252); an output whose bit in OUT_EN is 0 stays at Z (R238). -/
def releaseOutputs (s : State) : State :=
  (List.range 192).foldl (fun s o =>
    let x := s.out o
    if !s.pgOutEn (o / 4) (o % 4) ∨ x.mode ≠ .hiZ then s
    else if s.pgDisabled (o / 4) then s.setOut o ({ x with mode := .stopped }.toSafe (s.safeOf o))
    else s.setOut o { x with mode := .await }) s

/-! ### The accounting copy and the delay stages (R240, R247) -/

def OutState.accCopy (x : OutState) : AccCopy :=
  { commanded := x.commanded, emitted := x.emitted, suppressed := x.suppressed, inProgress := decide (x.inProgress ≠ 0) }

def State.acc (s : State) (o : Nat) : AccCopy := mapGet (fun _ => OutState.init.accCopy) s.accs o

def accSnap (g : Nat) (s : State) : State :=
  ((List.range 4).foldl (fun (s : State) j =>
    { s with accs := mapInsert s.accs (4 * g + j) (s.out (4 * g + j)).accCopy }) s).setBit (A.PG_ACC_CTRL g) F.PG_ACC_CTRL_VALID

/-- A retrim of the delay stages: a trim that reaches the end of its range sets CAL_FAULT (R240). -/
def delayRetrim (rangeEnd : Bool) (s : State) : State :=
  if s.runnerOn then (s.setBit A.PG_CAL F.PG_CAL_LOCKED).setBitIf rangeEnd A.PG_CAL F.PG_CAL_CAL_FAULT else s

end Sys2Proof.Machine
end

