-- ==== Sys2Proof/Machine/Law.lean ====
section
/-! DEFINITION. Law engines and the Law Table: runs, operations, lookups, limit events, ports (chapter 10). -/

namespace Sys2Proof.Machine

/-! ### State access -/

def State.law (s : State) (n : Nat) : LawState := mapGet (fun _ => LawState.init) s.laws n
def State.setLaw (s : State) (n : Nat) (x : LawState) : State := { s with laws := mapInsert s.laws n x }

/-- State word S[w] of engine `n`. -/
def State.lawWord (s : State) (n w : Nat) : Cell := mapGet (fun _ => 0) s.lawWords (256 * n + w)
def State.setLawWord (s : State) (n w : Nat) (v : Cell) : State :=
  { s with lawWords := mapSet (fun _ => 0) s.lawWords (256 * n + w) v }

/-- Operation `i` of engine `n`'s program. -/
def State.lawOp (s : State) (n i : Nat) : BitVec 64 := mapGet (fun _ => 0) s.lawProg (1024 * n + i)

/-- Entry `i` of the Law Table. -/
def State.tableEntry (s : State) (i : Nat) : BitVec 48 := mapGet (fun _ => 0) s.lawTable i
def State.setTableEntry (s : State) (i : Nat) (v : BitVec 48) : State :=
  { s with lawTable := mapSet (fun _ => 0) s.lawTable i v }

def State.lawRunning (s : State) (n : Nat) : Bool := s.bit (A.LE_STATUS n) F.LE_STATUS_RUNNING
def State.lawPending (s : State) (n : Nat) : Bool := s.bit (A.LE_STATUS n) F.LE_STATUS_DISABLE_PENDING
def State.lawDisabled (s : State) (n : Nat) : Bool := s.bit (A.LE_STATUS n) F.LE_STATUS_DISABLED
def State.lawC (s : State) (n : Nat) : Bool := s.bit (A.LE_STATUS n) F.LE_STATUS_C

/-! ### Operation fields (R207) -/

def opE (w : BitVec 64) : Bool := w.getLsbD 40
def opCode (w : BitVec 64) : Nat := (w >>> 32).toNat % 256
def opD (w : BitVec 64) : Nat := (w >>> 24).toNat % 256
def opA (w : BitVec 64) : Nat := (w >>> 16).toNat % 256
def opB (w : BitVec 64) : Nat := (w >>> 8).toNat % 256
def opX (w : BitVec 64) : Nat := w.toNat % 256
def opImm (w : BitVec 64) : Int := signedOf 16 ((w >>> 8).toNat % 65536)
def opT (w : BitVec 64) : Nat := w.toNat % 1024

/-! ### Limit events, counters, results -/

/-- A limit event (R219). -/
def limitEvent (n cause code pc : Nat) (s : State) : State :=
  let s := if s.bit (A.LE_STATUS n) F.LE_STATUS_LIMIT then s
    else s.setReg (A.LE_LIMIT_INFO n)
      (fieldBits F.LE_LIMIT_INFO_PC pc ||| fieldBits F.LE_LIMIT_INFO_CODE code ||| fieldBits F.LE_LIMIT_INFO_CAUSE cause)
  s.setBit (A.LE_STATUS n) F.LE_STATUS_LIMIT

/-- An uncorrectable ECC event has been reported (R26). -/
def State.eccEvent (s : State) : State := { s with eccReported := true }

/-- One of the counters RUNS, LATE, STALL and DISCARDED. -/
def lawCount (n a : Nat) (s : State) : State := s.countEvent a (A.LE_STATUS n) F.LE_STATUS_COUNT_FULL

/-- Write a result to S[w], saturated (R204). -/
def lawPut (n w : Nat) (x : Int) (s : State) : State :=
  let v := satCell x
  (s.setLawWord n w (BitVec.ofInt 40 v)).setBitIf (decide (v ≠ x)) (A.LE_STATUS n) F.LE_STATUS_SAT

def lawSetC (n : Nat) (c : Bool) (s : State) : State := s.putBit (A.LE_STATUS n) F.LE_STATUS_C c

/-! ### Runs (R213 to R216) -/

/-- The disable point of R226: from then on no trigger is dispatched and pending triggers are dropped. -/
def lawClose (n : Nat) (s : State) : State :=
  let x := s.law n
  s.setLaw n { x with closed := true, heat := none,
                      latches := x.latches.filter (fun l => decide (s.fld (A.LE_PORT n l.port) F.LE_PORT_MODE ≠ 1)) }

/-- A disabling engine that is idle while heats are not running reaches its disable point (R226): tested wherever the point
matters, so heats that stop later count too. -/
def lawIdleClose (n : Nat) (s : State) : State :=
  if s.lawPending n && !s.heatRunning && !s.lawRunning n then lawClose n s else s

/-- The run ends: RUNS and RUNLEN (R216). -/
def endRun (n : Nat) (s : State) : State :=
  let last := min (s.rc - (s.law n).began + 1) 65535
  let s := s.setFld (A.LE_RUNLEN n) F.LE_RUNLEN_LAST last
  let s := if s.fld (A.LE_RUNLEN n) F.LE_RUNLEN_MAX < last then s.setFld (A.LE_RUNLEN n) F.LE_RUNLEN_MAX last else s
  let s := (lawCount n (A.LE_RUNS n) s).clrBit (A.LE_STATUS n) F.LE_STATUS_RUNNING
  lawIdleClose n (s.setLaw n { s.law n with wait := .none, nextRc := s.rc + 1 })

/-- What an operation does next: go on, branch, or wait. -/
inductive LawNext where
  | next
  | jump (t : Nat)
  | wait (w : LawWait)
deriving DecidableEq, Repr

/-- An operation has been executed: the run goes on at `pc`, or ends by E or END, or by MAX_OPS (R215). DESIGN CHOICE (log
entry 79): after slot 1,023 the PC wraps to slot 0. -/
def lawFinish (n : Nat) (w : BitVec 64) (pc : Nat) (s : State) : State :=
  let x := s.law n
  let ops := x.ops + 1
  let s := (s.setFld (A.LE_STATUS n) F.LE_STATUS_PC x.pc).setLaw n
    { x with pc := pc % 1024, ops := ops, nextRc := s.rc + 1, wait := .none }
  if opE w || decide (opCode w = 0) then endRun n s
  else if s.fld (A.LE_RUNCFG n) F.LE_RUNCFG_MAX_OPS ≤ ops then endRun n (limitEvent n 4 0 x.pc s)
  else s

/-- A corrected ECC error: repaired in place and counted; logged for a table entry (R224). -/
def lawCorrected (entry : Option Nat) (s : State) : State :=
  let s := s.countSat A.LT_ECC_COUNT F.LT_ECC_COUNT_COUNT
  match entry with
  | none => s.setBit A.LT_STATUS F.LT_STATUS_ECC_CORR
  | some e => (s.setBit A.LT_STATUS F.LT_STATUS_ECC_CORR).setReg A.LT_ECC_ADDR (fieldBits F.LT_ECC_ADDR_ENTRY e)

/-- An uncorrectable ECC error in a program slot or a state word ends the run with a limit event (R224). DESIGN CHOICE (log
entry 80): the rc of the operation that is not executed counts in RUNLEN. -/
def lawEccEnd (n : Nat) (s : State) : State :=
  endRun n ((limitEvent n 5 0 (s.law n).pc s).eccEvent)

/-- The engine runs, does not wait, and its next operation has code `code`. -/
def State.lawAt (s : State) (n code : Nat) : Bool :=
  s.runnerOn && s.lawRunning n && decide ((s.law n).wait = .none) && decide (opCode (s.lawOp n (s.law n).pc) = code)

/-- The operation word with NOP for its code, and its E bit. -/
def asNop (w : BitVec 64) : BitVec 64 := (w &&& 0x10000000000) ||| 0x100000000

/-- An operation reads a state word (R207 to R209): END, NOP, LDI and TRIP read none, nor do SKIP and BR on conditions 0, 7
and 8. -/
def opReads (w : BitVec 64) : Bool :=
  match opCode w with
  | 0x00 | 0x01 | 0x03 | 0x11 => false
  | 0x12 | 0x13 => decide (1 ≤ opD w) && decide (opD w ≤ 6)
  | _ => true

/-- Execute one operation whose effect is `body`, which gets the operation word; a skipped operation executes as NOP, and
its E bit still ends the run (R208, R209, R210). -/
def lawExec (n : Nat) (body : BitVec 64 → State → State × LawNext) (s : State) : State :=
  let x := s.law n
  let w := s.lawOp n x.pc
  let s := s.setFld (A.LE_STATUS n) F.LE_STATUS_PC x.pc
  if x.skip then lawFinish n (asNop w) (x.pc + 1) (s.setLaw n { x with skip := false })
  else
    let r := body w s
    match r.2 with
    | .next => lawFinish n w (x.pc + 1) r.1
    | .jump t => lawFinish n w t r.1
    | .wait k => lawStall (r.1.rc + 1) n (r.1.setLaw n { r.1.law n with wait := k })

/-- One law operation with code `code`, in the rc in which the engine may execute it. -/
def lawOperation (n code : Nat) (ecc : LawEcc) (body : BitVec 64 → State → State × LawNext) (s : State) : State :=
  if s.lawAt n code then
    let s := s.passTo (s.law n).nextRc
    match ecc with
    | .program => lawEccEnd n s
    | .word =>
      if opReads (s.lawOp n (s.law n).pc) && !(s.law n).skip then lawEccEnd n (s.setFld (A.LE_STATUS n) F.LE_STATUS_PC (s.law n).pc)
      else lawExec n body s
    | .corrected => lawExec n body (lawCorrected none s)
    | .none => lawExec n body s
  else s

/-- An operation that only writes S[D], as a number. -/
def lawWrite (n : Nat) (f : BitVec 64 → State → Int) (w : BitVec 64) (s : State) : State × LawNext :=
  (lawPut n (opD w) (f w s) s, .next)

/-- S[i] as a number. -/
def State.S (s : State) (n i : Nat) : Int := (s.lawWord n i).toInt

/-- The rounding mode of engine `n` (R205). -/
def State.lawRnd (s : State) (n : Nat) : Nat := s.fld (A.LE_CFG n) F.LE_CFG_RND

/-- round(S[A] × S[B] / 2^(31 − X)). -/
def State.lawProduct (s : State) (n : Nat) (w : BitVec 64) : Int :=
  roundShift (s.lawRnd n) (s.S n (opA w) * s.S n (opB w)) (31 - opX w % 32)

/-- The COND field of SKIP and BR (R209). -/
def State.lawCond (s : State) (n : Nat) (w : BitVec 64) : Bool :=
  let a := s.S n (opA w)
  match opD w with
  | 0 => true
  | 1 => decide (a = 0)
  | 2 => decide (a ≠ 0)
  | 3 => decide (a < 0)
  | 4 => decide (0 ≤ a)
  | 5 => decide (0 < a)
  | 6 => decide (a ≤ 0)
  | 7 => s.lawC n
  | _ => !s.lawC n

/-! ### The operations of R208 -/

def lawEnd (_ : Nat) (_ : BitVec 64) (s : State) : State × LawNext := (s, .next)
def lawNop (_ : Nat) (_ : BitVec 64) (s : State) : State × LawNext := (s, .next)
def lawMov (n : Nat) := lawWrite n (fun w s => s.S n (opA w))
def lawLdi (n : Nat) := lawWrite n (fun w _ => opImm w * 2 ^ (opX w % 32))
def lawAdd (n : Nat) := lawWrite n (fun w s => s.S n (opA w) + s.S n (opB w))
def lawSub (n : Nat) := lawWrite n (fun w s => s.S n (opA w) - s.S n (opB w))
def lawNeg (n : Nat) := lawWrite n (fun w s => -s.S n (opA w))
def lawAbs (n : Nat) := lawWrite n (fun w s => (s.S n (opA w)).natAbs)
def lawMin (n : Nat) := lawWrite n (fun w s => min (s.S n (opA w)) (s.S n (opB w)))
def lawMax (n : Nat) := lawWrite n (fun w s => max (s.S n (opA w)) (s.S n (opB w)))
def lawShl (n : Nat) := lawWrite n (fun w s => s.S n (opA w) * 2 ^ (opX w % 32))
def lawShr (n : Nat) := lawWrite n (fun w s => roundShift (s.lawRnd n) (s.S n (opA w)) (opX w % 32))
def lawMul (n : Nat) := lawWrite n (fun w s => s.lawProduct n w)
def lawMac (n : Nat) := lawWrite n (fun w s => s.S n (opD w) + s.lawProduct n w)
def lawMsu (n : Nat) := lawWrite n (fun w s => s.S n (opD w) - s.lawProduct n w)

/-- min(max(a, lo), hi). -/
def limit (a lo hi : Int) : Int := min (max a lo) hi

def lawLim (n : Nat) (w : BitVec 64) (s : State) : State × LawNext :=
  let a := s.S n (opA w)
  let v := limit a (s.S n (opB w)) (s.S n (opB w + 1))
  let c := decide (v ≠ a)
  let s := lawSetC n c (lawPut n (opD w) v s)
  (if c ∧ opX w % 2 = 1 then limitEvent n 3 0 (s.law n).pc s else s, .next)

def lawChk (n : Nat) (w : BitVec 64) (s : State) : State × LawNext :=
  let a := s.S n (opA w)
  (if a < s.S n (opB w) ∨ s.S n (opB w + 1) < a then limitEvent n 1 0 (s.law n).pc s else s, .next)

def lawTrip (n : Nat) (w : BitVec 64) (s : State) : State × LawNext := (limitEvent n 2 (opX w) (s.law n).pc s, .next)

def lawSkip (n : Nat) (w : BitVec 64) (s : State) : State × LawNext :=
  (if s.lawCond n w then s.setLaw n { s.law n with skip := true } else s, .next)

def lawBr (n : Nat) (w : BitVec 64) (s : State) : State × LawNext :=
  (s, if s.lawCond n w then .jump (opT w) else .next)

def lawDjnz (n : Nat) (w : BitVec 64) (s : State) : State × LawNext :=
  let s := lawPut n (opD w) (s.S n (opD w) - 1) s
  (s, if s.S n (opD w) = 0 then .next else .jump (opT w))

def lawSelmin (n : Nat) (w : BitVec 64) (s : State) : State × LawNext :=
  if s.S n (opA w) < s.S n (opD w) then
    let a := s.lawWord n (opA w)
    let b := s.lawWord n (opB w)
    ((s.setLawWord n (opD w) a).setLawWord n (opD w + 1) b, .next)
  else (s, .next)

/-- WDUT: the value, clamped when X[0] = 1, goes to target D through the shadow port (R206, R217). -/
def lawWdut (n : Nat) (w : BitVec 64) (s : State) : State × LawNext :=
  let a := s.S n (opA w)
  let v := if opX w % 2 = 1 then limit a (s.S n (opB w)) (s.S n (opB w + 1)) else a
  let s := lawSetC n (decide (v ≠ a)) s
  let x := s.law n
  (s.setLaw n { x with shadows := x.shadows ++ [{ target := opD w % 16, value := BitVec.ofInt 32 (satWord v) }] }, .next)

/-- OUT: a token on an output port, waiting while its channel has no free credit (R206, R218). -/
def lawOut (n : Nat) (w : BitVec 64) (s : State) : State × LawNext :=
  match s.producerChannel (epLawOut n (opX w % 4)) with
  | none => (s, .next)
  | some c =>
    let lo := BitVec.ofInt 32 (satWord (s.S n (opA w)))
    let hi := BitVec.ofInt 32 (satWord (s.S n (opB w)))
    let r := s.offer c (hi ++ lo) false
    (r.1, if r.2 then .next else .wait .credit)

/-! ### Lookups (R221 to R224) -/

/-- The partition that slot `k` of engine `n` names. -/
def State.lawPart (s : State) (n k : Nat) : Nat :=
  s.fld (A.LE_CFG n) (if k = 0 then F.LE_CFG_PART0 else F.LE_CFG_PART1)

/-- The read port of partition `p`. -/
def State.partPort (s : State) (p : Nat) : Nat := s.fld (A.LT_PART_SIZE p) F.LT_PART_SIZE_PORT

/-- Port `p` has served in this rc already. -/
def State.portBusy (s : State) (p : Nat) : Bool := decide (mapGet (fun _ => 0) s.ports p = s.rc + 1)
def State.servePort (s : State) (p : Nat) : State := { s with ports := mapInsert s.ports p (s.rc + 1) }

/-- VALUE and SLOPE of an entry. -/
def entryValue (e : BitVec 48) : Int := (e.setWidth 32).toInt
def entrySlope (e : BitVec 48) : Int := ((e >>> 32).setWidth 16).toInt

/-- The index and the fraction of an interpolated lookup, and whether the argument was past an end (R222). -/
def lutIndex (arg origin : Int) (shift size : Nat) : Nat × Nat × Bool :=
  let r := arg - origin
  let idx := r / (2 ^ shift : Int)
  let frac := if 16 ≤ shift then (r / (2 ^ (shift - 16) : Int)) % 65536 else (r % (2 ^ shift : Int)) * 2 ^ (16 - shift)
  if idx < 0 then (0, 0, true)
  else if (size : Int) ≤ idx then (size - 1, 0, true)
  else (idx.toNat, frac.toNat, false)

/-- The index of a direct lookup. -/
def lutxIndex (arg : Int) (size : Nat) : Nat × Bool :=
  if arg < 0 then (0, true) else if (size : Int) ≤ arg then (size - 1, true) else (arg.toNat, false)

/-- An uncorrectable error in entry `i` of the table (R224). -/
def tableFatal (i : Nat) (s : State) : State :=
  ((s.setBit A.LT_STATUS F.LT_STATUS_ECC_FATAL).setReg A.LT_ECC_ADDR
    (fieldBits F.LT_ECC_ADDR_ENTRY i ||| fieldBits F.LT_ECC_ADDR_FATAL 1)).eccEvent

/-- What an ECC error does to the entry a lookup reads (R224). -/
def lookupEntry (n i : Nat) (ecc : TableEcc) (s : State) : BitVec 48 × State :=
  match ecc with
  | .none => (s.tableEntry i, s)
  | .corrected => (s.tableEntry i, lawCorrected (some i) s)
  | .fatal => (0, tableFatal i (limitEvent n 5 0 (s.law n).pc s))

/-- What the ECC reports for a word of a law engine's stores, or for entry `entry` of the table, that is read from outside: whether
it is good, and the state after the report (R224). -/
def lawStoreRead (entry : Option Nat) (ecc : WordEcc) (s : State) : Bool × State :=
  match ecc with
  | .none => (true, s)
  | .corrected => (true, lawCorrected entry s)
  | .uncorrectable => (false, match entry with | some i => tableFatal i s | none => s.eccEvent)

/-- The lookup of a LUT, when its port serves it. -/
def lutServed (n : Nat) (ecc : TableEcc) (w : BitVec 64) (s : State) : State :=
  let p := s.lawPart n (opX w % 2)
  let sc := A.LT_PART_SCALE p
  let t := lutIndex (s.S n (opA w)) (s.reg (A.LT_PART_ORIGIN p)).toInt (s.fld sc F.LT_PART_SCALE_SHIFT)
    (s.fld (A.LT_PART_SIZE p) F.LT_PART_SIZE_SIZE_M1 + 1)
  let e := lookupEntry n (s.fld (A.LT_PART_BASE p) F.LT_PART_BASE_BASE + t.1) ecc s
  let v := entryValue e.1 +
    roundShift (s.lawRnd n) (entrySlope e.1 * t.2.1 * 2 ^ s.fld sc F.LT_PART_SCALE_SLOPE_SHIFT) 16
  lawSetC n t.2.2 (lawPut n (opD w) v e.2)

/-- The lookup of a LUTX, when its port serves it. -/
def lutxServed (n : Nat) (ecc : TableEcc) (w : BitVec 64) (s : State) : State :=
  let p := s.lawPart n (opX w % 2)
  let t := lutxIndex (s.S n (opA w)) (s.fld (A.LT_PART_SIZE p) F.LT_PART_SIZE_SIZE_M1 + 1)
  let e := lookupEntry n (s.fld (A.LT_PART_BASE p) F.LT_PART_BASE_BASE + t.1) ecc s
  lawSetC n t.2 (lawPut n (opD w + 1) (entrySlope e.1) (lawPut n (opD w) (entryValue e.1) e.2))

/-- Engine `n`'s next operation is a lookup at read port `p`. -/
def State.nextLookup (s : State) (p n : Nat) : Bool :=
  let w := s.lawOp n (s.law n).pc
  s.lawRunning n && (decide (opCode w = 0x15) || decide (opCode w = 0x16)) &&
    decide (s.partPort (s.lawPart n (opX w % 2)) = p)

/-- Engine `n` waits for read port `p`. -/
def State.waitsFor (s : State) (p n : Nat) : Bool := s.nextLookup p n && decide ((s.law n).wait = .port)

/-- A lookup of engine `n` reaches read port `p` in this rc, or waits for it (R223). -/
def State.looksUp (s : State) (p n : Nat) : Bool :=
  s.nextLookup p n && (decide ((s.law n).wait = .port) ||
    (decide ((s.law n).wait = .none) && !(s.law n).skip && decide ((s.law n).nextRc ≤ s.rc)))

/-- The lookup of engine `n` is served in this rc if its port is free and no lower-numbered engine's lookup is at it, and
waits otherwise (R223). -/
def lookup (n : Nat) (served : BitVec 64 → State → State) (w : BitVec 64) (s : State) : State × LawNext :=
  let port := s.partPort (s.lawPart n (opX w % 2))
  if s.portBusy port || (List.range n).any (s.looksUp port) then (s, .wait .port) else (served w (s.servePort port), .next)

/-- Complete the waiting lookup of engine `n`. -/
def serveWaiting (n : Nat) (ecc : TableEcc) (s : State) : State :=
  let w := s.lawOp n (s.law n).pc
  let s := if opCode w = 0x15 then lutServed n ecc w s else lutxServed n ecc w s
  lawFinish n w ((s.law n).pc + 1) s

/-- The partition that holds an entry, if one does (R221). -/
def State.partOf (s : State) (entry : Nat) : Option Nat :=
  (List.range 32).find? (fun k =>
    let b := s.reg (A.LT_PART_BASE k)
    decide (fieldOf b F.LT_PART_BASE_EN = 1) && decide (fieldOf b F.LT_PART_BASE_BASE ≤ entry) &&
      decide (entry ≤ fieldOf b F.LT_PART_BASE_BASE + s.fld (A.LT_PART_SIZE k) F.LT_PART_SIZE_SIZE_M1))

/-- The port a core access to an entry uses: that of its partition, or port 0 (R223). -/
def State.entryPort (s : State) (entry : Nat) : Nat :=
  match s.partOf entry with
  | some k => s.partPort k
  | none => 0

/-- A core's store lands through its entry's port (R225). -/
def landStore (t : TableStore) (s : State) : State :=
  { (s.servePort (s.entryPort t.entry)).setTableEntry t.entry t.value with tableQ := s.tableQ.erase t }

/-- The oldest store of a core is the only one that may land: each reader's stores in the queue, in its order (R225). -/
def oldestStores (seen : List Nat) : List TableStore → List TableStore
  | [] => []
  | t :: ts => if seen.contains t.reader then oldestStores seen ts else t :: oldestStores (t.reader :: seen) ts

/-- The first core store that read port `p` may serve lands. DESIGN CHOICE (log entry 100): R223 does not order the accesses of several
cores that wait at one port; the store that came first lands first. -/
def landTableStore (p : Nat) (s : State) : State :=
  match (oldestStores [] s.tableQ).find? (fun t => decide (s.entryPort t.entry = p)) with
  | none => s
  | some t => landStore t s

/-- Read port `p` serves in an rc in which it has not served yet: the lowest-numbered engine whose lookup is at it, if that
engine waits; with no lookup at it, a core's store (R223). -/
def lookupServed (p : Nat) (ecc : TableEcc) (s : State) : State :=
  if s.alive then
    let s := if s.portBusy p then s.passTo (s.rc + 1) else s
    match (List.range 32).find? (s.looksUp p) with
    | none => landTableStore p s
    | some n => if s.waitsFor p n then serveWaiting n ecc (s.servePort p) else s
  else s

/-- Read port `p` serves the lookup of engine `n` that is at it: one that waits, or one whose rc has come (R223). -/
def serveAtPort (p n : Nat) (s : State) : State :=
  if s.waitsFor p n then serveWaiting n .none (s.servePort p)
  else if opCode (s.lawOp n (s.law n).pc) = 0x15 then lawOperation n 0x15 .none (lookup n (lutServed n .none)) s
  else lawOperation n 0x16 .none (lookup n (lutxServed n .none)) s

/-- A core access waits for an rc in which read port `p` has no lookup to serve and has served nothing: the lookups at the port are
served first, one in each rc (R223). -/
def awaitPort (p : Nat) : Nat → State → State
  | 0, s => s
  | k + 1, s =>
    if s.portBusy p then awaitPort p k (s.passTo (s.rc + 1))
    else
      match (List.range 32).find? (s.looksUp p) with
      | some n => awaitPort p k (serveAtPort p n s)
      | none => s

/-! ### Ports, triggers and dispatch (R211 to R216) -/

/-- A payload's low word as a state word. -/
def payloadCell (p : Payload) : Cell := (p.setWidth 32).signExtend 40

/-- A latch that was emptied in this rc is not ready in it (R212). -/
def LawState.freePort (x : LawState) (q rc : Nat) : LawState := { x with freed := mapInsert x.freed q (rc + 1) }

/-- Apply one UPDATE or INDEXED latch (R211). -/
def applyLatch (n : Nat) (l : Latch) (s : State) : State :=
  let r := s.reg (A.LE_PORT n l.port)
  let dest := fieldOf r F.LE_PORT_DEST
  if fieldOf r F.LE_PORT_MODE = 2 then s.setLawWord n dest (payloadCell l.payload)
  else
    let k := (l.payload >>> 40).toNat % 256
    if k < fieldOf r F.LE_PORT_LEN then s.setLawWord n (dest + k) (payloadCell l.payload)
    else s.setBit (A.LE_STATUS n) F.LE_STATUS_INDEX_REJECT

/-- The UPDATE and INDEXED latches of engine `n`, in port order. -/
def State.dataLatches (s : State) (n : Nat) : List Latch :=
  (List.range 4).filterMap (fun q =>
    if 2 ≤ s.fld (A.LE_PORT n q) F.LE_PORT_MODE then (s.law n).latches.find? (fun l => decide (l.port = q)) else none)

/-- Latch application in an idle rc, of the tokens accepted in earlier rc (R213). -/
def applyLatches (n : Nat) (s : State) : State :=
  let ls := (s.dataLatches n).filter (fun l => decide (l.since < s.rc))
  let s := ls.foldl (fun s l => applyLatch n l s) s
  let x := s.law n
  s.setLaw n (ls.foldl (fun x l => x.freePort l.port s.rc) { x with latches := x.latches.filter (fun l => !ls.contains l) })

/-- The latches of an idle engine are applied, in the rc after the acceptance of the first of them or later. -/
def latchApply (n : Nat) (s : State) : State :=
  if s.runnerOn && !s.lawRunning n && !s.lawDisabled n then
    match ((s.dataLatches n).map (fun l => l.since + 1)).min? with
    | none => s
    | some r => applyLatches n (s.passTo (max r (s.law n).nextRc))
  else s

/-- The triggers of engine `n` in the order of dispatch, the heat trigger and then ports 0 to 3, each with the first rc in
which it is pending (R215, R216). -/
def State.triggers (s : State) (n : Nat) : List (Nat × Option Latch) :=
  ((s.law n).heat.map (fun t => (t + 1, none))).toList ++
    (List.range 4).filterMap (fun q =>
      if s.fld (A.LE_PORT n q) F.LE_PORT_MODE = 1 then
        ((s.law n).latches.find? (fun l => decide (l.port = q))).map (fun l => (l.since + 1, some l))
      else none)

/-- Start a run at `entry`; its trigger could first have been dispatched in rc `earliest` (R210, R215, R216). -/
def startRun (n entry earliest : Nat) (s : State) : State :=
  let s := if earliest < s.rc then lawCount n (A.LE_LATE n) s else s
  let s := lawSetC n false (s.setBit (A.LE_STATUS n) F.LE_STATUS_RUNNING)
  s.setLaw n { s.law n with pc := entry, ops := 0, began := s.rc, nextRc := s.rc + 1, skip := false, wait := .none }

/-- Dispatch one trigger, first pending in rc `e`: the latches are applied, and then a port's payload is written (R213). -/
def dispatch (n e : Nat) (trigger : Option Latch) (s : State) : State :=
  let s := applyLatches n s
  match trigger with
  | none =>
    startRun n (s.fld (A.LE_RUNCFG n) F.LE_RUNCFG_HEAT_ENTRY) e (s.setLaw n { s.law n with heat := none })
  | some l =>
    let r := s.reg (A.LE_PORT n l.port)
    let s := s.setLawWord n (fieldOf r F.LE_PORT_DEST) (payloadCell l.payload)
    let x := s.law n
    startRun n (fieldOf r F.LE_PORT_ENTRY) e (s.setLaw n ({ x with latches := x.latches.erase l }.freePort l.port s.rc))

/-- An idle engine dispatches, in the first rc in which a trigger is pending and it is idle, the first trigger then pending
(R215); in step 7 of the boot none dispatches (R458). -/
def lawDispatch (n : Nat) (ecc : LawEcc) (s : State) : State :=
  let s := lawIdleClose n s
  if s.runnerOn && !s.bootTesting && !s.lawRunning n && !s.lawDisabled n && !(s.law n).closed then
    match ((s.triggers n).map Prod.fst).min? with
    | none => s
    | some r =>
      let s := s.passTo (max r (s.law n).nextRc)
      match (s.triggers n).find? (fun t => decide (t.1 ≤ s.rc)) with
      | none => s
      | some t => dispatch n t.1 t.2 (if ecc = .corrected then lawCorrected none s else s)
  else s

/-- Input port `q` is ready: its latch was empty at the start of the rc, or the engine discards (R212, R226). -/
def State.lawReady (s : State) (n q : Nat) : Bool :=
  let x := (lawIdleClose n s).law n
  x.closed || (!x.latches.any (fun l => decide (l.port = q)) && decide (mapGet (fun _ => 0) x.freed q ≠ s.rc + 1))

/-- Input port `q` accepts a token. -/
def lawAccept (n q : Nat) (payload : Payload) (s : State) : State :=
  let s := lawIdleClose n s
  if (s.law n).closed then lawCount n (A.LE_DISCARDED n) s
  else s.setLaw n { s.law n with latches := (s.law n).latches ++ [{ port := q, payload := payload, since := s.rc }] }

/-- A heat start makes a heat trigger pending, or is missed; it is also the disable point of a disabling engine
(R214, R226). -/
def lawAtHeat (n : Nat) (s : State) : State :=
  let s := if s.lawPending n then lawClose n s else s
  if s.bit (A.LE_RUNCFG n) F.LE_RUNCFG_HEAT_TRIG && !s.lawDisabled n && !(s.law n).closed then
    if (s.law n).heat.isSome then s.setBit (A.LE_STATUS n) F.LE_STATUS_HEAT_MISSED
    else s.setLaw n { s.law n with heat := some s.rc }
  else s

def lawsAtHeat (s : State) : State := (List.range 32).foldl (fun s n => lawAtHeat n s) s

/-- An OUT that waits for credit is tried again (R218). -/
def issueLaw (n q : Nat) (s : State) : State :=
  let x := s.law n
  let w := s.lawOp n x.pc
  if s.lawRunning n && decide (x.wait = .credit) && decide (opCode w = 0x19) && decide (opX w % 4 = q) then
    lawExec n (lawOut n) (s.passTo x.nextRc)
  else s

/-- The oldest shadow write of engine `n` lands, at the end of the second rc after its WDUT (R217). -/
def lawShadowLand (n : Nat) (s : State) : State :=
  match (s.law n).shadows with
  | [] => s
  | h :: rest =>
    let t := s.reg (A.LE_TGT n h.target)
    let s := s.setLaw n { s.law n with shadows := rest }
    shadowLand (fieldOf t F.LE_TGT_PG) (fieldOf t F.LE_TGT_REG) h.value s

/-! ### Disabling and enabling (R226, R227) -/

def lawDisable (n : Nat) (s : State) : State :=
  let s := s.clrBit (A.LE_CTRL n) F.LE_CTRL_EN
  if s.lawDisabled n then s
  else
    lawIdleClose n ((s.setBit (A.LE_STATUS n) F.LE_STATUS_DISABLE_PENDING).setLaw n { s.law n with reenable := false })

/-- An engine with nothing pending. -/
def LawState.emptied (x : LawState) : LawState :=
  { x with latches := [], heat := none, closed := false, reenable := false, wait := .none }

def lawDisabledNow (n : Nat) (s : State) : State :=
  let s := lawIdleClose n s
  let x := s.law n
  if s.lawPending n && x.closed && !s.lawRunning n && decide (x.shadows = []) then
    let s := s.clrBit (A.LE_STATUS n) F.LE_STATUS_DISABLE_PENDING
    if x.reenable then s.setLaw n x.emptied
    else
      (List.range 4).foldl (fun s q => s.settleInto (epLawIn n q)) (s.setBit (A.LE_STATUS n) F.LE_STATUS_DISABLED)
  else s

def lawEnable (n : Nat) (s : State) : State :=
  if s.lawPending n then (s.setBit (A.LE_CTRL n) F.LE_CTRL_EN).setLaw n { s.law n with reenable := true }
  else if s.lawDisabled n then
    ((s.setBit (A.LE_CTRL n) F.LE_CTRL_EN).clrBit (A.LE_STATUS n) F.LE_STATUS_DISABLED).setLaw n (s.law n).emptied
  else s.setBit (A.LE_CTRL n) F.LE_CTRL_EN

/-! ### State words and the table from a core (R220, R225) -/

def stateLoWrite (r : Nat) (v : Word) (s : State) : State := s.setReader r { s.reader r with stateLo := v }

def stateHiWrite (r n w : Nat) (v : Word) (s : State) : State :=
  s.setLawWord n w (v.setWidth 8 ++ (s.reader r).stateLo)

def stateLoRead (r n w : Nat) (s : State) : Word × State :=
  let x := s.lawWord n w
  (x.setWidth 32, s.setReader r { s.reader r with stateHi := (x >>> 32).setWidth 8 })

def tableLoWrite (r : Nat) (v : Word) (s : State) : State := s.setReader r { s.reader r with tableLo := v }

/-- A store to an entry's high word waits for its read port (R223). -/
def tableHiWrite (r i : Nat) (v : Word) (s : State) : State :=
  { s with tableQ := s.tableQ ++ [{ reader := r, entry := i, value := v.setWidth 16 ++ (s.reader r).tableLo }] }

/-- A reader's own stores land before its later load is served, in its order and each through its port (R223, R225). -/
def flushTable (r : Nat) (s : State) : State :=
  (s.tableQ.filter (fun t => decide (t.reader = r))).foldl (fun s t => landStore t (awaitPort (s.entryPort t.entry) 64 s)) s

/-- A load of an entry's low word, through its port. DESIGN CHOICE (log entry 100): it goes before the stores of other cores that wait
at the port. -/
def tableLoRead (r i : Nat) (s : State) : Word × State :=
  let s := flushTable r s
  let p := s.entryPort i
  let s := (awaitPort p 64 s).servePort p
  let e := s.tableEntry i
  (e.setWidth 32, s.setReader r { s.reader r with tableHi := (e >>> 32).setWidth 16 })

end Sys2Proof.Machine
end

