-- ==== Sys2Proof/Machine/Decim.lean ====
section
/-! DEFINITION. Modulators, bitstream inputs and decimators (chapter 6), and the calibration arithmetic that the
Survey bank shares (R129, R173). -/

namespace Sys2Proof.Machine

/-! ### State access -/

def DecState.init : DecState := { swift := PathState.init, fine := PathState.init }

def State.dec (s : State) (n : Nat) : DecState := mapGet (fun _ => DecState.init) s.decs n

/-- The swift path (`fine` false) or the fine path of decimator `n`. -/
def State.path (s : State) (n : Nat) (fine : Bool) : PathState := if fine then (s.dec n).fine else (s.dec n).swift

def State.setPath (s : State) (n : Nat) (fine : Bool) (p : PathState) : State :=
  { s with decs := mapInsert s.decs n (if fine then { s.dec n with fine := p } else { s.dec n with swift := p }) }

def StreamState.init : StreamState := { last := none, run := 0, lastViol := false, up := false }

def State.stream (s : State) (n : Nat) : StreamState := mapGet (fun _ => StreamState.init) s.streams n
def State.setStream (s : State) (n : Nat) (x : StreamState) : State := { s with streams := mapInsert s.streams n x }

/-- What a path keeps until a full reset, while it is switched off: its counters and the results it holds (R137). -/
def PathState.kept (p : PathState) : PathState :=
  { PathState.init with buf := p.buf, produced := p.produced, delivered := p.delivered }

/-! ### Streams (R116 to R124) -/

/-- The stream that decimator `n` takes. -/
def State.decSrc (s : State) (n : Nat) : Nat := s.fld (A.DEC_CFG n) F.DEC_CFG_SRC

/-- The RUNNING flag of stream `src`. -/
def State.streamRunning (s : State) (src : Nat) : Bool :=
  if src < 96 then s.bit (A.MD_STATUS src) F.MD_STATUS_RUNNING
  else if src < 160 then s.bit (A.XB_STATUS (src - 96)) F.XB_STATUS_RUNNING
  else false

/-- A path sees its stream down (R134). -/
def PathState.markDown (p : PathState) : PathState := { p with srcDown := true }

/-- Stream `src` goes up, or goes down, which every path on it sees. -/
def State.markStream (s : State) (src : Nat) (up : Bool) : State :=
  if up then s.setStream src { s.stream src with up := true }
  else { s with decs := s.decs.map (fun p =>
    if s.decSrc p.1 = src then (p.1, { swift := p.2.swift.markDown, fine := p.2.fine.markDown }) else p) }

/-- 1,600 mc after EN was set, the modulator runs (R116). -/
def modulatorRunning (n : Nat) (s : State) : State :=
  if s.runnerOn && s.bit (A.MD_CTRL n) F.MD_CTRL_EN && !s.bit (A.MD_STATUS n) F.MD_STATUS_RUNNING then
    (s.setBit (A.MD_STATUS n) F.MD_STATUS_RUNNING).markStream n true
  else s

/-- EN of a modulator was written 0. -/
def modulatorStopped (n : Nat) (s : State) : State :=
  (s.clrBit (A.MD_STATUS n) F.MD_STATUS_RUNNING).markStream n false

/-- The bitstream held one value for 24 mc (R117). -/
def overload (n : Nat) (s : State) : State :=
  s.setBitIf (s.runnerOn && s.bit (A.MD_STATUS n) F.MD_STATUS_RUNNING) (A.MD_STATUS n) F.MD_STATUS_OVERLOAD

/-- The rc of the first rising edge of XB_nn_CLK from now on: the count of mc is a multiple of DIV there (R119). DESIGN CHOICE (log
entry 95): the commit rc starts at an mc edge, so that mc edges are the starts of the even rc since commit. -/
def State.xbEdge (s : State) (n : Nat) : Nat :=
  let d := 2 * max 1 (s.fld (A.XB_CTRL n) F.XB_CTRL_DIV)
  (s.rc + d - 1) / d * d

/-- The first rising edge of XB_nn_CLK after EN was set (R119, R122). -/
def xbRunning (n : Nat) (s : State) : State :=
  if s.runnerOn && s.bit (A.XB_CTRL n) F.XB_CTRL_EN && !s.bit (A.XB_STATUS n) F.XB_STATUS_RUNNING then
    ((s.passTo (s.xbEdge n)).setBit (A.XB_STATUS n) F.XB_STATUS_RUNNING).markStream (96 + n) true
  else s

/-- XB_nn_CLK is high: mc counts from commit, each period of DIV mc starts with its high part, and an input enabled after
commit starts at a rising edge, from which on RUNNING is 1 (R119, R122). -/
def State.xbClockHigh (s : State) (n : Nat) : Bool :=
  let d := max 1 (s.fld (A.XB_CTRL n) F.XB_CTRL_DIV)
  s.bit (A.XB_STATUS n) F.XB_STATUS_RUNNING && decide (s.rc / 2 % d < (d + 1) / 2)

/-- EN of a bitstream input was written 0. -/
def xbStopped (n : Nat) (s : State) : State :=
  (s.clrBit (A.XB_STATUS n) F.XB_STATUS_RUNNING).markStream (96 + n) false

/-- The complement of the previous bit; +1 when there is none (R116, R121). -/
def complementOf : Option Bool → Bool
  | some b => !b
  | none => true

/-- The synchronised level `k` mc edges after the one that lies `back` mc edges before the cell's rising edge. -/
def edgeLevel (before levels : List Bool) (back k : Nat) : Bool :=
  if k < back then before.getD (back - 1 - k) (before.getLast?.getD (levels.headD false))
  else levels.getD (k - back) (levels.getLast?.getD (before.headD false))

/-- The first transition at the mc edges from `lo` to `hi`, counted as `edgeLevel` counts them: the level after it (R120). -/
def firstTransition (before levels : List Bool) (back lo hi : Nat) : Option Bool :=
  let level := edgeLevel before levels back
  (((List.range (hi + 1)).filter (fun k => decide (lo ≤ k))).find? (fun k => level k != level (k - 1))).map level

/-- What external input `n` decides of a cell: the level at DLY in clocked-data form, or the first transition of the window in
Manchester form, which begins before the cell's rising edge where DLY is below floor(D / 4); inverted under POL; none for a code
violation (R120, R121). -/
def State.xbDecide (s : State) (n : Nat) (before levels : List Bool) : Option Bool :=
  let dly := s.fld (A.XB_CTRL n) F.XB_CTRL_DLY
  let quarter := s.fld (A.XB_CTRL n) F.XB_CTRL_DIV / 4
  let back := quarter - dly + 1
  let pol := s.bit (A.XB_CTRL n) F.XB_CTRL_POL
  let bit := if s.bit (A.XB_CTRL n) F.XB_CTRL_FORM then
      firstTransition before levels back (dly + back - quarter) (dly + back + quarter)
    else some (edgeLevel before levels 0 dly)
  bit.map (fun b => xor b pol)

/-- The bit that stream `src` delivers for a cell, after the bit `last`, and whether the cell is a code violation. Idle cells
go on alternating from the last bit, +1 where there is none (log entry 76). -/
def State.cellBit (s : State) (src : Nat) (c : StreamCell) (last : Option Bool) : Bool × Bool :=
  let decided := fun before levels =>
    if src < 96 then some (edgeLevel before levels 0 0) else s.xbDecide (src - 96) before levels
  match c with
  | .idle => (complementOf last, false)
  | .level h => ((decided [h] []).getD (complementOf last), (decided [h] []).isNone)
  | .samples b l => ((decided b l).getD (complementOf last), (decided b l).isNone)

/-- The bits of a run of cells, oldest first. -/
def State.cellBits (s : State) (src : Nat) (last : Option Bool) : List StreamCell → List (Bool × Bool)
  | [] => []
  | c :: cs =>
    let b := s.cellBit src c last
    b :: s.cellBits src (some b.1) cs

/-- Two consecutive bits of a run, or the last one before it and its first, stand for violations (R121). -/
def lossIn : Bool → List (Bool × Bool) → Bool
  | _, [] => false
  | prev, b :: bs => (prev && b.2) || lossIn b.2 bs

/-- How many equal bits end with the last bit of a run, and the most that end with any of its bits. -/
def runsIn : Option Bool → Nat → List (Bool × Bool) → Nat × Nat
  | _, n, [] => (n, n)
  | last, n, b :: bs =>
    let k := if last = some b.1 then n + 1 else 1
    let r := runsIn (some b.1) k bs
    (r.1, max k r.2)

/-- Count `k` code violations of input `n` (R121). -/
def countViolations (n : Nat) : Nat → State → State
  | 0, s => s
  | k + 1, s =>
    let w := (s.reg (A.XB_VIOL_COUNT n)).toNat
    countViolations n k (if w < 0xFFFFFFFF then s.setReg (A.XB_VIOL_COUNT n) (BitVec.ofNat 32 (w + 1)) else s)

/-- The flags and the counter of a stream, from the bits it delivers: OVERLOAD of a modulator; VIOL, LOSS and STUCK of an
external input (R117, R121). -/
def streamFlags (src : Nat) (bits : List (Bool × Bool)) (s : State) : State :=
  let x := s.stream src
  let most := (runsIn x.last x.run bits).2
  if src < 96 then s.setBitIf (s.streamRunning src && decide (24 ≤ most)) (A.MD_STATUS src) F.MD_STATUS_OVERLOAD
  else
    let n := src - 96
    let k := (bits.filter (fun b => b.2)).length
    let s := countViolations n k s
    let s := s.setBitIf (decide (k ≠ 0)) (A.XB_STATUS n) F.XB_STATUS_VIOL
    let s := s.setBitIf (lossIn x.lastViol bits) (A.XB_STATUS n) F.XB_STATUS_LOSS
    s.setBitIf (!s.bit (A.XB_CTRL n) F.XB_CTRL_FORM && decide (64 ≤ most)) (A.XB_STATUS n) F.XB_STATUS_STUCK

/-- A path that takes input takes the bits of its stream; those within its start delay only report violations (R132, R134). -/
def PathState.feed (p : PathState) (bits : List (Bool × Bool)) : PathState :=
  if p.taking then
    { p with skip := p.skip - bits.length, viol := p.viol || (bits.take p.skip).any (fun b => b.2),
             queue := p.queue ++ bits.drop p.skip }
  else p

/-- Stream `src` delivers its next cells: while RUNNING stays 0 they are idle, whatever arrives. -/
def deliverCells (src : Nat) (cells : List StreamCell) (s : State) : State :=
  let x := s.stream src
  let dead := !x.up && !s.streamRunning src
  let cells := if dead then cells.map (fun _ => StreamCell.idle) else cells
  let bits := s.cellBits src x.last cells
  let s := streamFlags src bits s
  let x := { last := (bits.getLast?.map (·.1)).or x.last, run := (runsIn x.last x.run bits).1,
             lastViol := (bits.getLast?.map (·.2)).getD x.lastViol, up := s.streamRunning src }
  { s.setStream src x with decs := s.decs.map (fun p =>
    if s.decSrc p.1 = src then (p.1, { swift := p.2.swift.feed bits, fine := p.2.fine.feed bits }) else p) }

/-- Cells of an external input arrive, of which 64 equal bits in clocked-data form set STUCK (R121). -/
def stuck (n : Nat) (cells : List StreamCell) (s : State) : State :=
  if s.runnerOn then deliverCells (96 + n) cells s else s

/-! ### Filter arithmetic (R125, R127, R129) -/

/-- A bit as +1 or −1. -/
def bitVal (b : Bool) : Int := if b then 1 else -1

/-- The sums of every `n` neighbouring elements. -/
def movSum (n : Nat) (l : List Int) : List Int :=
  (List.range (l.length + 1 - n)).map (fun i => ((l.drop i).take n).foldl (· + ·) 0)

/-- Apply the moving sum `r` times: the numerators of a sinc filter of order `r`. -/
def sincOrder (n : Nat) : Nat → List Int → List Int
  | 0, l => l
  | r + 1, l => sincOrder n r (movSum n l)

/-- S of R125: the sum of the window's bits over the sinc³ impulse response. -/
def swiftSum (n : Nat) (window : List Bool) : Int :=
  match sincOrder n 3 (window.map bitVal) with
  | [] => 0
  | x :: _ => x

/-- VALUE of R125 from S and log2 N. -/
def swiftValue (log2n : Nat) (x : Int) : Word := BitVec.ofInt 32 (min (x * 2 ^ (31 - 3 * log2n)) 0x7FFFFFFF)

/-- The set of taps 0 to 31 that Config names sums to 2^19 with its mirror image, as R128 binds every set. -/
def firLegal : Bool :=
  decide ((List.range 31).foldl (fun (a : Int) k => a + 2 * (Config.firCoef k).toInt) (Config.firCoef 31).toInt = 2 ^ 19)

/-- Tap `k` from 0 to 31 as CONV.FIR_COEF_k holds it: of the set that Config names, or, should that set not sum to 2^19, of
one that does (R128, log entry 3). -/
def firCoef (k : Nat) : BitVec 20 :=
  if firLegal then Config.firCoef k else if k = 31 then 0x40000 else if k = 30 then 0x20000 else 0

/-- The taps of the FIR filter, in order (R128). -/
def firTap (k : Nat) : Int := (firCoef (if k ≤ 31 then k else 62 - k)).toInt

/-- Every `m`-th element, at most `k` of them. -/
def everyNth (m : Nat) : Nat → List Int → List Int
  | 0, _ => []
  | _, [] => []
  | k + 1, x :: xs => x :: everyNth m k ((x :: xs).drop m)

/-- RAW of R127 from the window of 67M − 4 bits. -/
def fineRaw (m : Nat) (window : List Bool) : Int :=
  let y := everyNth m 63 (sincOrder m 5 (window.map bitVal))
  let sum := (y.zip (List.range 63)).foldl (fun (a : Int) p => a + firTap p.2 * p.1) 0
  clampInt (-8388608) 8388607 (roundHalfUp (sum * 16) ((m : Int) ^ 5))

/-- The calibration of R129 (and R173): the 24-bit result, as bits [31:8] of VALUE. -/
def calibrate (raw offset gain : Int) : Int :=
  clampInt (-8388608) 8388607 (((raw - offset) * gain + 32768) / 65536)

/-- A 24-bit calibrated result in its 32-bit word. -/
def fineWord (fine : Int) : Word := BitVec.ofInt 32 (fine * 256)

/-- The magnitude of VALUE exceeds 0x6666_6666 (R134). -/
def overRange (v : Word) : Bool := decide (v.toInt > 0x66666666) || decide (v.toInt < -0x66666666)

/-! ### Results (R132 to R138) -/

/-- log2 of the swift ratio N, and the fine CIC ratio M. -/
def State.swiftLog (s : State) (n : Nat) : Nat := 2 + s.fld (A.DEC_CFG n) F.DEC_CFG_SWIFT_OSR
def State.fineM (s : State) (n : Nat) : Nat := 16 * 2 ^ s.fld (A.DEC_CFG n) F.DEC_CFG_FINE_OSR

/-- The bits between results, the bits before the first, and the length of the filter's window (R132). -/
def State.pathEvery (s : State) (n : Nat) (fine : Bool) : Nat := if fine then 2 * s.fineM n else 2 ^ s.swiftLog n
def State.pathFirst (s : State) (n : Nat) (fine : Bool) : Nat := if fine then 68 * s.fineM n else 3 * 2 ^ s.swiftLog n
def State.pathWindow (s : State) (n : Nat) (fine : Bool) : Nat := if fine then 67 * s.fineM n - 4 else 3 * 2 ^ s.swiftLog n - 2

/-- VALUE of a result from its window of bits. -/
def State.pathValue (s : State) (n : Nat) (fine : Bool) (window : List Bool) : Word :=
  if fine then
    fineWord (calibrate (fineRaw (s.fineM n) window)
      (signedOf 24 (s.fld (A.DEC_FINE_OFFSET n) F.DEC_FINE_OFFSET_OFFSET)) (s.fld (A.DEC_FINE_GAIN n) F.DEC_FINE_GAIN_GAIN))
  else swiftValue (s.swiftLog n) (swiftSum (2 ^ s.swiftLog n) window)

/-- The flags of a path, by path. -/
def fWithheld (fine : Bool) : Fld := if fine then F.DEC_STATUS_FINE_WITHHELD else F.DEC_STATUS_SWIFT_WITHHELD
def fDisabled (fine : Bool) : Fld := if fine then F.DEC_STATUS_FINE_DISABLED else F.DEC_STATUS_SWIFT_DISABLED
def fEnable (fine : Bool) : Fld := if fine then F.DEC_CTRL_FINE_EN else F.DEC_CTRL_SWIFT_EN
def aWithheld (n : Nat) (fine : Bool) : Nat := if fine then A.DEC_FINE_WITHHELD n else A.DEC_SWIFT_WITHHELD n
def aLast (n : Nat) (fine : Bool) : Nat := if fine then A.DEC_FINE_LAST n else A.DEC_SWIFT_LAST n
def pathEndpoint (n : Nat) (fine : Bool) : Nat := if fine then epFine n else epSwift n

/-- The check of R137. -/
def State.auditPath (s : State) (n : Nat) (fine : Bool) : State :=
  let p := s.path n fine
  if p.produced - p.delivered = BitVec.ofNat 48 p.buf.length then s
  else (s.setBit (A.DEC_STATUS n) F.DEC_STATUS_CONS_FAULT).raiseAlarm

/-- The payload of a result (R134). -/
def resultPayload (n : Nat) (fine down viol : Bool) (seq : BitVec 16) (v : Word) : Payload :=
  BitVec.ofNat 8 n ++ (0#4) ++ BitVec.ofBool down ++ BitVec.ofBool viol ++ BitVec.ofBool (overRange v) ++
    BitVec.ofBool fine ++ seq ++ v

/-- A filter output, of which `viol` says whether a violation occurred since the previous result: a result in the holding
buffer, or withheld when the buffer is full (R134, R135). -/
def pathOutput (n : Nat) (fine viol : Bool) (s : State) : State :=
  let p := s.path n fine
  let up := s.streamRunning (s.decSrc n)
  if 4 ≤ p.buf.length then
    (((s.setPath n fine { p with primed := true, viol := viol }).countEvent (aWithheld n fine) (A.DEC_STATUS n)
      F.DEC_STATUS_COUNT_FULL).setBit (A.DEC_STATUS n) (fWithheld fine)).auditPath n fine
  else
    let v := s.pathValue n fine (p.hist.reverse)
    let made := p.produced + 1
    let payload := resultPayload n fine (p.srcDown || !up) viol (made.setWidth 16) v
    let s := s.setPath n fine { p with primed := true, buf := p.buf ++ [payload], produced := made,
                                       srcDown := !up, viol := false }
    (s.setBitIf (wrapped made) (A.DEC_STATUS n) F.DEC_STATUS_AUDIT_WRAP).auditPath n fine

/-- A path stops taking input. -/
def PathState.stopped (p : PathState) : PathState := { p with taking := false, stopping := false, queue := [] }

/-- At a result boundary with no heats running, a path that was disabled stops taking input (R139). -/
def stopAtResult (n : Nat) (fine : Bool) (s : State) : State :=
  let p := s.path n fine
  if p.stopping && !s.bit A.RUN_STATUS F.RUN_STATUS_HEAT_RUNNING then
    s.setPath n fine p.stopped
  else s

/-- The next cells of the path's stream arrive, and the path forms its next result when the bits it has taken complete the
window (R125, R127, R132). Cells that arrived for another path of the stream need not arrive again. -/
def pathResult (n : Nat) (fine : Bool) (cells : List StreamCell) (s : State) : State :=
  if s.runnerOn then
    let s := deliverCells (s.decSrc n) cells s
    let p := s.path n fine
    let due := if p.primed then s.pathEvery n fine else s.pathFirst n fine
    if p.taking && decide (due ≤ p.queue.length) then
      let taken := p.queue.take due
      let bits := (taken.map (·.1)).reverse ++ p.hist
      let viol := p.viol || taken.any (fun b => b.2)
      let s := s.setPath n fine { p with queue := p.queue.drop due, hist := bits.take (s.pathWindow n fine) }
      stopAtResult n fine (pathOutput n fine viol s)
    else s
  else s

/-- The head of a path's holding buffer is offered to its channel (R135, R139). -/
def issuePath (n : Nat) (fine : Bool) (s : State) : State :=
  match (s.path n fine).buf with
  | [] => s
  | payload :: rest =>
    match s.producerChannel (pathEndpoint n fine) with
    | none => s
    | some c =>
      let r := s.offer c payload false
      if r.2 then
        let p := r.1.path n fine
        let made := p.delivered + 1
        let s := r.1.setPath n fine { p with buf := rest, delivered := made }
        let s := s.setReg (aLast n fine) (payload.setWidth 32)
        let s := s.setBitIf (overRange (payload.setWidth 32)) (A.DEC_STATUS n) F.DEC_STATUS_OVERRANGE
        (s.setBitIf (wrapped made) (A.DEC_STATUS n) F.DEC_STATUS_AUDIT_WRAP).auditPath n fine
      else r.1

/-! ### Starting and stopping a path (R132, R136, R139, R140) -/

/-- The mc from the rising edge that starts a cell of external input `n` to the entry of its bit (R120). -/
def State.entryDelay (s : State) (n : Nat) : Nat :=
  let quarter := if s.bit (A.XB_CTRL n) F.XB_CTRL_FORM then s.fld (A.XB_CTRL n) F.XB_CTRL_DIV / 4 else 0
  s.fld (A.XB_CTRL n) F.XB_CTRL_DLY + quarter + 1

/-- The bit entries of stream `src` that the start delay of decimator `n` lets pass, from this rc on: one in each mc of an
on-chip stream, and one in each DIV mc of an external one (R119, R132). -/
def State.startSkip (s : State) (n src : Nat) : Nat :=
  let delay := s.fld (A.DEC_CFG n) F.DEC_CFG_START_DLY
  if src < 96 then delay
  else
    let d := max 1 (s.fld (A.XB_CTRL (src - 96)) F.XB_CTRL_DIV)
    let mc := (s.rc + 1) / 2
    ((List.range delay).filter (fun k => decide ((mc + k) % d = s.entryDelay (src - 96) % d))).length

/-- The path starts with a cleared filter. -/
def startPath (n : Nat) (fine : Bool) (s : State) : State :=
  let p := s.path n fine
  let src := s.decSrc n
  (s.setPath n fine { p with taking := true, stopping := false, restart := false, primed := false,
                             skip := s.startSkip n src, queue := [], hist := [], srcDown := !s.streamRunning src,
                             viol := false }).clrBit (A.DEC_STATUS n) (fDisabled fine)

/-- A write sets the enable bit. -/
def pathStart (n : Nat) (fine : Bool) (s : State) : State :=
  if (s.producerChannel (pathEndpoint n fine)).isNone then s.setBit (A.DEC_STATUS n) F.DEC_STATUS_CFG_REJECT
  else
    let p := s.path n fine
    let s := s.setBit (A.DEC_CTRL n) (fEnable fine)
    if p.taking then s.setPath n fine { p with stopping := false }
    else if s.bit (A.DEC_STATUS n) (fDisabled fine) then startPath n fine s
    else s.setPath n fine { p with restart := true }

/-- A write clears the enable bit. -/
def pathDisable (n : Nat) (fine : Bool) (s : State) : State :=
  let p := s.path n fine
  (s.clrBit (A.DEC_CTRL n) (fEnable fine)).setPath n fine { p with stopping := p.taking, restart := false }

/-- A heat start stops every path that was disabled (R139). -/
def PathState.heat (p : PathState) : PathState := if p.stopping then p.stopped else p

def pathsAtHeat (s : State) : State :=
  { s with decs := s.decs.map (fun p => (p.1, { swift := p.2.swift.heat, fine := p.2.fine.heat })) }

/-- The drain is complete: DISABLED sets, or the path restarts (R139, R140). -/
def pathDisabled (n : Nat) (fine : Bool) (s : State) : State :=
  let p := s.path n fine
  if !p.taking && decide (p.buf = []) && !s.bit (A.DEC_STATUS n) (fDisabled fine) then
    if p.restart then startPath n fine s else s.setBit (A.DEC_STATUS n) (fDisabled fine)
  else s

/-- The snapshot of R138. -/
def decSnap (n : Nat) (s : State) : State :=
  let d := s.dec n
  let s := s.setReg (A.DEC_SNAP_SP_LO n) (d.swift.produced.setWidth 32)
  let s := s.setReg (A.DEC_SNAP_SD_LO n) (d.swift.delivered.setWidth 32)
  let s := s.setReg (A.DEC_SNAP_FP_LO n) (d.fine.produced.setWidth 32)
  let s := s.setReg (A.DEC_SNAP_FD_LO n) (d.fine.delivered.setWidth 32)
  let s := s.setReg (A.DEC_SNAP_S_HI n) ((d.swift.delivered >>> 32).setWidth 16 ++ (d.swift.produced >>> 32).setWidth 16)
  let s := s.setReg (A.DEC_SNAP_F_HI n) ((d.fine.delivered >>> 32).setWidth 16 ++ (d.fine.produced >>> 32).setWidth 16)
  let s := s.setFld (A.DEC_SNAP_LEVEL n) F.DEC_SNAP_LEVEL_SWIFT_LEVEL d.swift.buf.length
  let s := s.setFld (A.DEC_SNAP_LEVEL n) F.DEC_SNAP_LEVEL_FINE_LEVEL d.fine.buf.length
  s.setBit (A.DEC_SNAP_LEVEL n) F.DEC_SNAP_LEVEL_VALID

end Sys2Proof.Machine
end

