-- ==== Sys2Proof/Machine/Survey.lean ====
section
/-! DEFINITION. Survey converters: passes, urgent requests, results, the thermal scan (chapter 8). -/

namespace Sys2Proof.Machine

def SvState.init : SvState :=
  { job := .none, entries := [], urgent := none, buf := [], draining := false, paused := false, unsettled := false, ended := none }

def State.sv (s : State) (n : Nat) : SvState := mapGet (fun _ => SvState.init) s.svs n
def State.setSv (s : State) (n : Nat) (x : SvState) : State := { s with svs := mapInsert s.svs n x }

def State.svEn (s : State) (n : Nat) : Bool := s.bit (A.SV_CTRL n) F.SV_CTRL_EN
def State.svBusy (s : State) (n : Nat) : Bool := s.bit (A.SV_STATUS n) F.SV_STATUS_BUSY
def State.svPowered (s : State) (n : Nat) : Bool := s.bit (A.SV_STATUS n) F.SV_STATUS_POWERED
def State.svEntry (s : State) (n : Nat) : Nat := s.fld (A.SV_STATUS n) F.SV_STATUS_ENTRY

/-- The word of the entry that is converted now or next. -/
def State.svEntryWord (s : State) (n : Nat) : Word := ((s.sv n).entries.drop (s.svEntry n)).head?.getD 0

/-- The bank pauses: in HOLD, and from the decision to enter it, so that each converter ends after its conversion (R178). -/
def State.svPaused (s : State) (n : Nat) : Bool := (s.sv n).paused || decide (s.supply.entering = some .hold)

/-- The conversion that is due: the urgent request first, then the running pass (R174, R175). DESIGN CHOICE (log entry 102): an urgent
request that takes effect while the device enters HOLD abandons nothing: R178 lets the conversion in progress complete, and the request
waits until the pause ends. -/
def State.svDue (s : State) (n : Nat) : SvJob :=
  if s.svPaused n then .none else if (s.sv n).urgent.isSome then .urgent else if s.svBusy n then .entry else .none

/-- The conversion that is due has TOKEN = 1, and the holding buffer is full (R176). -/
def State.svBlocked (s : State) (n : Nat) : Bool :=
  let w := match (s.sv n).urgent with
    | some u => u
    | none => s.svEntryWord n
  decide (2 ≤ (s.sv n).buf.length) && decide (fieldOf w F.SV_ENTRY_TOKEN = 1)

/-- A powered converter turns to the conversion that is due: it starts it, waits for its buffer, or powers down
(R170, R176). `keep` says that another pass is about to start. -/
def svTurn (n : Nat) (keep : Bool) (s : State) : State :=
  match s.svDue n with
  | .none => (s.setSv n { s.sv n with job := .none }).putBit (A.SV_STATUS n) F.SV_STATUS_POWERED keep
  | j => s.setSv n { s.sv n with job := (if s.svBlocked n then .buffer else j),
                                 unsettled := !s.bit A.WC_RB_SEL F.WC_RB_SEL_SETTLED }

/-- Begin the conversion that is due: a converter that is powered down starts up first (R170), except for an urgent request that takes
effect in the rc in which the last conversion of a pass has ended (rule 3 of R174). -/
def svBegin (n : Nat) (s : State) : State :=
  if s.svDue n = .none then s
  else if s.svPowered n then
    match (s.sv n).job with
    | .starting => s
    | _ => svTurn n false s
  else
    let s := s.setBit (A.SV_STATUS n) F.SV_STATUS_POWERED
    if s.svDue n = .urgent ∧ (s.sv n).ended = some s.rc then svTurn n false s else s.setSv n { s.sv n with job := .starting }

/-- A converter finishes its start-up and begins its conversion. -/
def converterStartupDone (n : Nat) (s : State) : State :=
  if decide ((s.sv n).job = .starting) && s.alive then svTurn n false s else s

/-- A trigger: it starts a pass, which copies SEQ and its entries, or is missed (R171, R172). -/
def passTrigger (n : Nat) (s : State) : State :=
  if s.svBusy n then s.setBit (A.SV_STATUS n) F.SV_STATUS_TRIG_MISSED
  else
    let entries := (List.range (s.fld (A.SV_SEQ n) F.SV_SEQ_LENGTH + 1)).map (fun e => s.reg (A.SV_ENTRY n e))
    let s := (s.setBit (A.SV_STATUS n) F.SV_STATUS_BUSY).setFld (A.SV_STATUS n) F.SV_STATUS_ENTRY 0
    let s := s.setSv n { s.sv n with entries := entries }
    match (s.sv n).job with
    | .none => svBegin n s
    | _ => s

/-- A write of START with TRIG 0 is a trigger; with another TRIG it is ignored. DESIGN CHOICE (log entry 78): during a drain
that goes on after EN was written 1 again a trigger starts nothing and sets no TRIG_MISSED. -/
def surveyStart (n : Nat) (s : State) : State :=
  if s.runnerOn && s.svEn n && !(s.sv n).draining && decide (s.fld (A.SV_CTRL n) F.SV_CTRL_TRIG = 0) then passTrigger n s else s

/-- A trigger from a previous pass end, a heat or the interval (R171; log entry 78). DESIGN CHOICE (log entry 103): the sender counts
SEQ.INTERVAL, its reserved reset value 0 included, and any trigger it gives under TRIG 3 starts a pass. -/
def surveyTrigger (n : Nat) (s : State) : State :=
  let t := s.fld (A.SV_CTRL n) F.SV_CTRL_TRIG
  if s.runnerOn && s.svEn n && !(s.sv n).draining && decide (t ≠ 0) && !(decide (t = 1) && s.svBusy n) then passTrigger n s else s

/-- The voltage that selection `w` of WC.RB_SEL routes to the Survey bank, in units of a result: 195.3125 µV, which is 16,384/25 units,
for each code of the threshold DAC (R145, R152). -/
def State.rbVolts (s : State) (w : Word) : Int :=
  signedOf 12 (s.fld (A.WC_THR (fieldOf w F.WC_RB_SEL_COMP)) (if fieldOf w F.WC_RB_SEL_DAC = 1 then F.WC_THR_LO else F.WC_THR_HI)) * 16384 / 25

/-- How far a result may lie from the routed voltage: 8,192 units, which holds the DAC's ±1.5 mV, the ±0.5 mV of the routing, the
converter's offset, gain, drift and linearity errors and its noise (R145, R152, R167, R169; log entry 65). -/
def rbMargin : Int := 8192

/-- What converter `n` reads at `input` when the sender reports `raw`: at input 96 the routed DAC's voltage, within `rbMargin`; a
conversion that began before SETTLED lies between the old and the new selection, and one before the first selection since commit reads
what the starting DAC gives (R152; log entry 65). DESIGN CHOICE (log entry 101): a selection or a threshold written during a conversion
counts for it: it reads by what is routed at its end. -/
def State.svRaw (s : State) (n input : Nat) (raw : BitVec 24) : BitVec 24 :=
  if input ≠ 96 then raw
  else
    let new := s.rbVolts (s.reg A.WC_RB_SEL)
    match (if (s.sv n).unsettled then s.rbFrom.map s.rbVolts else some new) with
    | none => raw
    | some old => BitVec.ofInt 24 (clampInt (min old new - rbMargin) (max old new + rbMargin) raw.toInt)

/-- A calibrated result of converter `n` (R173). -/
def State.svValue (s : State) (n : Nat) (raw : BitVec 24) : Word :=
  fineWord (calibrate raw.toInt (signedOf 24 (s.fld (A.SV_OFFSET n) F.SV_OFFSET_OFFSET)) (s.fld (A.SV_GAIN n) F.SV_GAIN_GAIN))

/-- A token result (R176). -/
def surveyPayload (n : Nat) (urgent : Bool) (entry pass input : Nat) (v : Word) : Payload :=
  BitVec.ofNat 3 n ++ BitVec.ofBool urgent ++ BitVec.ofNat 5 entry ++ (0#7) ++ BitVec.ofNat 8 pass ++ (0#1) ++
    BitVec.ofNat 7 input ++ v

/-- No pass runs any more: the next entry to convert is entry 0 (R180). -/
def endPass (n : Nat) (s : State) : State :=
  (s.clrBit (A.SV_STATUS n) F.SV_STATUS_BUSY).setFld (A.SV_STATUS n) F.SV_STATUS_ENTRY 0

/-- The conversion of an entry ends (R171, R173, R177). -/
def entryEnd (n : Nat) (raw : BitVec 24) (s : State) : State :=
  let e := s.svEntry n
  let w := s.svEntryWord n
  let v := s.svValue n (s.svRaw n (fieldOf w F.SV_ENTRY_INPUT) raw)
  let pass := s.fld (A.SV_STATUS n) F.SV_STATUS_PASS
  let s := s.setReg (A.SV_RESULT n e) (putField (putField v F.SV_RESULT_PASS pass) F.SV_RESULT_VALUE (v.toNat / 256))
  let bit := BitVec.ofNat 32 (2 ^ e)
  let s := if s.reg (A.SV_NEW n) &&& bit = 0 then s else s.setReg (A.SV_OVERRUN n) (s.reg (A.SV_OVERRUN n) ||| bit)
  let s := s.setReg (A.SV_NEW n) (s.reg (A.SV_NEW n) ||| bit)
  let s := if fieldOf w F.SV_ENTRY_TOKEN = 1 then
      s.setSv n { s.sv n with buf := (s.sv n).buf ++ [surveyPayload n false e pass (fieldOf w F.SV_ENTRY_INPUT) v] }
    else s
  let last := decide (s.fld (A.SV_STATUS n) F.SV_STATUS_ENTRY + 1 ≥ (s.sv n).entries.length)
  let s := if last then
      ((endPass n s).setBit (A.SV_STATUS n) F.SV_STATUS_SEQ_DONE).setFld (A.SV_STATUS n) F.SV_STATUS_PASS (pass + 1)
    else if (s.sv n).draining then endPass n s
    else s.setFld (A.SV_STATUS n) F.SV_STATUS_ENTRY (e + 1)
  let again := last && s.svEn n && !(s.sv n).draining && decide (s.fld (A.SV_CTRL n) F.SV_CTRL_TRIG = 1)
  svTurn n again (s.setSv n { s.sv n with ended := some s.rc })

/-- The urgent conversion ends (R174). -/
def urgentEnd (n : Nat) (raw : BitVec 24) (u : Word) (s : State) : State :=
  let input := fieldOf u F.SV_URGENT_INPUT
  let v := s.svValue n (s.svRaw n input raw)
  let s := s.setReg (A.SV_URGENT_RESULT n) (putField v F.SV_URGENT_RESULT_INPUT input)
  let s := (s.setBit (A.SV_STATUS n) F.SV_STATUS_URGENT_DONE).clrBit (A.SV_STATUS n) F.SV_STATUS_URGENT_BUSY
  let buf := if fieldOf u F.SV_URGENT_TOKEN = 1 then (s.sv n).buf ++ [surveyPayload n true 0 0 input v] else (s.sv n).buf
  svTurn n false (s.setSv n { s.sv n with urgent := none, buf := buf })

/-- A conversion ends with the converter's output `raw` (R173). -/
def conversionEnd (n : Nat) (raw : BitVec 24) (s : State) : State :=
  if s.alive then
    match (s.sv n).job, (s.sv n).urgent with
    | .entry, _ => entryEnd n raw s
    | .urgent, some u => urgentEnd n raw u s
    | _, _ => s
  else s

/-- The stored request of SV_n.URGENT after a write of `w`: a reserved INPUT keeps its value (R16). -/
def State.urgentWord (s : State) (n : Nat) (w : Word) : Word :=
  let old := s.reg (A.SV_URGENT n)
  let new := putField (putField old F.SV_URGENT_TOKEN (fieldOf w F.SV_URGENT_TOKEN)) F.SV_URGENT_RATE (fieldOf w F.SV_URGENT_RATE)
  if fieldOf w F.SV_URGENT_INPUT ≤ 96 then putField new F.SV_URGENT_INPUT (fieldOf w F.SV_URGENT_INPUT) else new

/-- A write of SV_n.URGENT with GO = 1 (R174): refused while URGENT_BUSY is 1 or EN is 0, or when TOKEN has no route (R176);
otherwise it abandons the conversion in progress. DESIGN CHOICE (log entry 78): so it does while a drain goes on after EN was
written 1 again. -/
def urgentRequest (n : Nat) (w : Word) (s : State) : State :=
  let u := s.urgentWord n w
  let noRoute := decide (fieldOf w F.SV_URGENT_TOKEN = 1) && (s.producerChannel (epSurvey n)).isNone
  if s.bit (A.SV_STATUS n) F.SV_STATUS_URGENT_BUSY || !s.svEn n || noRoute then
    s.setBit (A.SV_STATUS n) F.SV_STATUS_CFG_REJECT
  else
    let s := s.setReg (A.SV_URGENT n) u
    let s := s.setBitIf (decide (96 < fieldOf w F.SV_URGENT_INPUT)) (A.SV_STATUS n) F.SV_STATUS_CFG_REJECT
    let s := (s.setBit (A.SV_STATUS n) F.SV_STATUS_URGENT_BUSY).setSv n { s.sv n with urgent := some u }
    svBegin n s

/-- A write of EN = 0 (R177): the conversion in progress completes; a pending urgent request, a start-up and the rest of
the pass are dropped. -/
def surveyDisable (n : Nat) (s : State) : State :=
  let x := s.sv n
  let s := s.clrBit (A.SV_CTRL n) F.SV_CTRL_EN
  if s.bit (A.SV_STATUS n) F.SV_STATUS_DISABLED then s
  else
    let s := if x.urgent.isSome && decide (x.job ≠ .urgent) then s.clrBit (A.SV_STATUS n) F.SV_STATUS_URGENT_BUSY else s
    let urgent := if x.job = .urgent then x.urgent else none
    match x.job with
    | .entry => s.setSv n { x with urgent := urgent, draining := true }
    | .urgent => (endPass n s).setSv n { x with urgent := urgent, draining := true }
    | _ => ((endPass n s).clrBit (A.SV_STATUS n) F.SV_STATUS_POWERED).setSv n
        { x with job := .none, urgent := urgent, draining := true }

/-- A write of EN = 1: during a drain the drain completes first (R177). -/
def surveyEnable (n : Nat) (s : State) : State :=
  let s := s.setBit (A.SV_CTRL n) F.SV_CTRL_EN
  if (s.sv n).draining then s else s.clrBit (A.SV_STATUS n) F.SV_STATUS_DISABLED

/-- The buffer is empty and the converter has powered down: DISABLED sets, unless EN was written 1 again (R177). -/
def surveyDisabled (n : Nat) (s : State) : State :=
  let x := s.sv n
  if x.draining && decide (x.buf = []) && !s.svPowered n then
    (s.setSv n { x with draining := false }).setBitIf (!s.svEn n) (A.SV_STATUS n) F.SV_STATUS_DISABLED
  else s

/-- The head of a converter's buffer is offered to its channel; a waiting conversion then starts (R176). -/
def issueSurvey (n : Nat) (s : State) : State :=
  match (s.sv n).buf with
  | [] => s
  | payload :: rest =>
    match s.producerChannel (epSurvey n) with
    | none => s
    | some c =>
      let r := s.offer c payload false
      if r.2 then
        let s := r.1.setSv n { r.1.sv n with buf := rest }
        if (s.sv n).job = .buffer then svTurn n false s else s
      else r.1

/-- Every converter has completed its conversion and delivered its results and tokens (R178). -/
def State.svQuiet (s : State) : Bool :=
  (List.range 8).all (fun n => !decide ((s.sv n).job = .entry) && !decide ((s.sv n).job = .urgent) &&
    ((s.sv n).buf.isEmpty || (s.producerChannel (epSurvey n)).isNone))

/-- On entry to HOLD a converter pauses; on return to RUN it resumes at the next entry of its pass (R178). -/
def svHold (n : Nat) (s : State) : State :=
  (s.clrBit (A.SV_STATUS n) F.SV_STATUS_POWERED).setSv n { s.sv n with job := .none, paused := true, ended := none }

def svResume (n : Nat) (s : State) : State := svBegin n (s.setSv n { s.sv n with paused := false })

/-! ### The thermal scan (R49, R175) -/

/-- The temperature of SV.TEMP_k lies above `t` °C: V = 1.000 V + 2.5 mV/K × (T − 25 °C), in codes of 2.5 V / 2^23. -/
def State.tempAbove (s : State) (k : Nat) (t : Int) : Bool :=
  decide (signedOf 24 (s.fld (A.SV_TEMP k) F.SV_TEMP_VALUE) * 1000 > (t + 375) * 2 ^ 23)

/-- Tj, the highest of the eight readings, lies above SUP.TJ_WARN.THRESH. -/
def State.tjOver (s : State) : Bool :=
  (List.range 8).any (fun k => s.tempAbove k ((s.fld A.SUP_TJ_WARN F.SUP_TJ_WARN_THRESH : Int) - 64))

/-- TJ_WARN is set when Tj rises above the threshold (R49). -/
def judgeTj (s : State) : State :=
  let now := s.tjOver
  let rise := now && !s.supply.tjAbove
  ({ s with supply := { s.supply with tjAbove := now } }).setBitIf rise A.SUP_STATUS F.SUP_STATUS_TJ_WARN

/-- The scan's eight conversions, with the converter's outputs in `raws`. DESIGN CHOICE (log entry 77): R173 calibrates every
result, so SV_7's OFFSET and GAIN apply here too, though R175 gives as its reason that Tj must not depend on software. -/
def thermalScan (raws : List (BitVec 24)) (s : State) : State :=
  if s.alive then
    judgeTj ((raws.zip (List.range 8)).foldl (fun s p =>
      s.setReg (A.SV_TEMP p.2) (s.svValue 7 p.1)) s)
  else s

end Sys2Proof.Machine
end

