-- ==== Sys2Proof/Machine/CoreState.lean ====
section
/-! DEFINITION. The cores' registers: stacks, PSW, SY values and synchronising events, whether a core executes
(R256 to R283, R327, R356, R358 to R377). -/

namespace Sys2Proof.Machine

/-! ### Cores and pairs -/

def State.core (s : State) (c : Nat) : Core := mapGet (fun _ => Core.reset) s.cores c
def State.setCore (s : State) (c : Nat) (k : Core) : State := { s with cores := mapInsert s.cores c k }

/-- The state of pair `p` (R378): 0 SPLIT, 1 LOCKED, 2 CHECK, 3 LIMP, 4 HELD. -/
def State.pairState (s : State) (p : Nat) : Nat := s.fld (A.LOCK_STATUS p) F.LOCK_STATUS_STATE

/-- Pair `p` booted locked (R358). -/
def State.pairLocked (s : State) (p : Nat) : Bool := s.pairLock.getLsbD p

/-- Pair `p` booted locked, and its surviving core does not run alone (R360, R372). -/
def State.lockedMode (s : State) (p : Nat) : Bool := s.pairLocked p && decide (s.pairState p ≠ 3)

/-- The record through which core `c` is reached: a locked pair is one core, and its primary's record stands for it
(R358, R372, R375). -/
def State.coreRecord (s : State) (c : Nat) : Nat := if s.pairLocked (c / 2) then c / 2 * 2 else c

/-- Region `r` is under test (R451). -/
def State.underTest (s : State) (r : Nat) : Bool :=
  decide (s.assay.lane0 = some r) || decide (s.assay.lane1 = some r)

/-- Region `r` was left in its reset state by a RESTORE_FAIL, out of service until full reset (R457). -/
def State.outOfService (s : State) (r : Nat) : Bool := s.assay.lost.contains r

/-- A region of core `c` is under test. -/
def State.coreUnderTest (s : State) (c : Nat) : Bool :=
  s.underTest c || s.underTest (40 + c) ||
    (s.pairLocked (c / 2) && (s.underTest (c / 2 * 2 + 1) || s.underTest (40 + c / 2 * 2 + 1)))

/-- Core `c` of a split pair is held by a failed region (R460). -/
def State.coreHeld (s : State) (c : Nat) : Bool :=
  !s.pairLocked (c / 2) && (s.assay.failed.contains c || s.assay.failed.contains (40 + c))

/-- Core `c` is clocked and may execute or wait: it has been started, it is not halted, its pair neither checks nor is
held, no test holds it, and it is not the checker of a locked pair, which follows its primary (R53, R91, R318, R360, R368, R373,
R375, R451). -/
def State.coreOn (s : State) (c : Nat) : Bool :=
  let k := s.core c
  s.alive && decide (s.supply.power = .run) && decide (s.coreRecord c = c) &&
    decide (s.pairState (c / 2) ≠ 2) && decide (s.pairState (c / 2) ≠ 4) &&
    k.started && !k.halted && (!k.debugHalt || k.debugStep) && !s.coreHeld c && !s.coreUnderTest c

/-- Core `c` executes instructions: it is on, not in its wait state, and not waiting for a load. -/
def State.executes (s : State) (c : Nat) : Bool :=
  s.coreOn c && !(s.core c).waiting && (s.core c).loadWait.isNone

/-! ### PSW (R283) -/

namespace Psw
def mode : Nat := 24
def la : Nat := 20
def ie : Nat := 16
def ove : Nat := 9
def dze : Nat := 8
def sat : Nat := 6
def sv : Nat := 2
def c : Nat := 1
def v : Nat := 0
end Psw

/-- The defined bits of the PSW, and those that take effect at once. -/
def pswMask : Word := 0x01110377
def pswNow : Word := 0x77

/-- A word with bit `i` set to `b`. -/
def withBit (w : Word) (i : Nat) (b : Bool) : Word :=
  let m := BitVec.ofNat 32 (2 ^ i)
  if b then w ||| m else w &&& ~~~ m

/-- An effective PSW bit. -/
def Core.effective (k : Core) (i : Nat) : Bool := k.pswE.getLsbD i

/-- The core runs in user mode: effective MODE is 0. -/
def Core.user (k : Core) : Bool := !k.effective Psw.mode

/-- The rounding mode, effective PSW.RND. -/
def Core.rnd (k : Core) : Nat := (k.pswE >>> 4).toNat % 4

/-- Set a bit of the PSW, committed and in effect. -/
def Core.setPsw (k : Core) (i : Nat) (b : Bool) : Core :=
  { k with psw := withBit k.psw i b, pswE := withBit k.pswE i b }

/-- A synchronising event: every committed SY value takes effect, the TLB entries of every segment written leave, and the fetch
buffer is discarded (R258, R259, R280, R348). -/
def Core.sync (k : Core) : Core :=
  { k with pswE := k.psw, lcE := k.lc, lsE := k.ls, leE := k.le, evbaseE := k.evbase, ivbaseE := k.ivbase, segE := k.seg,
           pend := 0, segPend := 0, tlb := k.tlb.filter (fun t => !k.segPend.getLsbD t.seg), fetched := [] }

/-! ### Stacks (R264 to R268) -/

def Core.stack (k : Core) : StackId → Stack
  | .du => k.du
  | .ds => k.ds
  | .ru => k.ru
  | .rs => k.rs

def Core.setStack (k : Core) (i : StackId) (x : Stack) : Core :=
  match i with
  | .du => { k with du := x }
  | .ds => { k with ds := x }
  | .ru => { k with ru := x }
  | .rs => { k with rs := x }

/-- Cells that the cache of a stack holds (R266). -/
def StackId.depth : StackId → Nat
  | .du => 16
  | .ds => 16
  | .ru => 8
  | .rs => 8

/-- The number of a stack in CAUSE.DETAIL (R304). -/
def StackId.code : StackId → Nat
  | .du => 0
  | .ds => 1
  | .ru => 2
  | .rs => 3

/-- A supervisor stack. -/
def StackId.super : StackId → Bool
  | .du => false
  | .ds => true
  | .ru => false
  | .rs => true

/-- The data stack and the return stack of the current privilege level. -/
def Core.dataId (k : Core) : StackId := if k.user then .du else .ds
def Core.retId (k : Core) : StackId := if k.user then .ru else .rs

/-- The cached cell at address `a`. -/
def Stack.cached (x : Stack) (a : Nat) : Option (BitVec 64) := (x.cells.find? (fun p => decide (p.1 = a))).map (·.2)

/-- A 40-bit value as a 64-bit cell: bits [63:40] copy bit 39 (R264). -/
def wide (v : Cell) : BitVec 64 := v.signExtend 64

/-- The 40-bit value of a cell. -/
def narrow (v : BitVec 64) : Cell := v.setWidth 40

/-- Frame register `i`. -/
def Core.frame (k : Core) (i : Nat) : Cell := mapGet (fun _ => 0) k.fr i
def Core.setFrame (k : Core) (i : Nat) (v : Cell) : Core := { k with fr := mapSet (fun _ => 0) k.fr i v }

/-! ### Segments and the shadow registers -/

/-- The effective SEG_n_BASE and SEG_n_CTRL. -/
def Core.segBase (k : Core) (n : Nat) : Word := mapGet segReset k.segE (2 * n)
def Core.segCtrl (k : Core) (n : Nat) : Word := mapGet segReset k.segE (2 * n + 1)

/-- SHADOW_STATUS.EMERG and VALID (R315 to R317). -/
def Core.emerg (k : Core) : Bool := k.shadowStatus.getLsbD 30
def Core.shadowValid (k : Core) : Bool := k.shadowStatus.getLsbD 31

/-- IC_EN bit of source `i` (R327). -/
def Core.enabled (k : Core) (i : Nat) : Bool := (mapGet (fun _ => 0) k.en (i / 32)).getLsbD (i % 32)

/-! ### Starting a core (R91, R372) -/

/-- A core that starts at `pc`: supervisor mode, with PSW, PRG and segment registers at their reset values. -/
def Core.startAt (k : Core) (pc : Word) : Core :=
  { k with started := true, waiting := false, pc := pc, psw := Core.reset.psw, pswE := Core.reset.psw, prg := 0,
           prgLive := false, seg := [], segE := [], segPend := 0, pend := 0, tlb := [], fetched := [] }

/-- A LIMP survivor: every core register takes its reset value (R372). -/
def Core.limp (pc : Word) : Core := { Core.reset with started := true, pc := pc }

end Sys2Proof.Machine
end

