-- ==== Sys2Proof/Machine/Hash.lean ====
section
/-! DEFINITION. The checks over bytes: CRC-32 of R101, CRC-16 of R408, and SHA-256 (R392, R444; log entry 21). -/

namespace Sys2Proof.Machine

/-! ### Bytes and numbers (R5) -/

/-- The number that little-endian bytes spell. -/
def leNat : List Byte → Nat
  | [] => 0
  | b :: bs => b.toNat + 256 * leNat bs

/-- `n` little-endian bytes of `v`. -/
def leBytes : Nat → Nat → List Byte
  | 0, _ => []
  | n + 1, v => BitVec.ofNat 8 v :: leBytes n (v / 256)

/-! ### CRCs -/

/-- The CRC-32 of R101: all-ones initial value, all-ones final XOR. -/
def crc32 (bs : List Byte) : Nat := (bs.foldl (fun r b => crcByte 0xEDB88320 r b.toNat) 0xFFFFFFFF) ^^^ 0xFFFFFFFF

/-- The CRC-16-CCITT of R408: initial value 0xFFFF, no final XOR. -/
def crc16 (bs : List Byte) : Nat := bs.foldl (fun r b => crcMsbByte 16 0x1021 r b.toNat) 0xFFFF

/-! ### SHA-256, from the description of FIPS 180-4 -/

/-- The largest `r` with `r ^ k ≤ x`, found from bit `n - 1` downward. -/
def intRoot (k x : Nat) : Nat → Nat → Nat
  | 0, r => r
  | n + 1, r => intRoot k x n (if (r + 2 ^ n) ^ k ≤ x then r + 2 ^ n else r)

/-- The first 32 bits of the fractional part of the `k`-th root of `p`. -/
def rootFraction (k p : Nat) : Word := BitVec.ofNat 32 (intRoot k (p * 2 ^ (32 * k)) 37 0)

/-- The primes up to 311, the 64th; a composite number among them has a divisor below 18. -/
def shaPrimes : List Nat :=
  (List.range 312).filter (fun p => decide (2 ≤ p) && (List.range 18).all (fun d => decide (d < 2 ∨ p ≤ d ∨ p % d ≠ 0)))

/-- `x` rotated right by each amount of the list, and the results combined bit by bit. -/
def rotations (amounts : List Nat) (x : Word) : Word := amounts.foldl (fun y n => y ^^^ x.rotateRight n) 0

/-- The message schedule, newest word first, grows by `n` words. -/
def shaSchedule : Nat → List Word → List Word
  | 0, w => w
  | n + 1, w =>
    let back := fun k => w.getD (k - 1) 0
    let older := rotations [7, 18] (back 15) ^^^ back 15 >>> 3
    let newer := rotations [17, 19] (back 2) ^^^ back 2 >>> 10
    shaSchedule n ((back 16 + older + back 7 + newer) :: w)

/-- One round on the eight working words, which move one place along; `kw` is the round's constant plus its word. -/
def shaRound (v : List Word) (kw : Word) : List Word :=
  match v with
  | [a, b, c, d, e, f, g, h] =>
    let choice := g ^^^ (e &&& (f ^^^ g))
    let majority := (a &&& (b ||| c)) ||| (b &&& c)
    let mixed := kw + choice + rotations [6, 11, 25] e + h
    [majority + rotations [2, 13, 22] a + mixed, a, b, c, mixed + d, e, f, g]
  | _ => v

/-- SHA-256 of a message of at most 55 bytes, which fits one block: the session keys and passwords have 16. -/
def sha256 (msg : List Byte) : BitVec 256 :=
  let padded := leNat ((msg ++ 0x80#8 :: List.replicate (55 - msg.length) 0).reverse) * 2 ^ 64 + 8 * msg.length
  let block := (List.range 16).map (fun i => BitVec.ofNat 32 (padded / 2 ^ (32 * i)))
  let start := (shaPrimes.take 8).map (rootFraction 2)
  let rounds := List.zipWith (· + ·) (shaPrimes.map (rootFraction 3)) (shaSchedule 48 block).reverse
  let words := List.zipWith (· + ·) start (rounds.foldl shaRound start)
  BitVec.ofNat 256 (words.foldl (fun n w => n * 2 ^ 32 + w.toNat) 0)

/-- A hash as the 32 bytes that a record holds, first byte first. -/
def hashBytes (h : BitVec 256) : List Byte := (leBytes 32 h.toNat).reverse

end Sys2Proof.Machine
end

