-- ==== Sys2Proof/Machine/Memory.lean ====
section
/-! DEFINITION. The physical map and its memories: regions, bytes, ECC, the flash array as it is read, the journal
(R329 to R337, R379 to R384, R398 to R400). -/

namespace Sys2Proof.Machine

/-! ### Regions (R329 to R331) -/

/-- The regions of the physical map. -/
inductive Region where
  | itcm | dtcm | sram | lawTable | flash | journal | device | dram | hole
deriving DecidableEq, Repr

/-- The region of physical address `a`. -/
def regionOf (a : Nat) : Region :=
  if a < 0x20000 then .itcm
  else if a < 0x40000 then .dtcm
  else if 0x10000000 ≤ a ∧ a < 0x11000000 then .sram
  else if 0x20000000 ≤ a ∧ a < 0x20400000 then .lawTable
  else if 0x40000000 ≤ a ∧ a < 0x44000000 then .flash
  else if 0x48000000 ≤ a ∧ a < 0x48100000 then .journal
  else if 0x80000000 ≤ a ∧ a < 0x100000000 then .device
  else if 0x100000000 ≤ a ∧ a < 0x180000000 then .dram
  else .hole

/-- The TCM window of R331. -/
def inTcmWindow (a : Nat) : Bool := decide (0xF0000000 ≤ a) && decide (a < 0xF0400000)

/-- The address lies in a block span of R333 or in the TCM window. -/
def inSpan (a : Nat) : Bool := inTcmWindow a || (blockAt a).isSome

/-- The TCM window of core `c`, and the core whose window holds address `a` (R331). -/
def tcmBase (c : Nat) : Nat := 0xF0000000 + 0x40000 * c
def windowCore (a : Nat) : Nat := (a - 0xF0000000) / 0x40000

/-- The core whose TCMs the record of core `c` uses: its own, or those of the checker that has survived its pair (R372). -/
def State.tcmOf (s : State) (c : Nat) : Nat :=
  if s.pairState (c / 2) = 3 ∧ s.fld (A.LOCK_STATUS (c / 2)) F.LOCK_STATUS_OUTCOME = 3 then c / 2 * 2 + 1 else s.coreRecord c

/-- Where core `c` reaches physical address `a`: its own TCMs lie in the TCM window. -/
def State.coreAddr (s : State) (c a : Nat) : Nat := if a < 0x40000 then tcmBase (s.tcmOf c) + a else a

/-- Where a read of the TCM window at `a` leads: in locked mode either window of a pair reads the primary's copy (R361). -/
def State.windowAddr (s : State) (a : Nat) : Nat :=
  if inTcmWindow a then
    (if s.lockedMode (windowCore a / 2) then tcmBase (windowCore a / 2 * 2) + a % 0x40000 else a)
  else a

/-- The checker's copy of a primary's TCM address, which every write through a window reaches too in locked mode (R361). -/
def State.checkerAddr (s : State) (a : Nat) : Option Nat :=
  if inTcmWindow a && s.lockedMode (windowCore a / 2) then some (tcmBase (windowCore a / 2 * 2 + 1) + a % 0x40000) else none

/-! ### The flash array (R381, R382, R389) -/

/-- A byte of the factory region: the items of R381, where the first byte of each Ethernet address marks it as universally
administered and unicast; every other byte reads as 0xFF. -/
def factoryFlash (x : Nat) : Byte :=
  if x < 0x20004 then Config.factoryByte x
  else if x < 0x20008 then
    BitVec.ofNat 8 (crc32 ((List.range 4).map (fun i => Config.factoryByte (0x20000 + i))) / 256 ^ (x - 0x20004))
  else if x = 0x21008 ∨ x = 0x2100E then Config.factoryByte x &&& 0xFC
  else if 0x21000 ≤ x ∧ x < 0x21014 then Config.factoryByte x
  else 0xFF

/-- The byte at logical flash offset `x`. -/
def State.flashByte (s : State) (x : Nat) : Byte :=
  if x < 0x100000 then factoryFlash x
  else
    match s.flash.torn.find? (fun p => decide (p.1 = x / 64)) with
    | some p => (Config.freeValue (p.2 + x % 64)).setWidth 8
    | none => mapGet (fun _ => 0xFF) s.flash.bytes x

/-- `n` bytes of the flash from offset `x`. -/
def State.flashBytes (s : State) (x n : Nat) : List Byte := (List.range n).map (fun i => s.flashByte (x + i))

/-- Line `l` has not been programmed since its block was last erased. -/
def State.blankLine (s : State) (l : Nat) : Bool := !mapGet (fun _ => false) s.flash.lines l

/-! ### Bytes of memory -/

/-- The byte at address `a`, where the TCMs stand at their window addresses. -/
def State.byteAt (s : State) (a : Nat) : Byte :=
  match regionOf a with
  | .flash => s.flashByte (a - 0x40000000)
  | .journal => mapGet (fun _ => 0) s.journal (a - 0x48000000)
  | _ => mapGet (fun _ => 0) s.mem a

/-- `n` bytes from address `a`. -/
def State.bytesAt (s : State) (a n : Nat) : List Byte := (List.range n).map (fun i => s.byteAt (a + i))

/-- Write one byte of a memory that stores reach. -/
def State.putByte (s : State) (a : Nat) (b : Byte) : State :=
  match regionOf a with
  | .journal => { s with journal := mapSet (fun _ => 0) s.journal (a - 0x48000000) b }
  | _ => { s with mem := mapSet (fun _ => 0) s.mem a b }

/-- Write bytes from address `a` upward. -/
def State.putBytes (s : State) : Nat → List Byte → State
  | _, [] => s
  | a, b :: bs => (s.putByte a b).putBytes (a + 1) bs

/-! ### ECC (R26, R262, R335, R336, R382, R398) -/

/-- The word or line whose ECC covers address `a`. -/
def eccUnit (a : Nat) : Nat := if regionOf a = .flash then a / 64 * 64 else a / 8 * 8

/-- The unit of address `a` holds an uncorrectable error. -/
def State.poisoned (s : State) (a : Nat) : Bool := s.poison.contains (eccUnit a)

/-- The error that has struck the unit of address `a` and that nothing has met yet (log entry 104). -/
def State.upset (s : State) (a : Nat) : WordEcc := mapGet (fun _ => .none) s.upsets (eccUnit a)
def State.strike (s : State) (a : Nat) (e : WordEcc) : State := { s with upsets := mapSet (fun _ => .none) s.upsets (eccUnit a) e }

/-- The list with unit `a` in it, in rising order. -/
def noteUnit (a : Nat) (l : List Nat) : List Nat := l.filter (fun u => decide (u < a)) ++ a :: l.filter (fun u => decide (a < u))

/-- An uncorrectable error is met at address `a`: it is reported, and the region's FATAL flag and address record it. -/
def State.fatalEcc (s : State) (a : Nat) : State :=
  let s := { s.eccEvent with poison := noteUnit (eccUnit a) s.poison }
  match regionOf a with
  | .sram =>
    let s := if s.bit A.MEM_STATUS F.MEM_STATUS_FATAL then s else s.setReg A.MEM_FATAL_ADDR (BitVec.ofNat 32 (a / 8))
    s.setBit A.MEM_STATUS F.MEM_STATUS_FATAL
  | .dram =>
    let s := if s.bit A.MEM_STATUS F.MEM_STATUS_FATAL then s else s.setReg A.MEM_FATAL_ADDR (BitVec.ofNat 32 (a / 8))
    s.setBit A.MEM_STATUS F.MEM_STATUS_FATAL
  | .journal =>
    let s := if s.bit A.JRNL_STATUS F.JRNL_STATUS_FATAL then s
      else s.setReg A.JRNL_FATAL_ADDR (BitVec.ofNat 32 (eccUnit a - 0x48000000))
    s.setBit A.JRNL_STATUS F.JRNL_STATUS_FATAL
  | .flash =>
    let s := if s.bit A.FLASH_STATUS F.FLASH_STATUS_FATAL then s
      else s.setReg A.FLASH_FATAL_ADDR (BitVec.ofNat 32 (a - 0x40000000))
    s.setBit A.FLASH_STATUS F.FLASH_STATUS_FATAL
  | _ => s

/-- A saturating count of corrected errors. -/
def State.countCorr (s : State) (a : Nat) : State :=
  if (s.reg a).toNat < 0xFFFFFFFF then s.setReg a (s.reg a + 1) else s

/-- A corrected error at address `a`: repaired in place and counted. -/
def State.correctedEcc (s : State) (a : Nat) : State :=
  match regionOf a with
  | .sram => (s.countCorr A.MEM_SRAM_CORR).setBit A.MEM_STATUS F.MEM_STATUS_CORR
  | .dram => (s.countCorr A.MEM_DRAM_CORR).setBit A.MEM_STATUS F.MEM_STATUS_CORR
  | .journal => (s.countCorr A.JRNL_CORR_COUNT).setBit A.JRNL_STATUS F.JRNL_STATUS_CORR
  | .flash => (s.countCorr A.FLASH_CORR_COUNT).setBit A.FLASH_STATUS F.FLASH_STATUS_CORR
  | _ => s

/-- Address `a` lies in a flash line that has not been programmed: such a line reports no error (R382). The factory region is
programmed (R381), and a line that a reset left indeterminate is not blank (R389). -/
def State.blankAt (s : State) (a : Nat) : Bool :=
  decide (regionOf a = .flash) && decide (0x40100000 ≤ a) && s.blankLine ((a - 0x40000000) / 64) &&
    !s.flash.torn.any (fun p => decide (p.1 = (a - 0x40000000) / 64))

/-- What a read at `a` meets: the report that comes with the command, or an error that has struck the word since. -/
def State.meets (s : State) (a : Nat) (ecc : WordEcc) : WordEcc := if ecc = .none then s.upset a else ecc

/-- What the ECC reports for a read at `a`: the state after it, and whether the data is good. -/
def State.eccRead (s : State) (a : Nat) (ecc : WordEcc) : State × Bool :=
  if s.blankAt a then (s, true)
  else if s.poisoned a then (s.fatalEcc a, false)
  else
    match s.meets a ecc with
    | .none => (s, true)
    | .corrected => ((s.strike a .none).correctedEcc a, true)
    | .uncorrectable => ((s.strike a .none).fatalEcc a, false)

/-! ### Whether a memory answers (R337, R383, R384) -/

/-- The flash block of address `a`. -/
def flashBlock (a : Nat) : Nat := (a - 0x40000000) / 0x20000

/-- An access at `a` waits: its memory is not ready, or the flash runs a PROGRAM or an ERASE, or the SRAM bank is under test or, by
RESTORE_FAIL, out of service (R337, R383, R451, R457, log entry 96). -/
def State.memoryWaits (s : State) (a : Nat) : Bool :=
  match regionOf a with
  | .sram => !s.bit A.MEM_STATUS F.MEM_STATUS_SRAM_READY ||
      s.underTest (70 + (a - 0x10000000) / 0x100000) || s.outOfService (70 + (a - 0x10000000) / 0x100000)
  | .dram => !s.bit A.MEM_STATUS F.MEM_STATUS_DRAM_READY
  | .flash =>
    match s.flash.job with
    | some (.program _ _) => true
    | some (.erase _ _) => true
    | some (.suspend (some _)) => true
    | some .swap => true
    | some (.setKey _) => true
    | _ => false
  | _ => false

/-- A read at `a` is refused because its block's erase is suspended (R383). -/
def State.flashRefused (s : State) (a : Nat) : Bool :=
  decide (regionOf a = .flash) && decide (s.flash.suspended = some (flashBlock a))

/-! ### Stores that land (R336, R399, R400) -/

/-- A journal address is write-protected (R400). -/
def State.journalProtected (s : State) (a : Nat) : Bool :=
  decide (regionOf a = .journal) && (s.reg A.JRNL_WP).getLsbD ((a - 0x48000000) / 0x10000)

/-- Bytes land at address `a`, all within one 8-byte word: a partial word that meets an uncorrectable error is dropped,
and a protected journal byte changes nothing (R336, R400). -/
def State.landBytes (s : State) (a : Nat) (bs : List Byte) (ecc : WordEcc) : State :=
  if s.journalProtected a then s.setBit A.JRNL_STATUS F.JRNL_STATUS_WP_HIT
  else if 8 ≤ bs.length then { s.strike a .none with poison := s.poison.filter (fun u => decide (u ≠ eccUnit a)) }.putBytes a bs
  else
    let r := s.eccRead a ecc
    if r.2 || decide (regionOf a = .device) then r.1.putBytes a bs else r.1

/-- Every store of core `c` that the crossbar has accepted lands, but those whose memory does not answer yet (R337). -/
def State.landStores (s : State) (c : Nat) : State :=
  let q := (s.core c).stores
  let t := (q.filter (fun t => !s.memoryWaits t.addr)).foldl (fun s t => s.landBytes t.addr t.bytes .none) s
  t.setCore c { t.core c with stores := q.filter (fun t => s.memoryWaits t.addr) }

/-- Bytes written through the TCM window reach both copies of a locked pair; other bytes land where they lie (R361). -/
def State.landWindow (s : State) (a : Nat) (bs : List Byte) (ecc : WordEcc) : State :=
  let t := s.landBytes (s.windowAddr a) bs ecc
  match s.checkerAddr a with
  | some b => t.landBytes b bs .none
  | none => t

end Sys2Proof.Machine
end

