-- ==== Sys2Proof/Machine/Sources.lean ====
section
/-! DEFINITION. The 384 interrupt sources and what a core's controller makes of them (R319, R320, R325 to R328, and the
source rule of each chapter). -/

namespace Sys2Proof.Machine

/-! ### Flags -/

/-- Some bit of register `a` that `mask` selects is 1. -/
def State.flags (s : State) (a : Nat) (mask : Word) : Bool := decide (s.reg a &&& mask ≠ 0)

/-- Some instance of a group of `n` from `first` has its IRQ_EN bit and one of its flags at 1. -/
def State.groupFlags (s : State) (first n : Nat) (ctrl : Nat → Nat) (en : Fld) (status : Nat → Nat) (mask : Word) : Bool :=
  (List.range n).any (fun i => s.bit (ctrl (first + i)) en && s.flags (status (first + i)) mask)

/-! ### The sources of each chapter -/

/-- R49: TJ_WARN, VIN_WARN or a fault of a ball. -/
def State.srcSupply (s : State) : Bool := s.flags A.SUP_STATUS 0x3 || s.bit A.SUP_IO_FAULT F.SUP_IO_FAULT_VALID

/-- R165. -/
def State.srcQuench (s : State) : Bool := s.flags A.QUENCH_STATUS 0xE
def State.srcCmp (s : State) (k : Nat) : Bool := s.groupFlags (32 * k) 32 A.WC_CTRL F.WC_CTRL_IRQ_EN A.WC_STATUS 0x70

/-- R142. -/
def State.srcMd (s : State) (k : Nat) : Bool := s.groupFlags (32 * k) 32 A.MD_CTRL F.MD_CTRL_IRQ_EN A.MD_STATUS 0x6
def State.srcXb (s : State) (k : Nat) : Bool := s.groupFlags (32 * k) 32 A.XB_CTRL F.XB_CTRL_IRQ_EN A.XB_STATUS 0x1E
def State.srcDec (s : State) (k : Nat) : Bool := s.groupFlags (32 * k) 32 A.DEC_CTRL F.DEC_CTRL_IRQ_EN A.DEC_STATUS 0x8FC

/-- R179; OVERRUN_ANY is 1 while a bit of OVERRUN is. -/
def State.srcSurvey (s : State) (n : Nat) : Bool :=
  let m := s.fld (A.SV_CTRL n) F.SV_CTRL_IRQ_MASK
  s.flags (A.SV_STATUS n) (BitVec.ofNat 32 (m &&& 0x17)) || (m.testBit 3 && decide (s.reg (A.SV_OVERRUN n) ≠ 0))

/-- R202. -/
def State.srcRunner (s : State) (k : Nat) : Bool :=
  s.groupFlags (32 * k) 32 A.TC_CTRL F.TC_CTRL_IRQ_EN A.TC_STATUS 0x78000000
def State.srcRunnerG (s : State) : Bool := s.flags A.RUN_STATUS (s.reg A.RUN_CTRL &&& 0x38)

/-- R228. -/
def State.srcLaw (s : State) (k : Nat) : Bool := s.groupFlags (8 * k) 8 A.LE_CTRL F.LE_CTRL_IRQ_EN A.LE_STATUS 0x1F8
def State.srcTable (s : State) : Bool := s.bit A.LT_CTRL F.LT_CTRL_IRQ_EN && s.flags A.LT_STATUS 0x7

/-- R254. -/
def State.srcPg (s : State) (k : Nat) : Bool := s.groupFlags (8 * k) 8 A.PG_CTRL F.PG_CTRL_IRQ_EN A.PG_STATUS 0xFF8
def State.srcCal (s : State) : Bool := s.bit A.PG_CAL F.PG_CAL_IRQ_EN && s.bit A.PG_CAL F.PG_CAL_CAL_FAULT

/-- R376, R355. -/
def State.srcPair (s : State) (p : Nat) : Bool := s.bit (A.LOCK_CTRL p) F.LOCK_CTRL_IRQ_EN && s.flags (A.LOCK_FLAGS p) 0x7
def State.srcLadle (s : State) (n : Nat) : Bool := s.bit (A.LD_CTRL n) F.LD_CTRL_IRQ_EN && s.flags (A.LD_STATUS n) 0x1C
def State.srcMem (s : State) : Bool := s.bit A.MEM_CTRL F.MEM_CTRL_IRQ_EN && s.flags A.MEM_STATUS 0x3

/-- The device's time source, whether it is the grand master, and TW.SYS_STATUS, whose LOCKED is 1 there (R423). -/
def State.timeSrc (s : State) : Nat := s.fld A.TW_NODE F.TW_NODE_TIME_SRC
def State.grandMaster (s : State) : Bool := decide (s.timeSrc = 4)
def State.sysStatus (s : State) : Word :=
  if s.grandMaster then putField (s.reg A.TW_SYS_STATUS) F.TW_SYS_STATUS_LOCKED 1 else s.reg A.TW_SYS_STATUS

/-- R430. -/
def State.srcTw (s : State) (p : Nat) : Bool := s.bit (A.TW_CTRL p) F.TW_CTRL_IRQ_EN && s.flags (A.TW_STATUS p) 0x1FE
def State.srcTwSys (s : State) : Bool := decide (s.sysStatus &&& BitVec.ofNat 32 (s.fld A.TW_SYS_CTRL F.TW_SYS_CTRL_IE) ≠ 0)

/-- R401, R461. -/
def State.srcFlash (s : State) : Bool :=
  s.flags A.FLASH_STATUS (BitVec.ofNat 32 (4 * s.fld A.FLASH_CTRL F.FLASH_CTRL_IRQ_MASK))
def State.srcJournal (s : State) : Bool := s.bit A.JRNL_CTRL F.JRNL_CTRL_IRQ_EN && s.flags A.JRNL_STATUS 0x7
def State.srcAssay (s : State) : Bool := s.flags A.ASSAY_STATUS (s.reg A.ASSAY_CTRL &&& 0x7)

/-- R449: high while the controller, which HOST.EN or HOST.POS_MODE enables, reports an event; the sources 70 to 72 of PCIe and
Ethernet are raised by a lost link too (R434). -/
def State.srcHost (s : State) (i : Nat) : Bool :=
  (decide (i < 73) && s.host.linkEvents.getLsbD (i - 70)) ||
    (s.host.events.getLsbD (i - 70) &&
      (if i < 95 then (s.reg A.HOST_EN).getLsbD (i - 70) else decide ((s.reg A.HOST_POS_MODE).toNat / 4 ^ (i - 95) % 4 ≠ 0)))

/-- R449: a debug session is session 4. -/
def State.srcSession (s : State) : Bool := s.bit A.SESSION_CTRL F.SESSION_CTRL_IRQ_EN && s.flags A.SESSION_STATUS 0x07020000
def State.srcDebug (s : State) : Bool :=
  s.bit A.SESSION_CTRL F.SESSION_CTRL_DBG_IE &&
    ((s.reg A.SESSION_STATUS).getLsbD 4 || (List.range 16).any (fun c => (s.core c).debugHalt))

/-- Multiplexed ball `n` used as a general-purpose input is high (R64, R326). -/
def State.srcGpio (s : State) (n : Nat) : Bool :=
  decide (s.fld (A.IOMUX_CFG n) F.IOMUX_CFG_FUNC = 2) && !s.bit (A.IOMUX_CFG n) F.IOMUX_CFG_DIR && s.gpio.getLsbD n

/-- The level of source `i` (R326). -/
def State.source (s : State) (i : Nat) : Bool :=
  if i = 0 then s.alarm
  else if i = 1 then s.srcSupply
  else if i = 2 then s.srcQuench
  else if i < 6 then s.srcCmp (i - 3)
  else if i < 9 then s.srcMd (i - 6)
  else if i < 11 then s.srcXb (i - 9)
  else if i < 16 then s.srcDec (i - 11)
  else if i < 24 then s.srcSurvey (i - 16)
  else if i < 32 then s.srcRunner (i - 24)
  else if i = 32 then s.srcRunnerG
  else if i < 37 then s.srcLaw (i - 33)
  else if i = 37 then s.srcTable
  else if i < 44 then s.srcPg (i - 38)
  else if i = 44 then s.srcCal
  else if i < 53 then s.srcPair (i - 45)
  else if i < 57 then s.srcTw (i - 53)
  else if i = 57 then s.srcTwSys
  else if i < 66 then s.srcLadle (i - 58)
  else if i = 66 then s.srcMem
  else if i = 67 then s.srcFlash
  else if i = 68 then s.srcJournal
  else if i = 69 then s.srcAssay
  else if i < 111 then s.srcHost i
  else if i = 111 then s.srcSession
  else if i = 112 then s.srcDebug
  else if 128 ≤ i ∧ i < 256 then s.swi.getLsbD (i - 128)
  else if 256 ≤ i ∧ i < 370 then s.srcGpio (i - 256)
  else false

/-- The cores' clocks are gated (R324). -/
def State.clocksStand (s : State) : Bool := decide (s.supply.power = .idle) || decide (s.supply.power = .hold)

/-- The sources that are high now, and were neither high when the clocks stopped nor have risen since. -/
def State.newlyHigh (s : State) : List Nat :=
  (List.range 384).filter (fun i => s.source i && !s.supply.highAtStop.contains i && !s.supply.risen.contains i)

/-- While the clocks are gated the controllers watch every source: a level that was high when the clocks stopped is a rise only after
it has fallen, and a rise stays caught when the level falls (R324). -/
def State.stillHigh (s : State) : State :=
  if s.clocksStand then
    { s with supply := { s.supply with highAtStop := s.supply.highAtStop.filter s.source, risen := s.supply.risen ++ s.newlyHigh } }
  else s

/-- A command that may lower a source: the wake latches see the levels before it and after it. -/
def State.latching (f : State → State) (s : State) : State := if s.clocksStand then (f s.stillHigh).stillHigh else f s

/-! ### The controllers (R319, R320) -/

/-- ROUTE and PRIO of source `i` at controller `c`. -/
def State.routed (s : State) (c i : Nat) : Bool := s.bit (A.IC_SRC c i) F.IC_SRC_ROUTE
def State.prio (s : State) (c i : Nat) : Nat := s.fld (A.IC_SRC c i) F.IC_SRC_PRIO

/-- Source `i` is routed to controller `c` and enabled there. -/
def State.watched (s : State) (c i : Nat) : Bool := s.routed c i && (s.core c).enabled i

/-- Source `i` is pending at controller `c`. -/
def State.pendingAt (s : State) (c i : Nat) : Bool := s.watched c i && s.source i

/-- The pending source that arbitration chooses at running level `level`: the highest priority, then the lowest number. -/
def State.arbitrate (s : State) (c level : Nat) : Option Nat :=
  (List.range 384).foldl (fun best i =>
    if s.pendingAt c i && decide (level ≤ s.prio c i) then
      match best with
      | none => some i
      | some b => if s.prio c b < s.prio c i then some i else some b
    else best) none

/-- IC_TOP (R327). -/
def State.icTop (s : State) (c : Nat) : Word :=
  match s.arbitrate c 0 with
  | none => 0
  | some i => BitVec.ofNat 32 (2 ^ 31 + s.prio c i * 2 ^ 16 + i)

/-- 32 bits of a predicate over sources, from source 32k. -/
def bits32 (f : Nat → Bool) (k : Nat) : Word :=
  (List.range 32).foldl (fun w i => if f (32 * k + i) then w ||| BitVec.ofNat 32 (2 ^ i) else w) 0

end Sys2Proof.Machine
end

