-- ==== Sys2Proof/Machine/CoreMem.lean ====
section
/-! DEFINITION. What an instruction of a core reaches through its MMU: exceptions, segments, page tables, the TLB, keys,
memory accesses, stacks and their caches (R264 to R268, R296, R304 to R307, R316, R338 to R349). -/

namespace Sys2Proof.Machine

/-! ### Exceptions and attempts -/

/-- An exception: its number, DETAIL, FAULT_ADDR, the bits of CAUSE (R304 to R307), and the PRG that entry saves (R310). -/
structure Exc where
  no : Nat
  detail : Nat
  addr : Nat
  write : Bool
  fetch : Bool
  half2 : Bool
  prg : Cell
deriving DecidableEq, Repr

/-- An exception that is no memory fault. -/
def Exc.plain (no detail : Nat) : Exc :=
  { no := no, detail := detail, addr := 0, write := false, fetch := false, half2 := false, prg := 0 }

def Exc.illegal : Exc := Exc.plain 1 0
def Exc.privilege : Exc := Exc.plain 2 0

/-- What an attempt answers: a value and the state after it, an exception, or a wait for memory (in which the command
changes nothing). -/
inductive Try (α : Type) where
  | ok (a : α) (s : State)
  | exc (e : Exc) (s : State)
  | wait
deriving DecidableEq, Repr

/-- Go on with the value of an attempt. -/
def Try.bind {α β : Type} (t : Try α) (f : α → State → Try β) : Try β :=
  match t with
  | .ok a s => f a s
  | .exc e s => .exc e s
  | .wait => .wait

/-- One attempt after another over a list. -/
def tryEach {α : Type} (f : α → State → Try Unit) : List α → State → Try Unit
  | [], s => .ok () s
  | x :: xs, s => (f x s).bind (fun _ s => tryEach f xs s)

/-! ### One access -/

/-- An access of a core: its virtual address, its size in bytes, whether it writes or fetches, whether user rules apply,
and whether it is the aligned 32-bit LD or ST that the Law Table window and the register region take. -/
structure Access' where
  va : Nat
  size : Nat
  write : Bool
  fetch : Bool
  user : Bool
  word : Bool
deriving DecidableEq, Repr

/-- A memory fault of an access. -/
def Access'.fault (a : Access') (no detail : Nat) : Exc :=
  { no := no, detail := detail, addr := a.va, write := a.write, fetch := a.fetch, half2 := false, prg := 0 }

/-- The access cause with which the region of physical address `p` refuses an access, or 0 (R260, R305, R329, R330). A fetch of a
block whose erase is suspended is refused where it reads the flash: a line in the instruction cache is fetched from there. -/
def State.regionCause (s : State) (a : Access') (p : Nat) : Nat :=
  if a.fetch then
    match regionOf p with
    | .itcm => 0
    | .sram => 0
    | .dram => 0
    | .flash => 0
    | _ => 1
  else
    match regionOf p with
    | .hole => 1
    | .flash => if a.write then 1 else if s.flashRefused p then 3 else 0
    | .lawTable => if a.word then 0 else 4
    | .device => if !inSpan p then 1 else if a.word then 0 else if a.size = 4 then 1 else 4
    | _ => 0

/-! ### Segments and pages (R338 to R343) -/

/-- Fields of SEG_n_CTRL. -/
def segV (w : Word) : Bool := w.getLsbD 0
def segW (w : Word) : Bool := w.getLsbD 2
def segX (w : Word) : Bool := w.getLsbD 3
def segU (w : Word) : Bool := w.getLsbD 4
def segType (w : Word) : Bool := w.getLsbD 5
def segPaged (w : Word) : Bool := w.getLsbD 6
def segKey (w : Word) : Nat := (w >>> 8).toNat % 16
def segLimit (w : Word) : Nat := (w >>> 16).toNat

/-- The segment of a virtual address, its page, and the base of a segment. -/
def segOf (va : Nat) : Nat := va / 2 ^ 28 % 16
def pageOf (va : Nat) : Nat := va / 4096 % 65536
def Core.segStart (k : Core) (n : Nat) : Nat := (k.segBase n).toNat / 256 * 4096

/-- The TLB entry for a virtual address. -/
def Core.tlbFind (k : Core) (va : Nat) : Option TlbEntry :=
  k.tlb.find? (fun t => decide (t.seg = segOf va) && decide (t.page = pageOf va))

/-- The walker may read an entry at physical address `p` (R341). -/
def walkable (p : Nat) : Bool :=
  match regionOf p with
  | .dtcm => true
  | .sram => true
  | .dram => true
  | _ => false

/-- An 8-byte word of memory as core `c` reaches it. -/
def State.word64 (s : State) (c p : Nat) : Nat := leNat (s.bytesAt (s.coreAddr c p) 8)

/-- The addresses of the two page entries of a virtual address, the second from the first entry's word. -/
def Core.l1Addr (k : Core) (va : Nat) : Nat := (k.segStart (segOf va) + va / 2 ^ 20 % 256 * 8) % 2 ^ 36
def l2Addr (l1 va : Nat) : Nat := l1 / 4096 % 2 ^ 24 * 4096 + va / 4096 % 256 * 8

/-- Reserved bits of a level-1 and a level-2 entry that are not 0 (R339). -/
def l1Reserved (e : Nat) : Bool := decide (e / 2 ^ 36 ≠ 0) || decide (e / 2 % 2 ^ 11 ≠ 0)
def l2Reserved (e : Nat) : Bool := decide (e / 2 ^ 36 ≠ 0) || decide (e / 2 ^ 6 % 4 ≠ 0)

/-- A walk fault: WALK_INFO and WALK_INFO_HI record the entry (R341). -/
def walkFault (c level p cause : Nat) (a : Access') (s : State) : Exc × State :=
  (a.fault 9 cause,
   s.setCore c { s.core c with walkInfo := BitVec.ofNat 32 (p % 2 ^ 32 / 8 * 8 + level * 2),
                               walkInfoHi := BitVec.ofNat 32 (p / 2 ^ 32 % 16) })

/-- The walker reads one entry. -/
def walkRead (c level p : Nat) (a : Access') (s : State) : Try Nat :=
  if !walkable p then (fun r => .exc r.1 r.2) (walkFault c level p 1 a s)
  else if s.memoryWaits p then .wait
  else
    let r := s.eccRead (s.coreAddr c p) .none
    if !r.2 then (fun r => .exc r.1 r.2) (walkFault c level p 2 a r.1)
    else
      let s := r.1
      let e := s.word64 c p
      if (if level = 1 then l1Reserved e else l2Reserved e) then (fun r => .exc r.1 r.2) (walkFault c level p 3 a s)
      else if e % 2 = 0 then .exc (a.fault 7 (2 + level)) s
      else .ok e s

/-- The atomic OR of bit `i` into the entry at physical address `p` (R343). -/
def orEntry (c p i : Nat) (s : State) : State :=
  let x := s.coreAddr c p
  s.putByte x (s.byteAt x ||| BitVec.ofNat 8 (2 ^ i))

/-- The TLB entry that a level-2 entry gives. -/
def tlbFrom (va l2 p : Nat) (locked : Bool) : TlbEntry :=
  { seg := segOf va, page := pageOf va, frame := l2 / 4096 % 2 ^ 24, u := l2.testBit 3, w := l2.testBit 1,
    x := l2.testBit 2, d := l2.testBit 5, key := l2 / 256 % 16, source := p, locked := locked }

/-- The list without its last element that is not locked. -/
def dropOldest : List TlbEntry → List TlbEntry
  | [] => []
  | t :: ts => if ts.any (fun u => !u.locked) then t :: dropOldest ts else if t.locked then t :: dropOldest ts else ts

/-- Locked entries of the TLB. -/
def Core.locked (k : Core) : Nat := (k.tlb.filter (·.locked)).length

/-- Place an entry in the TLB (R345, R346). -/
def Core.tlbFill (k : Core) (t : TlbEntry) : Core :=
  let lock := k.lockFill && decide (k.locked < 16)
  let rest := if k.tlb.length < 128 then k.tlb else dropOldest k.tlb
  { k with tlb := { t with locked := lock } :: rest, lockFull := k.lockFull || (k.lockFill && !lock) }

/-- Mark the entry as the most recently used. -/
def Core.tlbUse (k : Core) (t : TlbEntry) : Core := { k with tlb := t :: k.tlb.erase t }

/-- The page entry of a paged access: from the TLB, or from a walk that fills the TLB and sets A (R340, R343). -/
def pageEntry (c : Nat) (a : Access') (s : State) : Try TlbEntry :=
  let k := s.core c
  match k.tlbFind a.va with
  | some t => .ok t (s.setCore c (k.tlbUse t))
  | none =>
    (walkRead c 1 (k.l1Addr a.va) a s).bind fun l1 s =>
    let p := l2Addr l1 a.va
    (walkRead c 2 p a s).bind fun l2 s =>
    let s := if l2.testBit 4 then s else orEntry c p 4 s
    let k := (s.core c).tlbFill (tlbFrom a.va l2 p false)
    .ok ((k.tlbFind a.va).getD (tlbFrom a.va l2 p false)) (s.setCore c k)

/-- The exception with which the permissions `u`, `w`, `x` and the key refuse an access, if they do
(steps 4 to 7 of R338; R344). -/
def permFault (a : Access') (u w x : Bool) (key : Nat) (pkr : Word) : Option Exc :=
  if a.user && !u then some (a.fault 7 5)
  else if a.write && !w then some (a.fault 7 6)
  else if a.fetch && !x then some (a.fault 7 7)
  else if !a.fetch && (pkr.getLsbD (2 * key) || (a.write && pkr.getLsbD (2 * key + 1))) then
    some (a.fault 8 (key + 16 * bit01 a.write))
  else none

/-- Where an access reaches, after checks 1 to 7 of R338. -/
def mapAddr (c : Nat) (a : Access') (s : State) : Try Nat :=
  let k := s.core c
  let n := segOf a.va
  let w := k.segCtrl n
  if !segV w then .exc (a.fault 7 1) s
  else if segLimit w < pageOf a.va then .exc (a.fault 7 2) s
  else if segPaged w then
    (pageEntry c a s).bind fun t s =>
    match permFault a (segU w && t.u) (segW w && t.w) (segX w && t.x) t.key (s.core c).pkr with
    | some e => .exc e s
    | none => .ok (t.frame * 4096 + a.va % 4096) s
  else
    let p := (k.segStart n + a.va % 2 ^ 28) % 2 ^ 36
    match permFault a (segU w) (segW w) (segX w) (segKey w) k.pkr with
    | some e => .exc e s
    | none => .ok p s

/-- Check 8 of R338: the region of physical address `p` accepts the access. -/
def regionCheck (a : Access') (p : Nat) (s : State) : Try Nat :=
  if s.regionCause a p ≠ 0 then .exc (a.fault 6 (s.regionCause a p)) s else .ok p s

/-- Where an access reaches, after every check of R338. -/
def translate (c : Nat) (a : Access') (s : State) : Try Nat := (mapAddr c a s).bind fun p s => regionCheck a p s

/-- A write at `va` that has passed every check sets D, in its page entry and in the TLB, if it is the first through a TLB entry
whose D is 0 (R343). -/
def setDirty (c va : Nat) (s : State) : State :=
  let k := s.core c
  if segPaged (k.segCtrl (segOf va)) then
    match k.tlbFind va with
    | some t =>
      if t.d then s
      else
        let s := orEntry c t.source 5 s
        s.setCore c { s.core c with tlb := { t with d := true } :: (s.core c).tlb.erase t }
    | none => s
  else s

/-- Where a virtual address leads, without a check and without an effect, if its entries can be read. -/
def State.probe (s : State) (c va : Nat) : Option Nat :=
  let k := s.core c
  let w := k.segCtrl (segOf va)
  if !segV w then none
  else if segPaged w then
    match k.tlbFind va with
    | some t => some (t.frame * 4096 + va % 4096)
    | none =>
      let p1 := k.l1Addr va
      let p2 := l2Addr (s.word64 c p1) va
      let e2 := s.word64 c p2
      if walkable p1 && decide (s.word64 c p1 % 2 = 1) && walkable p2 && decide (e2 % 2 = 1) then
        some (e2 / 4096 % 2 ^ 24 * 4096 + va % 4096)
      else none
  else some ((k.segStart (segOf va) + va % 2 ^ 28) % 2 ^ 36)

/-- The effective type of an access at `va` is device (R332). -/
def State.deviceAt (s : State) (c va : Nat) : Bool :=
  let w := (s.core c).segCtrl (segOf va)
  (segV w && segType w) ||
    (match s.probe c va with
     | some p => decide (regionOf p = .device)
     | none => false)

/-- The key that an access at `va` carries (R344). -/
def State.keyAt (s : State) (c va : Nat) : Nat :=
  let w := (s.core c).segCtrl (segOf va)
  if segPaged w then (((s.core c).tlbFind va).map (·.key)).getD 0 else segKey w

/-! ### Bytes (R262, R295, R335, R336) -/

/-- The sizes of R295. -/
def LoadKind.size : LoadKind → Nat
  | .ld => 4
  | .ldx => 8
  | .ldb => 1
  | .ldbs => 1
  | _ => 2

/-- The lengths of the first and second half of an access of `size` bytes at `va`; an aligned access has no second half. -/
def halves (va size : Nat) : Nat × Nat :=
  if va % size = 0 then (size, 0) else (size - va % size, va % size)

/-- Read `n` bytes at physical address `p` for core `c`, all in one ECC word. The core's own accepted stores have landed. -/
def readBytes (c : Nat) (a : Access') (p n : Nat) (ecc : WordEcc) (s : State) : Try (List Byte) :=
  if s.memoryWaits p then .wait
  else
    let x := s.coreAddr c p
    let s := if p < 0x40000 then s else s.landStores c
    if s.flashRefused p then .exc (a.fault 6 3) s
    else
    let r := s.eccRead x ecc
    if r.2 then .ok (r.1.bytesAt x n) r.1 else .exc (a.fault 6 2) r.1

/-- Write bytes at physical address `p`, at once. -/
def writeNow (c p : Nat) (bs : List Byte) (s : State) : Try Unit :=
  if s.memoryWaits p then .wait else .ok () ((s.landStores c).landBytes (s.coreAddr c p) bs .none)

/-- Write bytes to a core's own TCM. A part of a word is merged into it, and an uncorrectable error in the word read raises an
access fault (R262). -/
def writeTcm (c : Nat) (a : Access') (p : Nat) (bs : List Byte) (s : State) : Try Unit :=
  let x := s.coreAddr c p
  if 8 ≤ bs.length then .ok () (s.landBytes x bs .none)
  else
    let r := s.eccRead x .none
    if r.2 then .ok () (r.1.putBytes x bs) else .exc (a.fault 6 2) r.1

/-- A store by the access `a`: at once to the core's own TCMs; into the queue of accepted stores, which completes it (R295); but
one of device type to a memory completes only when it has landed there (R332). -/
def writeStore (c : Nat) (a : Access') (p : Nat) (bs : List Byte) (s : State) : Try Unit :=
  if p < 0x40000 then writeTcm c a p bs s
  else if s.deviceAt c a.va && decide (regionOf p ≠ .device) && decide (regionOf p ≠ .lawTable) then writeNow c p bs s
  else
    let t : Store := { addr := p, bytes := bs, key := s.keyAt c a.va, device := s.deviceAt c a.va, user := a.user }
    .ok () (s.setCore c { s.core c with stores := (s.core c).stores ++ [t] })

/-! ### Stack cells (R264 to R268, R316) -/

/-- The pointers of the stack-fault path reach the D-TCM without translation (R316). -/
def Core.direct (k : Core) (i : StackId) : Bool := i.super && k.emerg

/-- An 8-byte access of stack `i` at `va`: where it reaches. `user` says which rules apply. -/
def stackAccess (c : Nat) (i : StackId) (user write : Bool) (va : Nat) (s : State) : Try Nat :=
  let a : Access' := { va := va, size := 8, write := write, fetch := false, user := user, word := false }
  if (s.core c).direct i then
    if 0x20000 ≤ va ∧ va < 0x40000 then .ok va s else .exc (a.fault 6 1) s
  else translate c a s

/-- Write one cell of a stack to memory. -/
def spillCell (c : Nat) (i : StackId) (user : Bool) (va : Nat) (v : BitVec 64) (s : State) : Try Unit :=
  (stackAccess c i user true va s).bind fun p s =>
  writeNow c p (leBytes 8 v.toNat) (if (s.core c).direct i then s else setDirty c va s)

/-- Read one cell of a stack from memory. -/
def fillCell (c : Nat) (i : StackId) (user : Bool) (va : Nat) (s : State) : Try (BitVec 64) :=
  (stackAccess c i user false va s).bind fun p s =>
  let a : Access' := { va := va, size := 8, write := false, fetch := false, user := user, word := false }
  (readBytes c a p 8 .none s).bind fun bs s => .ok (BitVec.ofNat 64 (leNat bs)) s

/-- Replace stack `i`. -/
def State.setStack (s : State) (c : Nat) (i : StackId) (x : Stack) : State := s.setCore c ((s.core c).setStack i x)
def State.stack (s : State) (c : Nat) (i : StackId) : Stack := (s.core c).stack i

/-- The cached cells outside the addresses from `lo` up to `hi`. -/
def Stack.others (x : Stack) (lo hi : Nat) : SMap (BitVec 64) := x.cells.filter (fun p => decide (p.1 < lo) || decide (hi ≤ p.1))

/-- Place a cell in the cache. -/
def Stack.hold (x : Stack) (a : Nat) (v : BitVec 64) : Stack := { x with cells := mapInsert x.cells a v }

/-- Remove a cell from the cache. -/
def Stack.forget (x : Stack) (a : Nat) : Stack := { x with cells := mapErase x.cells a }

/-- Spill the cached cell with the highest address outside `lo` to `hi`, the cells that are being popped (R267). -/
def spillOne (c : Nat) (i : StackId) (user : Bool) (lo hi : Nat) (s : State) : Try Unit :=
  match ((s.stack c i).others lo hi).getLast? with
  | none => .ok () s
  | some (a, v) => (spillCell c i user a v s).bind fun _ s => .ok () (s.setStack c i ((s.stack c i).forget a))

/-- A cell as a fill brings it into the cache: a fill of a data stack ignores bytes 5 to 7 (R264). -/
def StackId.filled (i : StackId) (v : BitVec 64) : BitVec 64 :=
  match i with
  | .du => wide (narrow v)
  | .ds => wide (narrow v)
  | .ru => v
  | .rs => v

/-- Make the cell at address `a`, one of those from `lo` up to `hi`, cached, by a spill and a fill where it is not (R267). -/
def cacheCell (c : Nat) (i : StackId) (user : Bool) (lo hi a : Nat) (s : State) : Try Unit :=
  match (s.stack c i).cached a with
  | some _ => .ok () s
  | none =>
    (if (s.stack c i).cells.length < i.depth then .ok () s else spillOne c i user lo hi s).bind fun _ s =>
    (fillCell c i user a s).bind fun v s =>
    .ok () (s.setStack c i ((s.stack c i).hold a (i.filled v)))

/-- The stack fault of R265 on stack `i`, at pointer `ptr`. -/
def stackFault (i : StackId) (push : Bool) (ptr : Nat) : Exc :=
  { no := 10, detail := i.code + 4 * bit01 push, addr := ptr % 2 ^ 32, write := false, fetch := false, half2 := false, prg := 0 }

/-- `pops` pops, and then `pushes` pushes, pass the checks of R265; or the first fault. -/
def Stack.check (x : Stack) (i : StackId) (pops pushes : Nat) : Option Exc :=
  match (List.range pops).find? (fun j => decide (x.hi.toNat < x.ptr.toNat + 8 * (j + 1))) with
  | some j => some (stackFault i false (x.ptr.toNat + 8 * j))
  | none =>
    match (List.range pushes).find? (fun j => decide (x.ptr.toNat + 8 * pops < x.lo.toNat + 8 * (j + 1))) with
    | some j => some (stackFault i true (x.ptr.toNat + 8 * pops - 8 * j))
    | none => none

/-- The cells of `pops` pops are made cached, and room is made for the `pushes` pushes after them, so that the pops and
pushes themselves touch the cache only (R265, R267). -/
def prepare (c : Nat) (i : StackId) (user : Bool) (pops pushes : Nat) (s : State) : Try Unit :=
  match (s.stack c i).check i pops pushes with
  | some e => .exc e s
  | none =>
    let lo := (s.stack c i).ptr.toNat
    let hi := lo + 8 * pops
    (tryEach (fun j s => cacheCell c i user lo hi (lo + 8 * j) s) (List.range pops) s).bind fun _ s =>
    tryEach (fun j s => if ((s.stack c i).others lo hi).length + j < i.depth then .ok () s
      else spillOne c i user lo hi s) (List.range pushes) s

/-- The top cell, and the cells from the top: they are cached. -/
def Stack.top (x : Stack) (j : Nat) : BitVec 64 := (x.cached (x.ptr.toNat + 8 * j)).getD 0

/-- Pop one cell, which is cached. -/
def Stack.pop (x : Stack) : Stack := { x.forget x.ptr.toNat with ptr := x.ptr + 8 }

/-- Push one cell, for which there is room. -/
def Stack.push (x : Stack) (v : BitVec 64) : Stack := { x with ptr := x.ptr - 8, cells := mapInsert x.cells (x.ptr - 8).toNat v }

/-- Pop `n` cells. -/
def Stack.drop (x : Stack) : Nat → Stack
  | 0 => x
  | n + 1 => (x.pop).drop n

end Sys2Proof.Machine
end

