-- ==== Sys2Proof/Machine/Lockstep.lean ====
section
/-! DEFINITION. Locked pairs: the comparator and its injection test, the delay registers, detection, and the form of every step
that a primary takes and its checker repeats (R360 to R369). -/

namespace Sys2Proof.Machine

/-! ### The comparator (R363 to R365) -/

/-- The width of each group, and the place of its first bit among the 314 that are compared. -/
def groupWidth (g : Nat) : Nat :=
  match g with
  | 0 => 34
  | 1 => 44
  | 2 => 72
  | 3 => 48
  | 4 => 68
  | _ => 48

def groupStart (g : Nat) : Nat := ((List.range g).map groupWidth).sum

/-- The group of compared bit `b`. -/
def groupOf (b : Nat) : Nat := ((List.range 6).find? (fun g => decide (b < groupStart g + groupWidth g))).getD 5

/-- The bits of group `g` among the 314. -/
def groupBits (g : Nat) (d : BitVec 314) : Nat := d.toNat / 2 ^ groupStart g % 2 ^ groupWidth g

/-- A comparator in which nothing is broken. -/
def soundComparator : Comparator := { broken := 0, stuck := [] }

/-- The two-rail code that group `g` reports when the bits of `d` differ: a stuck node, and a broken one that a difference exercises,
give no code word (R364). -/
def railsOf (q : Comparator) (d : BitVec 314) (g : Nat) : Bool × Bool :=
  match q.stuck.find? (fun p => decide (p.1.val = g)) with
  | some p => (p.2, p.2)
  | none =>
    if groupBits g (d &&& q.broken) ≠ 0 then (false, false)
    else
      let differs := decide (groupBits g d ≠ 0)
      (!differs, differs)

/-- The injection test: a difference forced in each compared bit, in both polarities alike, reports in its own group alone, and
with no difference forced every group agrees (R365). -/
def injectionOk (q : Comparator) : Bool :=
  (List.range 6).all (fun g => decide (railsOf q 0 g = (true, false))) &&
    (List.range 314).all (fun b =>
      (List.range 6).all (fun g =>
        decide (railsOf q (BitVec.ofNat 314 (2 ^ b)) g = if g = groupOf b then (false, true) else (true, false))))

/-! ### What a core puts out (R363) -/

/-- The bytes outside the TCMs that `m'` holds otherwise than `m`. -/
def landedBytes (m m' : SMap Byte) : List (Nat × Byte) :=
  (m'.filter (fun p => !inTcmWindow p.1 && decide (mapGet (fun _ => 0) m p.1 ≠ p.2))) ++
    (m.filter (fun p => !inTcmWindow p.1 && decide (mapGet (fun _ => 0) m' p.1 = 0))).map (fun p => (p.1, 0))

/-- What the step from `k` to `k'` asks of the instruction cache and the TLB: the lines and the pages that leave them or come to them
(R363). -/
def cacheRequests (k k' : Core) : List Nat :=
  let lines := fun (a b : Core) => (a.icache.filter (fun l => !b.icache.any (fun m => decide (m.1 = l.1)))).map Prod.fst
  let pages := fun (a b : Core) =>
    (a.tlb.filter (fun t => !b.tlb.any (fun u => decide (u.seg = t.seg ∧ u.page = t.page)))).map (fun t => t.seg * 65536 + t.page)
  lines k k' ++ lines k' k ++ pages k k' ++ pages k' k

/-- A register whose load captures a snapshot (R199, R363). -/
def isSnapshot (a : Nat) : Bool := decide (A.RUN_SNAP_LO 0 ≤ a) && decide (a < A.RUN_SNAP_LO 128)

/-- What core `c` puts out in the instruction that took `s` to `s'`, where a block instruction reads at the addresses `reads`. The
requests of its spills and fills show in the cells that its stack caches hold, and the data of what it writes to memory at once in what
lands there. -/
def coreOut (c : Nat) (reads : List Nat) (s s' : State) : CoreOut :=
  let k := s.core c
  let k' := s'.core c
  let loads := match k'.loadWait with
    | some w => w.bytes.map (fun p => (p, w.kind.size, false, k.user, s.keyAt c w.va, s.deviceAt c w.va))
    | none => []
  { fetch := (s.probe c k.pc.toNat).toList.map (· / 8),
    reads := reads,
    landed := landedBytes s.mem s'.mem ++ landedBytes s.journal s'.journal,
    request := loads ++ k'.stores.map (fun t => (t.addr, t.bytes.length, true, t.user, t.key, t.device)),
    held := (k'.du.cells ++ k'.ds.cells ++ k'.ru.cells ++ k'.rs.cells).map (·.1),
    data := k'.stores.map (·.bytes),
    control := [k'.rlevel.toNat, bit01 k'.globalHold, k'.icFlags.toNat] ++ k'.en.flatMap (fun p => [p.1, p.2.toNat]) ++ cacheRequests k k',
    push := (k'.stores.filter (fun t => decide (A.RUN_PUSH_LO ≤ t.addr) && decide (t.addr < A.RUN_PUSH_HI 4))).map
      (fun t => (t.addr, t.bytes)) ++ (loads.filter (fun l => isSnapshot l.1)).map (fun l => (l.1, [])),
    pc := k'.pc, mode := k'.user, ie := k'.effective Psw.ie, wait := k'.waiting, halt := k'.halted, entry := k'.cause }

/-- The outputs of the two cores differ in group `g`. -/
def CoreOut.differs (p q : CoreOut) (g : Nat) : Bool :=
  match g with
  | 0 => decide (p.fetch ≠ q.fetch)
  | 1 => decide (p.request ≠ q.request) || decide (p.held ≠ q.held) || decide (p.reads ≠ q.reads) ||
      decide (p.landed.map Prod.fst ≠ q.landed.map Prod.fst)
  | 2 => decide (p.data ≠ q.data) || decide (p.landed ≠ q.landed)
  | 3 => decide (p.control ≠ q.control)
  | 4 => decide (p.push ≠ q.push)
  | _ => decide (p.pc ≠ q.pc) || (p.mode != q.mode) || (p.ie != q.ie) || (p.wait != q.wait) || (p.halt != q.halt) ||
      decide (p.entry ≠ q.entry)

/-- The compared bits that differ in one instruction: those that a fault inverts, and in each group in which the cores disagree
one bit, which the free value `v` chooses, since R363 gives no order of the bits in a group (log entry 85). -/
def DelayEntry.diff (e : DelayEntry) (v : Nat) : BitVec 314 :=
  (List.range 6).foldl (fun d g =>
    if e.primary.differs e.checker g then d ||| BitVec.ofNat 314 (2 ^ (groupStart g + v % groupWidth g)) else d) e.fault.flips

/-! ### Detection (R368, R369) -/

/-- LOCK_p.STATUS.STATE takes a value. -/
def setPairState (p st : Nat) (s : State) : State := s.setFld (A.LOCK_STATUS p) F.LOCK_STATUS_STATE st

def State.delayed (s : State) (p : Nat) : List DelayEntry := mapGet (fun _ => []) s.delays p
def State.setDelayed (s : State) (p : Nat) (q : List DelayEntry) : State :=
  { s with delays := mapSet (fun _ => []) s.delays p q }

/-- The record and the TCMs of checker `c`, as an instruction finds them (R360). -/
def State.checkerMark (s : State) (c : Nat) : CheckerMark :=
  let own := fun (a : Nat) => decide (tcmBase c ≤ a) && decide (a < tcmBase c + 0x40000)
  { core := s.core c, tcm := (s.mem.filter (fun p => own p.1)).map (fun p => (p.1 - tcmBase c, p.2)),
    poison := s.poison.filter own, upsets := s.upsets.filter (fun p => own p.1) }

/-- Checker `c` stands before an instruction that it has not executed. -/
def State.backTo (s : State) (c : Nat) (m : CheckerMark) : State :=
  let own := fun (a : Nat) => decide (tcmBase c ≤ a) && decide (a < tcmBase c + 0x40000)
  { s with
    cores := mapInsert s.cores c m.core,
    mem := m.tcm.foldl (fun x p => mapSet (fun _ => 0) x (tcmBase c + p.1) p.2) (s.mem.filter (fun p => !own p.1)),
    poison := m.poison.foldl (fun l a => noteUnit a l) (s.poison.filter (fun a => !own a)),
    upsets := m.upsets.foldl (fun x p => mapSet (fun _ => .none) x p.1 p.2) (s.upsets.filter (fun p => !own p.1)) }

/-- The checker of pair `p` has not executed the instructions that stand in the delay registers: it stops before the oldest
(R360, R368). -/
def stopChecker (p : Nat) (s : State) : State :=
  match s.delayed p with
  | [] => s
  | e :: _ => s.backTo (2 * p + 1) e.before

/-- The comparator of pair `p` reports in a group; both cores stop. A mismatch asks for arbitration; a comparator fault
holds the pair. After its first detection it reports nothing further. -/
def pairDetect (p cause group bit : Nat) (pc : Word) (s : State) : State :=
  if s.pairState p ≠ 1 ∨ s.bit (A.LOCK_MISMATCH p) F.LOCK_MISMATCH_VALID = true then s
  else
    let s := (s.setBit (A.LOCK_FLAGS p) F.LOCK_FLAGS_DETECTED).setFld (A.LOCK_STATUS p) F.LOCK_STATUS_CAUSE cause
    let s := s.setReg (A.LOCK_MISMATCH p)
      (fieldBits F.LOCK_MISMATCH_VALID 1 ||| fieldBits F.LOCK_MISMATCH_BIT bit ||| fieldBits F.LOCK_MISMATCH_GROUP group)
    let s := (s.setReg (A.LOCK_MISMATCH_PC p) pc).setReg (A.LOCK_TIME p) (s.timeBase.setWidth 32)
    let s := stopChecker p ((s.setCore (2 * p) { s.core (2 * p) with claim := none }))
    let s := s.setDelayed p []
    let s := if cause = 1 then
        (let s := setPairState p 2 (s.setFld (A.LOCK_STATUS p) F.LOCK_STATUS_OUTCOME 1)
         { s with assay := { s.assay with
             arbitrations := s.assay.arbitrations ++ [{ pair := p, queue := [24 + p], running := [], failed := [] }] } })
      else setPairState p 4 s
    quenchRequest (32 + p) { s with pairFault := s.pairFault ||| BitVec.ofNat 8 (2 ^ p) }

/-- The comparator compares one instruction: the lowest group that does not report agreement is recorded, and a non-code output
of any group makes the cause a comparator fault. -/
def compareEntry (p : Nat) (s : State) (e : DelayEntry) : State :=
  let d := e.diff s.free.toNat
  let s := if e.primary = e.checker then s else s.spent
  let rails := railsOf e.fault.comparator d
  match (List.range 6).find? (fun g => decide (rails g ≠ (true, false))) with
  | none => s
  | some g =>
    if (List.range 6).any (fun g => (rails g).1 == (rails g).2) then pairDetect p 2 g 0 e.pc s
    else
      let seen := groupBits g d
      pairDetect p 1 g (((List.range (groupWidth g)).find? (fun i => seen.testBit i)).getD 0) e.pc s

/-- An instruction enters the delay registers, and the one two before it, which the checker executes now, is compared. -/
def delayEntry (p : Nat) (e : DelayEntry) (s : State) : State :=
  match s.delayed p with
  | [a, b] => compareEntry p (s.setDelayed p [b, e]) a
  | q => s.setDelayed p (q ++ [e])

/-- The instructions in the delay registers of pair `p` are compared, the oldest first. -/
def drainPair (p : Nat) : List DelayEntry → State → State
  | [], s => s
  | e :: q, s => drainPair p q (compareEntry p (s.setDelayed p q) e)

/-- An rc is longer than 2 cc: what the delay registers hold is compared. -/
def drainDelays (s : State) : State := (List.range 8).foldl (fun s p => drainPair p (s.delayed p) s) s

/-! ### The checker (R360 to R362) -/

/-- The checker `k` of primary `m`, with what reaches it from the primary's controller and its store completions. -/
def Core.withPrimary (k m : Core) : Core :=
  { k with rlevel := m.rlevel, globalHold := m.globalHold, icClaim := m.icClaim, entryLevel := m.entryLevel, icFlags := m.icFlags,
           en := m.en, claim := m.claim, wakeLatch := m.wakeLatch, stores := m.stores }

/-- The record of a checker, which holds nothing of its primary's controller. -/
def Core.asChecker (k : Core) : Core := k.withPrimary Core.reset

/-- `m` with the 256 KiB from `src` of `m'` at `dst`. -/
def copyWindow {α : Type} (src dst : Nat) (m' m : SMap α) : SMap α :=
  m.filter (fun p => decide (p.1 < dst)) ++
    (m'.filter (fun p => decide (src ≤ p.1) && decide (p.1 < src + 0x40000))).map (fun p => (p.1 - src + dst, p.2)) ++
    m.filter (fun p => decide (dst + 0x40000 ≤ p.1))

def copyPoison (src dst : Nat) (l' l : List Nat) : List Nat :=
  l.filter (fun a => decide (a < dst)) ++
    (l'.filter (fun a => decide (src ≤ a) && decide (a < src + 0x40000))).map (fun a => a - src + dst) ++
    l.filter (fun a => decide (dst + 0x40000 ≤ a))

/-- `m` with the 256 KiB from `a` and from `b` exchanged. -/
def swapWindows {α : Type} (a b : Nat) (m : SMap α) : SMap α := copyWindow a b m (copyWindow b a m m)
def swapPoison (a b : Nat) (l : List Nat) : List Nat := copyPoison a b l (copyPoison b a l l)

/-- The device as the checker of primary `c` finds it: its own core and its own TCMs in the place of the primary's, and the primary's
TCMs in the place of its own, where a load through a window of the pair reads them (R361). -/
def State.asChecker (s : State) (c : Nat) : State :=
  { s with cores := mapInsert s.cores c ((s.core (c + 1)).withPrimary (s.core c)),
           mem := swapWindows (tcmBase c) (tcmBase (c + 1)) s.mem,
           poison := swapPoison (tcmBase c) (tcmBase (c + 1)) s.poison,
           upsets := swapWindows (tcmBase c) (tcmBase (c + 1)) s.upsets }

/-- The device after the primary's step `s1`, with the core and the TCMs of the checker after its own step `s2`: everything else
the checker's step does is discarded, but an error in its own TCM is reported. -/
def joinChecker (c : Nat) (s1 s2 : State) : State :=
  let s := if s2.eccReported && !s1.eccReported then s1.eccEvent else s1
  { s with cores := mapInsert s.cores (c + 1) (s2.core c).asChecker,
           mem := copyWindow (tcmBase c) (tcmBase (c + 1)) s2.mem s.mem,
           poison := copyPoison (tcmBase c) (tcmBase (c + 1)) s2.poison s.poison,
           upsets := copyWindow (tcmBase c) (tcmBase (c + 1)) s2.upsets s.upsets }

/-- No fault touches the comparison. -/
def noFault : CmpReport := { flips := 0, comparator := soundComparator }

/-- Core `c` takes the step `f`, if it can; the primary of a locked pair takes it, and its checker repeats it 2 cc later on the
inputs that the delay registers bring it (R360). The flag tells the checker's step, whose per-core samples are its own
(R366); `reads` gives the addresses at which a block instruction reads. -/
def pairedReads (c : Nat) (can : Bool) (fault : CmpReport) (reads : State → List Nat) (f : Bool → State → State) (s : State) : State :=
  if !can then s
  else if s.pairState (c / 2) = 1 then
    let q := s.asChecker c
    let s1 := f false s
    let s2 := f true q
    delayEntry (c / 2) { before := s.checkerMark (c + 1), pc := (q.core c).pc, primary := coreOut c (reads s) s s1,
                         checker := coreOut c (reads q) q s2, fault := fault }
      (joinChecker c s1 s2)
  else f false s

/-- The same for a step that is no block instruction. -/
def paired (c : Nat) (can : Bool) (fault : CmpReport) (f : Bool → State → State) (s : State) : State :=
  pairedReads c can fault (fun _ => []) f s

/-- The two cores of the pair of `c` agree, in their records and in their TCMs. -/
def State.agrees (s : State) (c : Nat) : Prop := s.pairState (c / 2) = 1 → s.asChecker c = s

end Sys2Proof.Machine
end

