-- ==== Sys2Proof/Machine/CoreEntry.lean ====
section
/-! DEFINITION. How a core goes from one instruction to the next: fetch, completion and the hardware loop, the load shadow,
exception and interrupt entry, the stack-fault path, return, interrupt claims and waking (R256 to R261, R276 to R280,
R299 to R324). -/

namespace Sys2Proof.Machine

/-! ### The load shadow (R276, R277) -/

/-- Loaded data lands in its cell: in the cache, or in memory if the cell has been spilled; it is discarded if the cell has
been popped. -/
def landCell (c : Nat) (sh : Option LoadShadow) (s : State) : State :=
  match sh with
  | none => s
  | some d =>
    let x := s.stack c d.stack
    if d.cell < x.ptr.toNat then s
    else
      match x.cached d.cell with
      | some _ => s.setStack c d.stack (x.hold d.cell (wide d.value))
      | none =>
        match spillCell c d.stack (s.core c).user d.cell (wide d.value) s with
        | .ok _ s => s
        | .exc _ s => s
        | .wait => s

/-! ### Entry (R308 to R316) -/

/-- What an entry saves and writes: the entry code, the saved PC and PRG, and for an exception CAUSE and FAULT_ADDR. -/
structure Entry where
  code : Nat
  pc : Word
  prg : Cell
  cause : Option (Word × Word)
deriving DecidableEq, Repr

/-- The three frame cells, PC cell first. -/
def frameCells (k : Core) (e : Entry) : List (BitVec 64) :=
  [BitVec.ofNat 64 (e.pc.toNat + e.code % 1024 * 2 ^ 32), BitVec.ofNat 64 (k.psw.toNat + k.rlevel.toNat * 2 ^ 32),
   BitVec.ofNat 64 e.prg.toNat]

/-- The three frame pushes lie in the window of the supervisor return stack. -/
def Stack.frameFits (x : Stack) : Bool := decide (x.lo.toNat + 24 ≤ x.ptr.toNat) && decide (x.ptr.toNat ≤ x.hi.toNat)

/-- Check, and then write, the three frame cells below address `p`. -/
def pushFrame (c p : Nat) (cells : List (BitVec 64)) (s : State) : Try Unit :=
  (tryEach (fun j s => (stackAccess c .rs false true (p - 8 * (j + 1)) s).bind fun _ s => .ok () s) [0, 1, 2] s).bind
    fun _ s =>
  tryEach (fun j s => spillCell c .rs false (p - 8 * (j + 1)) ((cells.drop j).head?.getD 0) s) [0, 1, 2] s

/-- MODE := 1, IE := 0 and LA := 0, committed and in effect. -/
def Core.handler (k : Core) : Core := ((k.setPsw Psw.mode true).setPsw Psw.ie false).setPsw Psw.la false

/-- A core in which nothing is in progress. -/
def Core.fresh (k : Core) : Core :=
  { k with prg := 0, prgLive := false, job := none, loadWait := none, waiting := false, claim := none, debugStep := false }

/-- The core halts: its shadow registers keep their contents, and Quench request 63 is raised (R318). -/
def haltCore (c : Nat) (s : State) : State :=
  quenchRequest 63 { s.setCore c { s.core c with halted := true, claim := none } with coreHalted := true }

/-- SHADOW_STATUS after a failed entry (R315, R327). -/
def shadowStatusOf (k : Core) (e : Entry) : Word :=
  BitVec.ofNat 32 (2 ^ 31 + 2 ^ 30 + k.rs.cells.length % 16 * 2 ^ 26 + k.ds.cells.length % 32 * 2 ^ 21 +
    k.rlevel.toNat * 2 ^ 16 + e.code % 1024)

/-- The stack-fault path, from supervisor return-stack pointer `p` (R315). -/
def stackPath (c : Nat) (e : Entry) (p : Word) (s : State) : State :=
  let k := s.core c
  if k.shadowValid then haltCore c s
  else
    let k := { k with shadowPc := e.pc, shadowPsw := k.psw, shadowPrg := e.prg, shadowStatus := shadowStatusOf k e,
                      ds := { ptr := 0x3FF80, lo := 0x3FF00, hi := 0x3FF80, cells := [] },
                      rs := { ptr := 0x40000, lo := 0x3FF80, hi := 0x40000, cells := [] } }
    let k := k.sync.handler.fresh
    s.setCore c { k with cause := BitVec.ofNat 32 (2 ^ 16 + 15 * 2 ^ 8 + 10), faultAddr := p, rlevel := 16,
                         pc := k.evbaseE + 320 }

/-- Enter at `vector` (read from the core after it has synchronised), with running level `level`; none while the memory of
the frame does not answer. -/
def enterCore (c : Nat) (e : Entry) (vector : Core → Word) (level : BitVec 5) (s : State) : Option State :=
  let k := s.core c
  let p := k.rs.ptr
  if !k.rs.frameFits then some (stackPath c e p s)
  else
    match pushFrame c p.toNat (frameCells k e) s with
    | .wait => none
    | .exc _ s => some (stackPath c e p s)
    | .ok _ s =>
      let k := s.core c
      let rs := ((k.rs.forget (p.toNat - 8)).forget (p.toNat - 16)).forget (p.toNat - 24)
      let k := { k with rs := { rs with ptr := p - 24 } }.sync.handler.fresh
      let k := match e.cause with
        | some w => { k with cause := w.1, faultAddr := w.2 }
        | none => k
      some (s.setCore c { k with rlevel := level, pc := vector k })

/-- CAUSE of an exception (R307, R327). -/
def Exc.causeWord (e : Exc) : Word :=
  BitVec.ofNat 32 (e.no + e.detail % 256 * 2 ^ 8 + bit01 e.write * 2 ^ 16 + bit01 e.fetch * 2 ^ 17 + bit01 e.half2 * 2 ^ 18)

/-- Take an exception: the saved PC is that of the instruction, or of the one after a TRAP (R308, R310). -/
def takeException (c : Nat) (e : Exc) (s : State) : Option State :=
  let k := s.core c
  let pc := if 16 ≤ e.no then k.pc + 2 else k.pc
  enterCore c { code := e.no, pc := pc, prg := e.prg, cause := some (e.causeWord, BitVec.ofNat 32 e.addr) }
    (fun k => k.evbaseE + BitVec.ofNat 32 (32 * e.no)) k.rlevel s

/-! ### Completion and the hardware loop (R278 to R280) -/

/-- Where an instruction goes when it has done its work. -/
inductive Flow where
  | next
  | jump (t : Word)
  /-- It has not completed: a long instruction, or a load that waits. -/
  | stay
  /-- RETI: it has set the PC. -/
  | ret
deriving DecidableEq, Repr

/-- Write LC with immediate effect; a value that waits for its synchronising event stays as written (R280). -/
def Core.countLoop (k : Core) : Core :=
  let n := k.lcE - 1
  let k := { k with lcE := n, lc := if k.pend.getLsbD 0 then k.lc else n }
  if n = 0 then
    { k with pswE := withBit k.pswE Psw.la false,
             psw := if k.pend.getLsbD 3 then k.psw else withBit k.psw Psw.la false }
  else k

/-- The PC after an instruction of `len` bytes that takes no branch (R279). -/
def Core.advance (k : Core) (len : Nat) : Core :=
  if k.effective Psw.la ∧ k.pc = k.leE then
    let k' := k.countLoop
    { k' with pc := if k'.lcE = 0 then k.pc + BitVec.ofNat 32 len else k.lsE }
  else { k with pc := k.pc + BitVec.ofNat 32 len }

/-- The instruction of `len` bytes leaves the fetch buffer; what the buffer keeps is of use if execution goes on with it (R257,
R258). -/
def Core.keepFetched (k : Core) (len : Nat) : Core :=
  let rest := k.fetched.drop len
  { k with fetched := if rest.head? = some k.pc.toNat then rest else [] }

/-- The instruction has completed; a taken branch discards the fetch buffer (R258). -/
def Core.complete (k : Core) (len : Nat) (f : Flow) : Core :=
  let k := { k with job := none, loadWait := none, debugStep := false }
  match f with
  | .next => (k.advance len).keepFetched len
  | .jump t => { k with pc := t, fetched := [] }
  | _ => k

/-! ### Fetch (R260, R261, R298) -/

/-- The 32-byte line of a physical address. -/
def lineOf (p : Nat) : Nat := p / 32

/-- Core `c` holds the line of `p` in its instruction cache. -/
def Core.hasLine (k : Core) (p : Nat) : Bool := k.icache.any (fun l => decide (l.1 = lineOf p))

/-- The line of `p` becomes the most recently used. -/
def Core.useLine (k : Core) (p : Nat) : Core :=
  { k with icache := k.icache.filter (fun l => decide (l.1 = lineOf p)) ++ k.icache.filter (fun l => decide (l.1 ≠ lineOf p)) }

/-- The instruction cache with line `l` of `bytes` as the most recently used of its set of four. -/
def fillLine (l : Nat) (bytes : List Byte) (cache : List (Nat × List Byte)) : List (Nat × List Byte) :=
  let rest := cache.filter (fun e => decide (e.1 ≠ l))
  let set := (rest.filter (fun e => decide (e.1 % 256 = l % 256))).take 3
  (l, bytes) :: rest.filter (fun e => decide (e.1 % 256 ≠ l % 256) || set.contains e)

/-- The ECC reads of the four words of line `l`, the first of which reports `ecc`: the state after them, and whether the line is
good (R335). -/
def readLine (l : Nat) (ecc : WordEcc) (s : State) : State × Bool :=
  (List.range 4).foldl (fun r j =>
    let x := r.1.eccRead (32 * l + 8 * j) (if j = 0 then ecc else .none)
    (x.1, r.2 && x.2)) (s, true)

/-- A miss at physical address `p` fills the whole line, unless it meets an uncorrectable error. -/
def fillMiss (c p : Nat) (ecc : WordEcc) (s : State) : State × Bool :=
  let r := readLine (lineOf p) ecc s
  if r.2 then
    (r.1.setCore c { r.1.core c with icache := fillLine (lineOf p) (r.1.bytesAt (lineOf p * 32) 32) (r.1.core c).icache }, true)
  else r

/-- The fetch buffer holds the byte at `va` under a translation or a line that has been removed since (R347). -/
def Core.buffered (k : Core) (va : Nat) : Bool := k.fetched.contains va

/-- Fetch one byte: from the fetch buffer, from the I-TCM, or through the instruction cache (R260, R261, R335, R383). -/
def fetchByte (c va : Nat) (s : State) : Try Unit :=
  let a : Access' := { va := va % 2 ^ 32, size := 1, write := false, fetch := true, user := (s.core c).user, word := false }
  if (s.core c).buffered a.va then .ok () s
  else
    (translate c a s).bind fun p s =>
    if p < 0x40000 then
      let r := s.eccRead (s.coreAddr c p) .none
      if r.2 then .ok () r.1 else .exc (a.fault 6 2) r.1
    else if (s.core c).hasLine p then .ok () (s.setCore c ((s.core c).useLine p))
    else if s.memoryWaits p then .wait
    else if s.flashRefused p then .exc (a.fault 6 3) s
    else
      let r := fillMiss c p .none s
      if r.2 then .ok () r.1 else .exc (a.fault 6 2) r.1

/-- The number of immediate bytes of opcode `op` (R284, R285). -/
def immediateBytes (op : Nat) : Nat :=
  match op with
  | 0x0A | 0x10 | 0x4A | 0x4B | 0x4C | 0x8F | 0x91 | 0x92 | 0x95 => 1
  | 0x11 | 0x13 | 0x60 | 0x61 | 0x62 | 0x80 | 0x81 | 0x82 | 0x83 | 0x84 | 0x85 | 0x86 | 0x87 | 0x88 | 0x8C | 0x8E => 2
  | 0x12 | 0x89 => 4
  | 0x8B => 6
  | _ => 0

/-- The byte that core `c` fetches at `va`: from its instruction cache or from memory. -/
def State.codeByte (s : State) (c va : Nat) : Byte :=
  match s.probe c va with
  | none => 0
  | some p =>
    match (s.core c).icache.find? (fun l => decide (l.1 = lineOf p)) with
    | some l => (l.2.drop (p % 32)).headD 0
    | none => s.byteAt (s.coreAddr c p)

/-- The addresses of the next `n` instructions' bytes in execution order, from a core that stands before the first: after the
instruction at LE it goes on at LS while the hardware loop loops back (R257, R279). -/
def State.executionOrder (s : State) (c : Nat) : Nat → Core → List Nat
  | 0, _ => []
  | n + 1, k =>
    let len := 1 + immediateBytes (s.codeByte c k.pc.toNat).toNat
    (List.range len).map (fun j => (k.pc.toNat + j) % 2 ^ 32) ++ s.executionOrder c n (k.advance len)

/-- The bytes of the fetch window of an instruction of `len` bytes, the 16 bytes that follow it in execution order, as far as they are
fetched without a fault (R257). -/
def State.aheadOf (s : State) (c len : Nat) : List Nat :=
  ((s.executionOrder c 16 ((s.core c).advance len)).take 16).takeWhile (fun va =>
    match fetchByte c va s with
    | .ok _ _ => true
    | _ => false)

/-- The work of an instruction of `len` bytes that removes translations or cache lines: the bytes already in the fetch buffer stay
as they were fetched, its own first (R257, R347). -/
def keepingFetch (c len : Nat) (body : State → Try Unit) (s : State) : Try Unit :=
  let own := (List.range len).map (fun j => (s.core c).pc.toNat + j)
  (body s).bind fun _ t => .ok () (t.setCore c { t.core c with fetched := own ++ s.aheadOf c len })

/-- Fetch the `len` bytes at `pc`, one after the other (R298). -/
def fetchCheck (c pc len : Nat) (s : State) : Try Unit := tryEach (fun j s => fetchByte c (pc + j) s) (List.range len) s

/-! ### One instruction -/

/-- KIND, STEP and DATA of PRG (R300). -/
def prgKind (p : Cell) : Nat := p.toNat / 2 ^ 36
def prgStep (p : Cell) : Nat := p.toNat / 2 ^ 32 % 16
def prgData (p : Cell) : Nat := p.toNat % 2 ^ 32
def prgOf (kind step data : Nat) : Cell := BitVec.ofNat 40 (kind * 2 ^ 36 + step % 16 * 2 ^ 32 + data % 2 ^ 32)

/-- A PRG mismatch (R301). -/
def mismatchExc (p : Cell) : Exc := { Exc.plain 1 1 with prg := p }

/-- PRG `p` is none that an instruction of KIND `kind` records: its KIND, STEP or DATA tells so before any operand is read; KIND 0
never matches (R301, R306). -/
def prgForeign (kind : Nat) (p : Cell) : Bool :=
  decide (kind = 0) || decide (prgKind p ≠ kind) ||
    (if kind = 1 then decide (prgStep p = 0) || decide (2 ^ (2 * prgStep p) ≤ prgData p)
     else decide (prgStep p ≠ 0) || (decide (kind = 5) && decide (prgData p ≠ 0)))

/-- The exception of an instruction that resumed with progress `p`: it saves that progress, unless it records its own
(R300, R310). -/
def Exc.keeping (p : Cell) (e : Exc) : Exc := { e with prg := if e.prg = 0 ∧ e.no ≠ 1 then p else e.prg }

/-- Core `c` may run an instruction of KIND `kind`: it executes, and no other long instruction is in progress. -/
def State.mayRun (s : State) (c kind : Nat) : Bool :=
  s.executes c &&
    (match (s.core c).job with
     | none => true
     | some p => decide (prgKind p = kind))

/-- The progress with which an instruction starts: that of the present attempt, or the PRG that RETI restored (R301). -/
def Core.progress (k : Core) : Cell :=
  match k.job with
  | some p => p
  | none => if k.prgLive then k.prg else 0

/-- The core as the instruction finds it: PRG has been consulted, and the shadow of an earlier load is set aside. -/
def Core.begin' (k : Core) : Core :=
  { k with prg := if k.prgLive then 0 else k.prg, prgLive := false, shadow := none }

/-- Core `c` executes one instruction of `len` bytes whose work is `body`, which gets the progress recorded for it. `kind` is
the KIND under which PRG may resume it, 0 for none. A DIV replaces both its operands after the cc of the load shadow has ended,
so a load whose shadow it is leaves no trace in the cell of the quotient (R276, R277). -/
def coreRun (c len kind : Nat) (body : Cell → State → Try Flow) (s : State) : State :=
  if !s.mayRun c kind then s
  else
    let k := s.core c
    let land := landCell c k.shadow
    match fetchCheck c k.pc.toNat len s with
    | .wait => s
    | .exc e s' => (takeException c { e with prg := k.progress } (land (s'.setCore c (s'.core c).begin'))).getD s
    | .ok _ s' =>
      let p := k.progress
      let s1 := s'.setCore c (s'.core c).begin'
      match (if p ≠ 0 ∧ prgForeign kind p = true then .exc (mismatchExc p) s1 else body p s1) with
      | .wait => s
      | .exc e s2 => (takeException c (e.keeping p) (land s2)).getD s
      | .ok .stay s2 => s2.setCore c { s2.core c with shadow := k.shadow }
      | .ok f s2 =>
        let s3 := s2.setCore c ((s2.core c).complete len f)
        if kind = 1 then s3 else land s3

/-- An instruction of core `c`, and of its checker (R360), which reads memory at the addresses `reads`. -/
def coreInstrReads (c len kind : Nat) (reads : State → List Nat) (body : Cell → State → Try Flow) (s : State) : State :=
  pairedReads c (s.mayRun c kind) noFault reads (fun _ => coreRun c len kind body) s

/-- An instruction that is no block instruction. -/
def coreInstr (c len kind : Nat) (body : Cell → State → Try Flow) (s : State) : State :=
  coreInstrReads c len kind (fun _ => []) body s

/-- An instruction that ignores PRG. -/
def plainInstr (c len : Nat) (body : State → Try Flow) (s : State) : State := coreInstr c len 0 (fun _ s => body s) s

/-! ### Interrupts (R320 to R324) -/

/-- The controller claims the eligible source that arbitration chooses, and prepares its vector. -/
def interruptClaim (c : Nat) (s : State) : State :=
  let k := s.core c
  if s.coreOn c && k.effective Psw.ie && !k.globalHold && k.claim.isNone then
    match s.arbitrate c k.rlevel.toNat with
    | none => s
    | some i => s.setCore c { k with claim := some { source := i, vector := k.ivbaseE + BitVec.ofNat 32 (32 * i) } }
  else s

/-- The claimed vector is presented, and the core enters the handler. -/
def enterClaimed (c : Nat) (s : State) : State :=
  let k := s.core c
  match k.claim with
  | none => s
  | some q =>
    if s.coreOn c then
      let e : Entry := { code := 32 + q.source, pc := k.pc, prg := k.progress, cause := none }
      let s1 := s.setCore c { k with shadow := none, icClaim := BitVec.ofNat 32 (32 + q.source) }
      match enterCore c e (fun _ => q.vector) (BitVec.ofNat 5 (s.prio c q.source + 1)) (landCell c k.shadow s1) with
      | none => s
      | some s =>
        if (s.core c).halted then s
        else s.setCore c { s.core c with entryLevel := BitVec.ofNat 32 (q.source + bit01 (s.source q.source) * 2 ^ 16) }
    else s

/-- A checker enters each interrupt with its primary (R362). -/
def interruptEntry (c : Nat) (s : State) : State :=
  paired c (s.coreOn c && (s.core c).claim.isSome) noFault (fun _ => enterClaimed c) s

/-- With IE at 0, a core in its wait state goes on when an enabled source is pending (R299). -/
def waitExit (c : Nat) (s : State) : State :=
  let k := s.core c
  paired c (s.coreOn c && k.waiting && !k.effective Psw.ie && (s.arbitrate c 0).isSome) noFault
    (fun _ s => s.setCore c { s.core c with waiting := false }) s

/-! ### Return (R311) -/

/-- The cell of stack `i` at `va`, from the cache or from memory, which allocates nothing. -/
def peekCell (c : Nat) (i : StackId) (user : Bool) (va : Nat) (s : State) : Try (BitVec 64) :=
  match (s.stack c i).cached va with
  | some v => .ok v s
  | none => fillCell c i user va s

/-- The three pops of RETI and what they restore. -/
def retiBody (c : Nat) (s : State) : Try Flow :=
  let k := s.core c
  if k.user then .exc Exc.privilege s
  else
    match k.rs.check .rs 3 0 with
    | some e => .exc e s
    | none =>
      let p := k.rs.ptr.toNat
      (peekCell c .rs false p s).bind fun prg s =>
      (peekCell c .rs false (p + 8) s).bind fun psw s =>
      (peekCell c .rs false (p + 16) s).bind fun pc s =>
      let k := s.core c
      let w := psw.setWidth 32 &&& pswMask
      let level := psw.toNat / 2 ^ 32 % 32
      let k := { k with rs := k.rs.drop 3, psw := w, pswE := w }.sync
      .ok .ret (s.setCore c { k with pc := pc.setWidth 32, rlevel := BitVec.ofNat 5 (min level 16), prg := narrow prg,
                                     prgLive := true })

end Sys2Proof.Machine
end

