-- ==== Sys2Proof/Machine/CoreStack.lean ====
section
/-! DEFINITION. Core instructions over the data stack: the shared form of every instruction that pops and pushes cells, and
the stack, literal and frame instructions (R284 to R290). -/

namespace Sys2Proof.Machine

/-! ### The shared form -/

/-- What an instruction makes of the core and its operands: the core with its new flags, the cells it pushes, deepest
first, and where it goes; or an exception. -/
abbrev Work := Except Exc (Core × List Cell × Flow)

/-- Leave the core and push the cells. -/
def pushes (k : Core) (r : List Cell) : Work := .ok (k, r, .next)

/-- The `n` top cells of a stack, top first. -/
def Stack.args (x : Stack) (n : Nat) : List Cell := (List.range n).map (fun j => narrow (x.top j))

/-- Push cells, deepest first. -/
def Stack.pushAll (x : Stack) : List Cell → Stack
  | [] => x
  | v :: vs => (x.push (wide v)).pushAll vs

/-- Operand `j` from the top. -/
def arg (l : List Cell) (j : Nat) : Cell := (l.drop j).head?.getD 0

/-- An instruction that pops `pops` cells of the current data stack, passes them to `f`, and pushes `outs` cells. -/
def dataOp (c pops outs : Nat) (f : Core → List Cell → Work) (s : State) : Try Flow :=
  let i := (s.core c).dataId
  (prepare c i (s.core c).user pops outs s).bind fun _ s =>
  let k := s.core c
  match f k ((k.stack i).args pops) with
  | .error e => .exc e s
  | .ok (k', r, flow) => .ok flow (s.setCore c (k'.setStack i (((k'.stack i).drop pops).pushAll r)))

/-- Operands by name: one, two or three cells, the deepest first. -/
def with1 (f : Core → Cell → Work) (k : Core) (l : List Cell) : Work := f k (arg l 0)
def with2 (f : Core → Cell → Cell → Work) (k : Core) (l : List Cell) : Work := f k (arg l 1) (arg l 0)
def with3 (f : Core → Cell → Cell → Cell → Work) (k : Core) (l : List Cell) : Work := f k (arg l 2) (arg l 1) (arg l 0)

/-- An instruction of `len` bytes over one, two or three cells. -/
def instr0 (c len outs : Nat) (f : Core → Work) : State → State := plainInstr c len (dataOp c 0 outs (fun k _ => f k))
def instr1 (c len outs : Nat) (f : Core → Cell → Work) : State → State := plainInstr c len (dataOp c 1 outs (with1 f))
def instr2 (c len outs : Nat) (f : Core → Cell → Cell → Work) : State → State := plainInstr c len (dataOp c 2 outs (with2 f))
def instr3 (c len outs : Nat) (f : Core → Cell → Cell → Cell → Work) : State → State :=
  plainInstr c len (dataOp c 3 outs (with3 f))

/-- An instruction whose immediate is reserved raises ILLEGAL (R286). -/
def legalOnly (bad : Bool) (body : State → Try Flow) (s : State) : Try Flow := if bad then .exc Exc.illegal s else body s

/-! ### PICK and the frame registers -/

/-- PICK n: the cell is read from the cache or from memory, which leaves the caches unchanged but for the push (R290). -/
def pickBody (c n : Nat) (s : State) : Try Flow :=
  let k := s.core c
  let i := k.dataId
  let a := (k.stack i).ptr.toNat + 8 * n
  if (k.stack i).hi.toNat < a + 8 then .exc (stackFault i false (k.stack i).ptr.toNat) s
  else
    match (k.stack i).check i 0 1 with
    | some e => .exc e s
    | none =>
      (peekCell c i k.user a s).bind fun v s =>
      (prepare c i k.user 0 1 s).bind fun _ s =>
      .ok .next (s.setStack c i ((s.stack c i).push (wide (narrow v))))

/-! ### The commands -/

def execNop (c : Fin 16) (s : State) : Host.Outcome State Fault Refusal := .next (instr0 c 1 0 (fun k => pushes k []) s)
def execDrop (c : Fin 16) (s : State) : Host.Outcome State Fault Refusal := .next (instr1 c 1 0 (fun k _ => pushes k []) s)
def execDup (c : Fin 16) (s : State) : Host.Outcome State Fault Refusal := .next (instr1 c 1 2 (fun k a => pushes k [a, a]) s)
def execStackSwap (c : Fin 16) (s : State) : Host.Outcome State Fault Refusal :=
  .next (instr2 c 1 2 (fun k a b => pushes k [b, a]) s)
def execStackOver (c : Fin 16) (s : State) : Host.Outcome State Fault Refusal :=
  .next (instr2 c 1 3 (fun k a b => pushes k [a, b, a]) s)
def execRot (c : Fin 16) (s : State) : Host.Outcome State Fault Refusal :=
  .next (instr3 c 1 3 (fun k x y z => pushes k [y, z, x]) s)
def execNip (c : Fin 16) (s : State) : Host.Outcome State Fault Refusal := .next (instr2 c 1 1 (fun k _ b => pushes k [b]) s)
def execTuck (c : Fin 16) (s : State) : Host.Outcome State Fault Refusal :=
  .next (instr2 c 1 3 (fun k a b => pushes k [b, a, b]) s)
def execDrop2 (c : Fin 16) (s : State) : Host.Outcome State Fault Refusal := .next (instr2 c 1 0 (fun k _ _ => pushes k []) s)
def execDup2 (c : Fin 16) (s : State) : Host.Outcome State Fault Refusal :=
  .next (instr2 c 1 4 (fun k a b => pushes k [a, b, a, b]) s)
def execPick (c : Fin 16) (k : Byte) (s : State) : Host.Outcome State Fault Refusal :=
  .next (plainInstr c 2 (legalOnly (decide (16 ≤ k.toNat)) (pickBody c k.toNat)) s)
def execLit8 (c : Fin 16) (i : Byte) (s : State) : Host.Outcome State Fault Refusal :=
  .next (instr0 c 2 1 (fun k => pushes k [i.signExtend 40]) s)
def execLit16 (c : Fin 16) (i : BitVec 16) (s : State) : Host.Outcome State Fault Refusal :=
  .next (instr0 c 3 1 (fun k => pushes k [i.signExtend 40]) s)
def execLit32 (c : Fin 16) (i : Word) (s : State) : Host.Outcome State Fault Refusal :=
  .next (instr0 c 5 1 (fun k => pushes k [i.signExtend 40]) s)
def execLith (c : Fin 16) (i : BitVec 16) (s : State) : Host.Outcome State Fault Refusal :=
  .next (instr0 c 3 1 (fun k => pushes k [i.signExtend 40 <<< 16]) s)
def execFrd (c r : Fin 16) (s : State) : Host.Outcome State Fault Refusal :=
  .next (instr0 c 1 1 (fun k => pushes k [k.frame r]) s)
def execFwr (c r : Fin 16) (s : State) : Host.Outcome State Fault Refusal :=
  .next (instr1 c 1 0 (fun k x => pushes (k.setFrame r x) []) s)

end Sys2Proof.Machine
end

