-- ==== Sys2Proof/Machine/CoreArith.lean ====
section
/-! DEFINITION. The arithmetic, logical, comparison, CRC, parity and bit-reversal instructions of a core, and DIV
(R272 to R275, R291 to R294, R302). -/

namespace Sys2Proof.Machine

/-! ### Flags (R273) -/

/-- An exact result takes its cell: V, and SV and saturation under the effective SAT, or the overflow exception. -/
def fit (k : Core) (x : Int) : Except Exc (Core × Cell) :=
  let v := decide (x < cellMin) || decide (cellMax < x)
  if v && k.effective Psw.ove then .error (Exc.plain 4 0)
  else
    let k := k.setPsw Psw.v v
    if v && k.effective Psw.sat then .ok (k.setPsw Psw.sv true, BitVec.ofInt 40 (satCell x))
    else .ok (k, BitVec.ofInt 40 x)

/-- Push an exact result. -/
def result (k : Core) (x : Int) : Work :=
  match fit k x with
  | .error e => .error e
  | .ok (k, v) => pushes k [v]

/-- Push an exact result, and set C. -/
def resultC (k : Core) (x : Int) (carry : Bool) : Work :=
  match fit k x with
  | .error e => .error e
  | .ok (k, v) => pushes (k.setPsw Psw.c carry) [v]

/-- The low word of a cell, as an unsigned number. -/
def lowWord (a : Cell) : Nat := a.toNat % 2 ^ 32

/-- round(a × b / 2^31), by the effective PSW.RND. -/
def Core.product (k : Core) (a b : Cell) : Int := roundShift k.rnd (a.toInt * b.toInt) 31

/-- A condition value (R275). -/
def cond (b : Bool) : Cell := if b then 1 else 0

/-! ### DIV (R302) -/

/-- A cell clamped to 32 bits, and whether the clamp changed it. -/
def clampWord (a : Cell) : Int × Bool := (satWord a.toInt, decide (satWord a.toInt ≠ a.toInt))

/-- The recorded progress `p` is possible for n and d (R301). -/
def divMatches (n d : Int) (p : Cell) : Bool :=
  let t := prgStep p
  let rem : Int := ((n.natAbs / 2 ^ (32 - 2 * t) : Nat) : Int) - (prgData p : Int) * d.natAbs
  decide (1 ≤ t) && decide (prgData p < 2 ^ (2 * t)) && decide (0 ≤ rem) && decide (rem < d.natAbs)

/-- The quotient and remainder replace the operands; V and C are cleared. -/
def divDone (k : Core) (n d : Int) (clamped : Bool) : Work :=
  let k := if clamped then k.setPsw Psw.sv true else k
  pushes ((k.setPsw Psw.v false).setPsw Psw.c false) [BitVec.ofInt 40 (n.tmod d), BitVec.ofInt 40 (n.tdiv d)]

/-- Run up to `steps` of the 16 radix-4 steps after the progress `p`. -/
def divBody (c steps : Nat) (p : Cell) (s : State) : Try Flow :=
  let i := (s.core c).dataId
  (prepare c i (s.core c).user 2 2 s).bind fun _ s =>
  let k := s.core c
  let l := (k.stack i).args 2
  let n := clampWord (arg l 1)
  let d := clampWord (arg l 0)
  if p ≠ 0 ∧ divMatches n.1 d.1 p = false then .exc (mismatchExc p) s
  else if d.1 = 0 then
    if k.effective Psw.dze then .exc (Exc.plain 3 0) s
    else
      let k := if n.2 then k.setPsw Psw.sv true else k
      let k := (k.setPsw Psw.v false).setPsw Psw.c true
      .ok .next (s.setCore c (k.setStack i (((k.stack i).drop 2).pushAll [BitVec.ofInt 40 n.1, 0])))
  else
    let t := prgStep p + steps
    if 16 ≤ t then
      match divDone k n.1 d.1 (n.2 || d.2) with
      | .error e => .exc e s
      | .ok (k, r, f) => .ok f (s.setCore c (k.setStack i (((k.stack i).drop 2).pushAll r)))
    else
      let q := n.1.natAbs / 2 ^ (32 - 2 * t) / d.1.natAbs
      .ok .stay (s.setCore c { k with job := if t = 0 then none else some (prgOf 1 t q) })

/-! ### CRCs (R294) -/

/-- The mode and polynomial of a CRC instruction are reserved. -/
def crcReserved (m p : Byte) : Bool := decide (3 ≤ m.toNat) || (decide (m.toNat < 2) && decide (p ≠ 0))

/-- The width of the CRC register. -/
def crcWidth (m : Byte) : Nat := if m = 0 then 32 else if m = 1 then 16 else 8

/-- One step over one byte. -/
def crcStep (m p : Byte) (r b : Nat) : Nat :=
  if m = 0 then crcByte 0xEDB88320 r b else if m = 1 then crcMsbByte 16 0x1021 r b else crcMsbByte 8 p.toNat r b

/-- A run of bytes from the register in the cell `crc`. -/
def crcRun (m p : Byte) (crc : Cell) (bs : List Nat) : Cell :=
  BitVec.ofNat 40 (bs.foldl (crcStep m p) (crc.toNat % 2 ^ crcWidth m))

/-- The first `n` bytes of a cell, in little-endian order. -/
def cellBytes (n : Nat) (x : Cell) : List Nat := (List.range n).map (fun j => x.toNat / 256 ^ j % 256)

/-! ### The commands -/

def execAdd (c : Fin 16) (s : State) : Host.Outcome State Fault Refusal :=
  .next (instr2 c 1 1 (fun k a b => resultC k (a.toInt + b.toInt) (decide (2 ^ 32 ≤ lowWord a + lowWord b))) s)
def execSub (c : Fin 16) (s : State) : Host.Outcome State Fault Refusal :=
  .next (instr2 c 1 1 (fun k a b => resultC k (a.toInt - b.toInt) (decide (lowWord a < lowWord b))) s)
def execNeg (c : Fin 16) (s : State) : Host.Outcome State Fault Refusal :=
  .next (instr1 c 1 1 (fun k a => resultC k (-a.toInt) (decide (0 < lowWord a))) s)
def execAbs (c : Fin 16) (s : State) : Host.Outcome State Fault Refusal :=
  .next (instr1 c 1 1 (fun k a => result k a.toInt.natAbs) s)
def execMulq (c : Fin 16) (s : State) : Host.Outcome State Fault Refusal :=
  .next (instr2 c 1 1 (fun k a b => result k (k.product a b)) s)
def execMuli (c : Fin 16) (s : State) : Host.Outcome State Fault Refusal :=
  .next (instr2 c 1 1 (fun k a b => result k (a.toInt * b.toInt)) s)
def execMacq (c : Fin 16) (s : State) : Host.Outcome State Fault Refusal :=
  .next (instr3 c 1 1 (fun k acc a b => result k (acc.toInt + k.product a b)) s)
def execMsuq (c : Fin 16) (s : State) : Host.Outcome State Fault Refusal :=
  .next (instr3 c 1 1 (fun k acc a b => result k (acc.toInt - k.product a b)) s)
def execMin (c : Fin 16) (s : State) : Host.Outcome State Fault Refusal :=
  .next (instr2 c 1 1 (fun k a b => pushes k [if a.toInt ≤ b.toInt then a else b]) s)
def execMax (c : Fin 16) (s : State) : Host.Outcome State Fault Refusal :=
  .next (instr2 c 1 1 (fun k a b => pushes k [if a.toInt ≤ b.toInt then b else a]) s)
def execShl (c : Fin 16) (k : Byte) (s : State) : Host.Outcome State Fault Refusal :=
  .next (plainInstr c 2 (legalOnly (decide (32 ≤ k.toNat))
    (dataOp c 1 1 (with1 (fun x a => result x (a.toInt * 2 ^ k.toNat))))) s)
def execShr (c : Fin 16) (k : Byte) (s : State) : Host.Outcome State Fault Refusal :=
  .next (plainInstr c 2 (legalOnly (decide (32 ≤ k.toNat))
    (dataOp c 1 1 (with1 (fun x a => result x (roundShift x.rnd a.toInt k.toNat))))) s)
def execLsr (c : Fin 16) (k : Byte) (s : State) : Host.Outcome State Fault Refusal :=
  .next (plainInstr c 2 (legalOnly (decide (32 ≤ k.toNat))
    (dataOp c 1 1 (with1 (fun x a => pushes x [BitVec.ofNat 40 (lowWord a / 2 ^ k.toNat)])))) s)
def execSatw (c : Fin 16) (s : State) : Host.Outcome State Fault Refusal :=
  .next (instr1 c 1 1 (fun k a =>
    pushes (if (clampWord a).2 then k.setPsw Psw.sv true else k) [BitVec.ofInt 40 (clampWord a).1]) s)
def execDiv (c : Fin 16) (steps : Nat) (s : State) : Host.Outcome State Fault Refusal :=
  .next (coreInstr c 1 1 (divBody c steps) s)
def execLim (c : Fin 16) (s : State) : Host.Outcome State Fault Refusal :=
  .next (instr3 c 1 1 (fun k x lo hi =>
    let v := limit x.toInt lo.toInt hi.toInt
    pushes (k.setPsw Psw.c (decide (v ≠ x.toInt))) [BitVec.ofInt 40 v]) s)

def execAnd (c : Fin 16) (s : State) : Host.Outcome State Fault Refusal := .next (instr2 c 1 1 (fun k a b => pushes k [a &&& b]) s)
def execOr (c : Fin 16) (s : State) : Host.Outcome State Fault Refusal := .next (instr2 c 1 1 (fun k a b => pushes k [a ||| b]) s)
def execXor (c : Fin 16) (s : State) : Host.Outcome State Fault Refusal := .next (instr2 c 1 1 (fun k a b => pushes k [a ^^^ b]) s)
def execNot (c : Fin 16) (s : State) : Host.Outcome State Fault Refusal := .next (instr1 c 1 1 (fun k a => pushes k [~~~a]) s)
def execCeq (c : Fin 16) (s : State) : Host.Outcome State Fault Refusal :=
  .next (instr2 c 1 1 (fun k a b => pushes k [cond (decide (a = b))]) s)
def execCne (c : Fin 16) (s : State) : Host.Outcome State Fault Refusal :=
  .next (instr2 c 1 1 (fun k a b => pushes k [cond (decide (a ≠ b))]) s)
def execClt (c : Fin 16) (s : State) : Host.Outcome State Fault Refusal :=
  .next (instr2 c 1 1 (fun k a b => pushes k [cond (decide (a.toInt < b.toInt))]) s)
def execCle (c : Fin 16) (s : State) : Host.Outcome State Fault Refusal :=
  .next (instr2 c 1 1 (fun k a b => pushes k [cond (decide (a.toInt ≤ b.toInt))]) s)
def execCgt (c : Fin 16) (s : State) : Host.Outcome State Fault Refusal :=
  .next (instr2 c 1 1 (fun k a b => pushes k [cond (decide (b.toInt < a.toInt))]) s)
def execCge (c : Fin 16) (s : State) : Host.Outcome State Fault Refusal :=
  .next (instr2 c 1 1 (fun k a b => pushes k [cond (decide (b.toInt ≤ a.toInt))]) s)
def execCltu (c : Fin 16) (s : State) : Host.Outcome State Fault Refusal :=
  .next (instr2 c 1 1 (fun k a b => pushes k [cond (decide (lowWord a < lowWord b))]) s)
def execCz (c : Fin 16) (s : State) : Host.Outcome State Fault Refusal :=
  .next (instr1 c 1 1 (fun k a => pushes k [cond (decide (a = 0))]) s)
def execCn (c : Fin 16) (s : State) : Host.Outcome State Fault Refusal :=
  .next (instr1 c 1 1 (fun k a => pushes k [cond (decide (a.toInt < 0))]) s)

def execCrcb (c : Fin 16) (m p : Byte) (s : State) : Host.Outcome State Fault Refusal :=
  .next (plainInstr c 3 (legalOnly (crcReserved m p)
    (dataOp c 2 1 (with2 (fun k crc x => pushes k [crcRun m p crc (cellBytes 1 x)])))) s)
def execCrcw (c : Fin 16) (m p : Byte) (s : State) : Host.Outcome State Fault Refusal :=
  .next (plainInstr c 3 (legalOnly (crcReserved m p)
    (dataOp c 2 1 (with2 (fun k crc x => pushes k [crcRun m p crc (cellBytes 4 x)])))) s)
def execPar (c : Fin 16) (s : State) : Host.Outcome State Fault Refusal :=
  .next (instr1 c 1 1 (fun k a => pushes k [BitVec.ofNat 40 (parity32 a.toNat)]) s)
def execBrev8 (c : Fin 16) (s : State) : Host.Outcome State Fault Refusal :=
  .next (instr1 c 1 1 (fun k a => pushes k [BitVec.ofNat 40 (bitReverse 8 a.toNat)]) s)
def execBrev16 (c : Fin 16) (s : State) : Host.Outcome State Fault Refusal :=
  .next (instr1 c 1 1 (fun k a => pushes k [BitVec.ofNat 40 (bitReverse 16 a.toNat)]) s)
def execBrev32 (c : Fin 16) (s : State) : Host.Outcome State Fault Refusal :=
  .next (instr1 c 1 1 (fun k a => pushes k [BitVec.ofNat 40 (bitReverse 32 a.toNat)]) s)

end Sys2Proof.Machine
end

