-- ==== Sys2Proof/Machine/CoreFlow.lean ====
section
/-! DEFINITION. The branch, call, loop, trap and return instructions of a core, and its interrupt commands
(R269 to R271, R278, R298, R304 to R324). -/

namespace Sys2Proof.Machine

/-! ### Branches -/

/-- The target of a branch: `o` bytes from the instruction after a branch of `len` bytes. -/
def Core.branchTo (k : Core) (len : Nat) (o : BitVec 16) : Word := k.pc + BitVec.ofNat 32 len + o.signExtend 32

/-- A three-byte branch that is taken when `b` holds. -/
def branch (k : Core) (o : BitVec 16) (b : Bool) : Work := .ok (k, [], if b then .jump (k.branchTo 3 o) else .next)

/-- A flag branch on bit `i` of the PSW, taken when the flag is `want`. -/
def flagBranch (c i : Nat) (want : Bool) (o : BitVec 16) : State → State :=
  instr0 c 3 0 (fun k => branch k o (k.effective i == want))

/-- The low word of a cell as an address. -/
def target (a : Cell) : Word := a.setWidth 32

/-! ### CALL and RET (R269 to R271) -/

/-- The frame registers that a mask names, lowest first. -/
def maskRegs (m : BitVec 16) : List Nat := (List.range 16).filter (fun i => m.getLsbD i)

/-- The link cell. -/
def linkCell (ret : Word) (m : BitVec 16) : BitVec 64 := (0#16) ++ m ++ ret

/-- Push cells one by one; when a spill faults, the pointer and the stack are as before the first push. -/
def pushEach (c : Nat) (i : StackId) (user : Bool) (cells : List (BitVec 64)) (s : State) : Try Unit :=
  let old := (s.stack c i).ptr
  match tryEach (fun v s =>
      (if (s.stack c i).cells.length < i.depth then .ok () s else spillOne c i user 0 0 s).bind fun _ s =>
      .ok () (s.setStack c i ((s.stack c i).push v))) cells s with
  | .ok _ s => .ok () s
  | .wait => .wait
  | .exc e s =>
    let x := s.stack c i
    .exc e (s.setStack c i { x with ptr := old, cells := x.cells.filter (fun p =>
      !(decide (p.1 < old.toNat) && decide (old.toNat ≤ p.1 + 8 * cells.length))) })

/-- The pushes of a call with mask `m` from an instruction of `len` bytes. -/
def callPush (c len : Nat) (m : BitVec 16) (s : State) : Try Unit :=
  let k := s.core c
  let cells := (maskRegs m).map (fun i => wide (k.frame i)) ++ [linkCell (k.pc + BitVec.ofNat 32 len) m]
  match (k.stack k.retId).check k.retId 0 cells.length with
  | some e => .exc e s
  | none => pushEach c k.retId k.user cells s

def callBody (c : Nat) (m : BitVec 16) (t : Word) (s : State) : Try Flow :=
  (callPush c 7 m s).bind fun _ s => .ok (.jump t) s

/-- CALLI pops its target, and then calls it. The stack faults of its pop and of its pushes come before any fault of a fill
(R306). -/
def calliBody (c : Nat) (m : BitVec 16) (s : State) : Try Flow :=
  let k := s.core c
  match (k.stack k.dataId).check k.dataId 1 0 with
  | some e => .exc e s
  | none =>
    match (k.stack k.retId).check k.retId 0 ((maskRegs m).length + 1) with
    | some e => .exc e s
    | none =>
      (prepare c k.dataId k.user 1 0 s).bind fun _ s =>
      (callPush c 3 m s).bind fun _ s =>
      let x := s.stack c k.dataId
      .ok (.jump (target (narrow (x.top 0)))) (s.setStack c k.dataId x.pop)

/-- The cell at address `a`, which is popped next, from the cache or by a fill; the cells below it have been popped (R267). -/
def popCell (c : Nat) (i : StackId) (user : Bool) (a : Nat) (s : State) : Try (BitVec 64) :=
  match (s.stack c i).cached a with
  | some v => .ok v s
  | none =>
    (if ((s.stack c i).others 0 a).length < i.depth then .ok () s else spillOne c i user 0 a s).bind fun _ s =>
    (fillCell c i user a s).bind fun v s =>
    .ok (i.filled v) (s.setStack c i ((s.stack c i).hold a (i.filled v)))

/-- Pop the cells of the registers in the list from address `a` upward into the frame registers. -/
def restoreFrames (c : Nat) (i : StackId) (user : Bool) : List Nat → Nat → State → Try (List (Nat × Cell))
  | [], _, s => .ok [] s
  | r :: rs, a, s =>
    (popCell c i user a s).bind fun v s =>
    (restoreFrames c i user rs (a + 8) s).bind fun l s => .ok ((r, narrow v) :: l) s

/-- The stack after pops that were given up: the cells that `old` held are back, and of those that have been filled as many stand
as the cache of `depth` cells takes (R267, R271). -/
def Stack.keepFills (old x : Stack) (depth : Nat) : Stack :=
  let kept := x.cells.filter (fun p => (old.cached p.1).isSome)
  let fills := (x.cells.filter (fun p => (old.cached p.1).isNone)).take (depth - kept.length)
  { x with cells := x.cells.filter (fun p => (old.cached p.1).isSome || fills.any (fun q => decide (q.1 = p.1))) }

/-- RET: the pops of the link and of the frame registers; RSP moves only when every one has succeeded. -/
def retPops (c : Nat) (s : State) : Try Flow :=
  let k := s.core c
  let i := k.retId
  match (k.stack i).check i 1 0 with
  | some e => .exc e s
  | none =>
    let p := (k.stack i).ptr.toNat
    (popCell c i k.user p s).bind fun link s =>
    let regs := (maskRegs ((link >>> 32).setWidth 16)).reverse
    match ((s.core c).stack i).check i (regs.length + 1) 0 with
    | some e => .exc e s
    | none =>
      (restoreFrames c i k.user regs (p + 8) s).bind fun l s =>
      let k := s.core c
      let k := l.foldl (fun k q => k.setFrame q.1 q.2) k
      .ok (.jump (link.setWidth 32)) (s.setCore c (k.setStack i ((k.stack i).drop (regs.length + 1))))

def retBody (c : Nat) (s : State) : Try Flow :=
  let i := (s.core c).retId
  match retPops c s with
  | .exc e t => .exc e (t.setStack c i ((s.stack c i).keepFills (t.stack c i) i.depth))
  | r => r

/-! ### LOOP (R278) -/

/-- LS, LE, LC and LA take their values at once. -/
def Core.loop (k : Core) (n : Word) (u : BitVec 16) : Core :=
  let ls := k.pc + 3
  let le := ls + u.setWidth 32
  { k.setPsw Psw.la true with lc := n, lcE := n, ls := ls, lsE := ls, le := le, leE := le, pend := 0 }

/-! ### The commands -/

def execBr (c : Fin 16) (o : BitVec 16) (s : State) : Host.Outcome State Fault Refusal :=
  .next (instr0 c 3 0 (fun k => branch k o true) s)
def execBz (c : Fin 16) (o : BitVec 16) (s : State) : Host.Outcome State Fault Refusal :=
  .next (instr1 c 3 0 (fun k f => branch k o (decide (f = 0))) s)
def execBnz (c : Fin 16) (o : BitVec 16) (s : State) : Host.Outcome State Fault Refusal :=
  .next (instr1 c 3 0 (fun k f => branch k o (decide (f ≠ 0))) s)
def execBv (c : Fin 16) (o : BitVec 16) (s : State) : Host.Outcome State Fault Refusal := .next (flagBranch c Psw.v true o s)
def execBnv (c : Fin 16) (o : BitVec 16) (s : State) : Host.Outcome State Fault Refusal := .next (flagBranch c Psw.v false o s)
def execBc (c : Fin 16) (o : BitVec 16) (s : State) : Host.Outcome State Fault Refusal := .next (flagBranch c Psw.c true o s)
def execBnc (c : Fin 16) (o : BitVec 16) (s : State) : Host.Outcome State Fault Refusal := .next (flagBranch c Psw.c false o s)
def execBsv (c : Fin 16) (o : BitVec 16) (s : State) : Host.Outcome State Fault Refusal := .next (flagBranch c Psw.sv true o s)
def execBnsv (c : Fin 16) (o : BitVec 16) (s : State) : Host.Outcome State Fault Refusal :=
  .next (flagBranch c Psw.sv false o s)
def execJmp (c : Fin 16) (t : Word) (s : State) : Host.Outcome State Fault Refusal :=
  .next (instr0 c 5 0 (fun k => .ok (k, [], .jump t)) s)
def execJmpi (c : Fin 16) (s : State) : Host.Outcome State Fault Refusal :=
  .next (instr1 c 1 0 (fun k t => .ok (k, [], .jump (target t))) s)
def execCall (c : Fin 16) (mask : BitVec 16) (t : Word) (s : State) : Host.Outcome State Fault Refusal :=
  .next (plainInstr c 7 (callBody c mask t) s)
def execCalli (c : Fin 16) (mask : BitVec 16) (s : State) : Host.Outcome State Fault Refusal :=
  .next (plainInstr c 3 (calliBody c mask) s)
def execRet (c : Fin 16) (s : State) : Host.Outcome State Fault Refusal := .next (plainInstr c 1 (retBody c) s)
def execLoop (c : Fin 16) (u : BitVec 16) (s : State) : Host.Outcome State Fault Refusal :=
  .next (instr1 c 3 0 (fun k n => .ok (k.loop (target n) u, [], .jump (k.pc + 3))) s)
def execTrap (c : Fin 16) (k : Byte) (s : State) : Host.Outcome State Fault Refusal :=
  .next (plainInstr c 2 (fun s => .exc (if k.toNat < 16 then Exc.plain (16 + k.toNat) 0 else Exc.illegal) s) s)
def execReti (c : Fin 16) (s : State) : Host.Outcome State Fault Refusal := .next (plainInstr c 1 (retiBody c) s)

/-- An opcode byte that R285 leaves undefined. -/
def opcodeUndefined (op : Byte) : Bool :=
  let n := op.toNat
  decide (0x0D ≤ n ∧ n < 0x10) || decide (0x14 ≤ n ∧ n < 0x20) || decide (0x5D ≤ n ∧ n < 0x60) ||
    decide (0x67 ≤ n ∧ n < 0x70) || decide (0x7D ≤ n ∧ n < 0x80) || decide (0x99 ≤ n)

def execUndefinedOpcode (c : Fin 16) (op : Byte) (s : State) : Host.Outcome State Fault Refusal :=
  .next (if opcodeUndefined op then plainInstr c 1 (fun s => .exc Exc.illegal s) s else s)
def execInterruptClaim (c : Fin 16) (s : State) : Host.Outcome State Fault Refusal := .next (interruptClaim c s)
def execInterruptEntry (c : Fin 16) (s : State) : Host.Outcome State Fault Refusal := .next (interruptEntry c s)
def execWaitExit (c : Fin 16) (s : State) : Host.Outcome State Fault Refusal := .next (waitExit c s)

end Sys2Proof.Machine
end

