-- ==== Sys2Proof/Machine/CoreSystem.lean ====
section
/-! DEFINITION. Control registers, and the system instructions of a core (R259, R261, R268, R281 to R283, R299, R316, R317,
R327, R347, R356, R377). -/

namespace Sys2Proof.Machine

/-! ### The control registers (R281, R327, R356, R377) -/

/-- A control-register number is assigned. -/
def crAssigned (n : Nat) : Bool :=
  decide (n ≤ 0x04) || decide (0x08 ≤ n ∧ n ≤ 0x0B) || decide (0x10 ≤ n ∧ n ≤ 0x19) || decide (0x20 ≤ n ∧ n ≤ 0x2D) ||
    decide (0x30 ≤ n ∧ n ≤ 0x3B) || decide (0x40 ≤ n ∧ n ≤ 0x63) || decide (n = 0x80)

/-- User mode may read, or write, control register `n`. -/
def crUserRead (n : Nat) : Bool :=
  decide (n = 0x00) || decide (0x02 ≤ n ∧ n ≤ 0x04) || decide (n = 0x08) || decide (n = 0x0A) || decide (n = 0x18) ||
    decide (n = 0x19) || decide (n = 0x60)
def crUserWrite (n : Nat) : Bool :=
  decide (n = 0x00) || decide (0x02 ≤ n ∧ n ≤ 0x04) || decide (n = 0x08) || decide (n = 0x0A)

/-- The stack of a pointer register 0x08 to 0x0B, and of a window register 0x10 to 0x17. -/
def ptrStack (n : Nat) : StackId := if n = 0x08 then .du else if n = 0x09 then .ds else if n = 0x0A then .ru else .rs
def limStack (n : Nat) : StackId :=
  if n < 0x12 then .du else if n < 0x14 then .ds else if n < 0x16 then .ru else .rs

/-- STK_STATUS. -/
def Core.stkStatus (k : Core) : Word :=
  BitVec.ofNat 32 (k.rs.cells.length % 16 * 2 ^ 24 + k.ru.cells.length % 16 * 2 ^ 16 + k.ds.cells.length % 32 * 2 ^ 8 +
    k.du.cells.length % 32)

/-- PAIR_STATE of core record `c` (R377). -/
def State.pairStateWord (s : State) (c : Nat) : Word :=
  let p := c / 2
  let first := s.coreRecord c
  let limp := if s.fld (A.LOCK_STATUS p) F.LOCK_STATUS_OUTCOME = 3 then 2 * p + 1 else 2 * p
  match s.pairState p with
  | 0 => BitVec.ofNat 32 (16 * c)
  | 3 => BitVec.ofNat 32 (16 * limp + 2)
  | 4 => BitVec.ofNat 32 (16 * first + 3)
  | _ => BitVec.ofNat 32 (16 * first + 1)

/-- TLB_CFG. -/
def Core.tlbCfg (k : Core) : Word :=
  BitVec.ofNat 32 (k.tlb.length % 256 * 2 ^ 16 + k.locked % 32 * 2 ^ 8 + bit01 k.lockFull * 4 + bit01 k.lockFill)

/-- A 32-bit register as a cell. -/
def word40 (w : Word) : Cell := w.signExtend 40

/-- What an MFC of control register `n` reads; a committed SY value is read as written (R12, R259). -/
def State.readCr (s : State) (c n : Nat) : Cell :=
  let k := s.core c
  if n = 0x00 then word40 k.psw
  else if n = 0x01 then k.prg
  else if n = 0x02 then word40 k.lc
  else if n = 0x03 then word40 k.ls
  else if n = 0x04 then word40 k.le
  else if n ≤ 0x0B then word40 (k.stack (ptrStack n)).ptr
  else if n ≤ 0x17 then word40 (if n % 2 = 0 then (k.stack (limStack n)).lo else (k.stack (limStack n)).hi)
  else if n = 0x18 then word40 (BitVec.ofNat 32 (s.coreRecord c))
  else if n = 0x19 then word40 k.stkStatus
  else if n = 0x20 then word40 k.evbase
  else if n = 0x21 then word40 k.ivbase
  else if n = 0x22 then word40 k.cause
  else if n = 0x23 then word40 k.faultAddr
  else if n = 0x24 then word40 k.shadowPc
  else if n = 0x25 then word40 k.shadowPsw
  else if n = 0x26 then k.shadowPrg
  else if n = 0x27 then word40 k.shadowStatus
  else if n = 0x28 then word40 (k.rlevel.setWidth 32)
  else if n = 0x29 then word40 (BitVec.ofNat 32 (bit01 k.globalHold))
  else if n = 0x2A then word40 k.icClaim
  else if n = 0x2B then word40 k.entryLevel
  else if n = 0x2C then word40 (s.icTop c)
  else if n = 0x2D then word40 k.icFlags
  else if n ≤ 0x3B then word40 (mapGet (fun _ => 0) k.en (n - 0x30))
  else if n ≤ 0x5F then word40 (mapGet segReset k.seg (n - 0x40))
  else if n = 0x60 then word40 k.pkr
  else if n = 0x61 then word40 k.walkInfo
  else if n = 0x62 then word40 k.walkInfoHi
  else if n = 0x63 then word40 k.tlbCfg
  else word40 (s.pairStateWord c)

/-- An MFC of SHADOW_PRG clears SHADOW_STATUS.VALID (R317). -/
def Core.shadowRead (k : Core) : Core := { k with shadowStatus := withBit k.shadowStatus 31 false }

/-- A write of the PSW: V, C, SV, RND and SAT take effect at once, the rest at the next synchronising event (R259, R283). -/
def Core.writePsw (k : Core) (w : Word) : Core :=
  let w := w &&& pswMask
  { k with psw := w, pswE := (k.pswE &&& ~~~pswNow) ||| (w &&& pswNow), pend := k.pend ||| 8 }

/-- The word `w` with bits [2:0] zero: a stack pointer or a bound. -/
def align8 (w : Word) : Word := w &&& 0xFFFFFFF8

/-- A bound of a window. -/
def Core.writeLimit (k : Core) (n : Nat) (w : Word) : Core :=
  let x := k.stack (limStack n)
  k.setStack (limStack n) (if n % 2 = 0 then { x with lo := align8 w } else { x with hi := align8 w })

/-- Writing 1 to UNLOCK_ALL removes every locked entry (R347). -/
def Core.unlockAll (k : Core) : Core := { k with tlb := k.tlb.filter (fun t => !t.locked) }

/-- A write of TLB_CFG. -/
def Core.writeTlbCfg (k : Core) (w : Word) : Core :=
  let k := { k with lockFill := w.getLsbD 0, lockFull := k.lockFull && !w.getLsbD 2 }
  if w.getLsbD 1 then k.unlockAll else k

/-- A write of SHADOW_STATUS with bit 30 set ends emergency addressing (R317). -/
def Core.emergClear (k : Core) (w : Word) : Core :=
  if w.getLsbD 30 then { k with shadowStatus := withBit k.shadowStatus 30 false } else k

/-- A write of IC_RLEVEL: 17 to 31 are reserved and refused (R16, R327). -/
def Core.writeLevel (k : Core) (w : Word) : Core :=
  if w.toNat % 32 ≤ 16 then { k with rlevel := BitVec.ofNat 5 (w.toNat % 32) } else { k with icFlags := k.icFlags ||| 1 }

/-- The defined bits of SEG_n_BASE and SEG_n_CTRL. -/
def segMask (j : Nat) : Word := if j % 2 = 0 then 0xFFFFFF00 else 0xFFFF0F7D

/-- What an MTC of `v` to control register `n` writes; a read-only register ignores it (R12). -/
def Core.writeCr (k : Core) (n : Nat) (v : Cell) : Core :=
  let w : Word := v.setWidth 32
  if n = 0x00 then k.writePsw w
  else if n = 0x01 then { k with prg := v }
  else if n = 0x02 then { k with lc := w, pend := k.pend ||| 1 }
  else if n = 0x03 then { k with ls := w, pend := k.pend ||| 2 }
  else if n = 0x04 then { k with le := w, pend := k.pend ||| 4 }
  else if n ≤ 0x0B then k.setStack (ptrStack n) { k.stack (ptrStack n) with ptr := align8 w }
  else if n ≤ 0x17 then k.writeLimit n w
  else if n = 0x20 then { k with evbase := w &&& 0xFFFFFC00 }
  else if n = 0x21 then { k with ivbase := w &&& 0xFFFFC000 }
  else if n = 0x27 then k.emergClear w
  else if n = 0x28 then k.writeLevel w
  else if n = 0x29 then { k with globalHold := w.getLsbD 0 }
  else if n = 0x2D then { k with icFlags := k.icFlags &&& ~~~(w &&& 5) }
  else if 0x30 ≤ n ∧ n ≤ 0x3B then { k with en := mapSet (fun _ => 0) k.en (n - 0x30) w }
  else if 0x40 ≤ n ∧ n ≤ 0x5F then
    { k with seg := mapSet segReset k.seg (n - 0x40) (w &&& segMask n),
             segPend := k.segPend ||| BitVec.ofNat 16 (2 ^ ((n - 0x40) / 2)) }
  else if n = 0x60 then { k with pkr := w }
  else if n = 0x63 then k.writeTlbCfg w
  else k

/-! ### MFC and MTC -/

/-- MFC pushes the register; user mode may read only what R281 opens. -/
def mfcBody (c n : Nat) (s : State) : Try Flow :=
  let k := s.core c
  if !crAssigned n then .exc Exc.illegal s
  else if k.user && !crUserRead n then .exc Exc.privilege s
  else
    (prepare c k.dataId k.user 0 1 s).bind fun _ s =>
    let v := s.readCr c n
    let k := s.core c
    let k := if n = 0x26 then k.shadowRead else k
    .ok .next (s.setCore c (k.setStack k.dataId ((k.stack k.dataId).push (wide v))))

/-- A user-mode write of the PSW would change MODE, IE, DZE or OVE (R282). -/
def pswForbidden (k : Core) (v : Cell) : Bool := decide ((v.setWidth 32 ^^^ k.psw) &&& 0x01010300 ≠ 0)

/-- MTC pops a cell into the register. -/
def mtcBody (c n : Nat) (s : State) : Try Flow :=
  let k := s.core c
  if !crAssigned n then .exc Exc.illegal s
  else if k.user && !crUserWrite n then .exc Exc.privilege s
  else
    (prepare c k.dataId k.user 1 0 s).bind fun _ s =>
    let k := s.core c
    let v := narrow ((k.stack k.dataId).top 0)
    if k.user && decide (n = 0) && pswForbidden k v then .exc Exc.privilege s
    else
      let write := fun (s : State) =>
        Try.ok () (s.setCore c (((s.core c).setStack k.dataId (k.stack k.dataId).pop).writeCr n v))
      (if n = 0x63 then keepingFetch c 2 write s else write s).bind fun _ s => .ok .next s

/-! ### The system instructions (R299) -/

/-- An instruction that raises a privilege violation in user mode. -/
def supervisor (c : Nat) (body : State → Try Flow) (s : State) : Try Flow :=
  if (s.core c).user then .exc Exc.privilege s else body s

/-- TLBINV: pop an address, and the entry that translates it leaves the TLB. -/
def tlbinvBody (c : Nat) (s : State) : Try Unit :=
  let k := s.core c
  (prepare c k.dataId k.user 1 0 s).bind fun _ s =>
  let x := s.stack c k.dataId
  let a := (target (narrow (x.top 0))).toNat
  let s := s.setStack c k.dataId x.pop
  .ok () (s.setCore c { s.core c with
    tlb := (s.core c).tlb.filter (fun t => !(decide (t.seg = segOf a) && decide (t.page = pageOf a))) })

/-- ICINV: the line that holds the address leaves the cache. -/
def icinvBody (c : Nat) (s : State) : Try Unit :=
  let k := s.core c
  (prepare c k.dataId k.user 1 0 s).bind fun _ s =>
  let x := s.stack c k.dataId
  let a : Access' := { va := (target (narrow (x.top 0))).toNat, size := 1, write := false, fetch := false, user := false,
                       word := true }
  (translate c a s).bind fun p s =>
  let k := s.core c
  .ok () (s.setCore c { k.setStack k.dataId (k.stack k.dataId).pop with
    icache := k.icache.filter (fun l => decide (l.1 ≠ lineOf p)) })

/-- A supervisor instruction of one byte that removes translations or cache lines, and completes. -/
def removing (c : Nat) (body : State → Try Unit) (s : State) : Try Flow :=
  supervisor c (fun s => (keepingFetch c 1 body s).bind fun _ s => .ok .next s) s

/-- The cache that SFLUSH names. -/
def flushStack (b : Nat) : StackId := if b = 0 then .du else if b = 1 then .ds else if b = 2 then .ru else .rs

/-- SFLUSH: every cell of the cache is written to memory, the highest address first (R268). -/
def sflushBody (c b : Nat) (s : State) : Try Flow :=
  let k := s.core c
  let i := flushStack b
  if 4 ≤ b then .exc Exc.illegal s
  else if k.user && i.super then .exc Exc.privilege s
  else
    (tryEach (fun (p : Nat × BitVec 64) s =>
        (spillCell c i k.user p.1 p.2 s).bind fun _ s => .ok () (s.setStack c i ((s.stack c i).forget p.1)))
      (k.stack i).cells.reverse s).bind fun _ s => .ok .next s

/-- A COPY that core `c` started is still running (R351). -/
def State.copying (s : State) (c : Nat) : Bool :=
  s.ladles.any (fun p => decide (p.2.starter = some c) && s.bit (A.LD_STATUS p.1) F.LD_STATUS_BUSY)

/-- A store of core `c` waits for a read port of the Law Table (R225). -/
def State.tableStoring (s : State) (c : Nat) : Bool := s.tableQ.any (fun t => decide (t.reader = c))

/-- FENCE completes when every store and every Ladle request of the core has landed (R299). -/
def fenceBody (c : Nat) (s : State) : Try Flow :=
  if (s.core c).stores = [] ∧ s.tableStoring c = false ∧ s.copying c = false then .ok .next s else .wait

/-! ### Cache fills (R261) -/

/-- What the ECC reports of the first word that a fill reads. -/
def lineEcc : LineReport → WordEcc
  | .corrected => .corrected
  | .uncorrectable => .uncorrectable
  | _ => .none

/-- A parity error invalidates the line of `p` (R262). -/
def Core.dropLine (k : Core) (p : Nat) : Core := { k with icache := k.icache.filter (fun l => decide (l.1 ≠ lineOf p)) }

/-- A miss at virtual address `va` fills the whole line, and so does a parity error in a line that is held. -/
def lineFill (c va : Nat) (report : LineReport) (s : State) : State :=
  let a : Access' := { va := va, size := 1, write := false, fetch := true, user := (s.core c).user, word := false }
  match translate c a s with
  | .ok p s' =>
    if decide (regionOf p = .sram) || decide (regionOf p = .dram) || decide (regionOf p = .flash) then
      let t := if report = .parity then s'.setCore c ((s'.core c).dropLine p) else s'
      if (t.core c).hasLine p then s
      else if t.memoryWaits p || t.flashRefused p then (if report = .parity then t else s)
      else (fillMiss c p (lineEcc report) t).1
    else s
  | _ => s

/-- A fill of a primary's cache brings the line to its checker's too (R360). -/
def icacheFill (c va : Nat) (ecc : LineReport) (s : State) : State := paired c (s.coreOn c) noFault (fun _ => lineFill c va ecc) s

/-! ### The commands -/

/-- SYNC. DESIGN CHOICE (log entry 105): a SYNC that lies at LE synchronises first, so that the loop-back of its own completion uses the
values it has just put into effect (R279, R280). -/
def execSync (c : Fin 16) (s : State) : Host.Outcome State Fault Refusal :=
  .next (plainInstr c 1 (fun s => .ok .next (s.setCore c (s.core c).sync)) s)
def execWait (c : Fin 16) (s : State) : Host.Outcome State Fault Refusal :=
  .next (plainInstr c 1 (supervisor c (fun s => .ok .next (s.setCore c { s.core c with waiting := true }))) s)
def execMfc (c : Fin 16) (n : Byte) (s : State) : Host.Outcome State Fault Refusal :=
  .next (plainInstr c 2 (mfcBody c n.toNat) s)
def execMtc (c : Fin 16) (n : Byte) (s : State) : Host.Outcome State Fault Refusal :=
  .next (plainInstr c 2 (mtcBody c n.toNat) s)
def execShadowPrgRead (c : Fin 16) (s : State) : Host.Outcome State Fault Refusal :=
  .next (plainInstr c 2 (mfcBody c 0x26) s)
def execEmergClear (c : Fin 16) (s : State) : Host.Outcome State Fault Refusal :=
  .next (plainInstr c 2 (mtcBody c 0x27) s)
def execUnlockAll (c : Fin 16) (s : State) : Host.Outcome State Fault Refusal :=
  .next (plainInstr c 2 (mtcBody c 0x63) s)
def execIcinv (c : Fin 16) (s : State) : Host.Outcome State Fault Refusal :=
  .next (plainInstr c 1 (removing c (icinvBody c)) s)
def execIcinva (c : Fin 16) (s : State) : Host.Outcome State Fault Refusal :=
  .next (plainInstr c 1 (removing c (fun s => .ok () (s.setCore c { s.core c with icache := [] }))) s)
def execSflush (c : Fin 16) (b : Byte) (s : State) : Host.Outcome State Fault Refusal :=
  .next (plainInstr c 2 (sflushBody c b.toNat) s)
def execTlbinv (c : Fin 16) (s : State) : Host.Outcome State Fault Refusal :=
  .next (plainInstr c 1 (removing c (tlbinvBody c)) s)
def execTlbinva (c : Fin 16) (s : State) : Host.Outcome State Fault Refusal :=
  .next (plainInstr c 1 (removing c (fun s => .ok () (s.setCore c { s.core c with
    tlb := (s.core c).tlb.filter (·.locked) }))) s)
def execFence (c : Fin 16) (s : State) : Host.Outcome State Fault Refusal := .next (plainInstr c 1 (fenceBody c) s)
def execIcacheFill (c : Fin 16) (addr : Word) (ecc : LineReport) (s : State) : Host.Outcome State Fault Refusal :=
  .next (icacheFill c addr.toNat ecc s)

end Sys2Proof.Machine
end

