-- ==== Sys2Proof/Machine/CoreBlock.lean ====
section
/-! DEFINITION. The block instructions of a core: BMOV, BCRC and BMAC, which stop between units and resume (R300, R301,
R303). -/

namespace Sys2Proof.Machine

/-- The count of a block instruction: the cell's value clamped to 0 to 2^30 − 1. -/
def blockCount (v : Cell) : Nat := (clampInt 0 (2 ^ 30 - 1) v.toInt).toNat

/-- One unit's access at `va`. -/
def State.unitAt (s : State) (c va : Nat) (write : Bool) : Access' :=
  { va := va % 2 ^ 32, size := 4, write := write, fetch := false, user := (s.core c).user, word := false }

/-- The region of physical address `p` accepts one unit's access. A unit in a device region raises an access fault (R306, log entry
30). -/
def unitRegion (c : Nat) (a : Access') (p : Nat) (s : State) : Try Nat :=
  if s.deviceAt c a.va then .exc (a.fault 6 1) s else regionCheck a p s

/-- Read `n` bytes of one unit, whose access `a` has been translated to `p`. -/
def unitBytes (c : Nat) (a : Access') (p n : Nat) (s : State) : Try (List Byte) :=
  (unitRegion c a p s).bind fun p s => readBytes c a p n .none s

/-- Read `n` bytes of one unit. -/
def unitRead (c va n : Nat) (s : State) : Try (List Byte) :=
  let a := s.unitAt c va false
  (mapAddr c a s).bind fun p s => unitBytes c a p n s

/-- The order of the faults of one unit (R306): WALK, TRANSLATION, PKEY, ACCESS. -/
def Exc.rank (e : Exc) : Nat :=
  match e.no with
  | 9 => 0
  | 7 => 1
  | 8 => 2
  | _ => 3

/-- The two accesses of one unit are translated: a fault of either comes before an access fault of both, and of two faults the first in
the order of R306 is raised, the first access's where they are alike. -/
def unitPair (c : Nat) (a b : Access') (s : State) : Try (Nat × Nat) :=
  match mapAddr c a s with
  | .wait => .wait
  | .ok p s => (mapAddr c b s).bind fun q s => .ok (p, q) s
  | .exc e t =>
    match mapAddr c b t with
    | .exc f u => if f.rank < e.rank then .exc f u else .exc e t
    | _ => .exc e t

/-- The three operands, deepest first: they are cached. -/
def State.blockArgs (s : State) (c : Nat) : Cell × Cell × Cell :=
  let l := ((s.core c).stack (s.core c).dataId).args 3
  (arg l 2, arg l 1, arg l 0)

/-- Write the deepest operand, an accumulator. -/
def setAcc (c : Nat) (v : Cell) (s : State) : State :=
  let k := s.core c
  let x := k.stack k.dataId
  s.setCore c (k.setStack k.dataId (x.hold (x.ptr.toNat + 16) (wide v)))

/-- The three operands leave, and cells are pushed. -/
def blockDone (c : Nat) (r : List Cell) (s : State) : State :=
  let k := s.core c
  s.setCore c (k.setStack k.dataId (((k.stack k.dataId).drop 3).pushAll r))

/-- The instruction stops after `done` of its units, with that progress. -/
def blockStop (c kind done : Nat) (s : State) : State :=
  s.setCore c { s.core c with job := if done = 0 then none else some (prgOf kind 0 done) }

/-- The recorded progress `p` is possible for a count of `n` (R301). -/
def blockMatches (p : Cell) (n : Nat) : Bool := decide (p = 0) || (decide (prgStep p = 0) && decide (prgData p < n))

/-- The result of running some units from `done` on: how many are done, and whether the unit after them raised an exception. -/
inductive Units where
  | ran (done : Nat) (s : State)
  | faulted (done : Nat) (e : Exc) (s : State)
  | waits (done : Nat) (s : State)
deriving DecidableEq, Repr

/-- Run up to `budget` units, each from `done` to the value that `unit` answers, until `done` reaches `n`. -/
def runUnits (unit : Nat → State → Try Nat) (n : Nat) : Nat → Nat → State → Units
  | 0, done, s => .ran done s
  | budget + 1, done, s =>
    if n ≤ done then .ran done s
    else
      match unit done s with
      | .ok d s => runUnits unit n budget d s
      | .exc e s => .faulted done e s
      | .wait => .waits done s

/-- One block instruction of KIND `kind`, which pops three cells and pushes `outs`: `check` raises what precedes its units, `unit`
handles one, and `finish` replaces the operands. -/
def blockBody (c kind outs budget : Nat) (check : State → Option Exc) (unit : Nat → State → Try Nat) (finish : State → State)
    (p : Cell) (s : State) : Try Flow :=
  let k := s.core c
  (prepare c k.dataId k.user 3 outs s).bind fun _ s =>
  let n := blockCount (s.blockArgs c).2.2
  if blockMatches p n = false then .exc (mismatchExc p) s
  else
    match check s with
    | some e => .exc e s
    | none =>
      match runUnits unit n budget (prgData p) s with
      | .faulted d e s => .exc { e with prg := if d = 0 then 0 else prgOf kind 0 d } s
      | .waits d s => .ok .stay (blockStop c kind d s)
      | .ran d s => if n ≤ d then .ok .next (finish s) else .ok .stay (blockStop c kind d s)

/-- The addresses of the two words of a unit. -/
def blockAddr (v : Cell) : Nat := v.toNat % 2 ^ 32

/-- An alignment fault on the first of two addresses that is not a multiple of 4; the second one is written to when `w`. -/
def alignFault (a b : Nat) (w : Bool) : Option Exc :=
  if a % 4 ≠ 0 then some { Exc.plain 5 0 with addr := a }
  else if b % 4 ≠ 0 then some { Exc.plain 5 0 with addr := b, write := w }
  else none

/-- One word of BMOV. -/
def bmovUnit (c i : Nat) (s : State) : Try Nat :=
  let (src, dst, _) := s.blockArgs c
  let a := s.unitAt c (blockAddr src + 4 * i) false
  let b := s.unitAt c (blockAddr dst + 4 * i) true
  (unitPair c a b s).bind fun p s =>
  (unitBytes c a p.1 4 s).bind fun bs s =>
  (unitRegion c b p.2 s).bind fun q s =>
  (writeStore c b q bs (setDirty c b.va s)).bind fun _ s => .ok (i + 1) s

/-- The bytes of an aligned word from byte `i` of BCRC on (R293). -/
def bcrcUnit (c : Nat) (m p : Byte) (i : Nat) (s : State) : Try Nat :=
  let (crc, a, n) := s.blockArgs c
  let va := blockAddr a + i
  let len := min (4 - va % 4) (blockCount n - i)
  (unitRead c va len s).bind fun bs s =>
  .ok (i + len) (setAcc c (crcRun m p crc (bs.map (·.toNat))) s)

/-- One pair of BMAC. -/
def bmacUnit (c i : Nat) (s : State) : Try Nat :=
  let l := ((s.core c).stack (s.core c).dataId).args 4
  let (acc, a, b) := (arg l 3, arg l 2, arg l 1)
  let first := s.unitAt c (blockAddr a + 4 * i) false
  let other := s.unitAt c (blockAddr b + 4 * i) false
  (unitPair c first other s).bind fun p s =>
  (unitBytes c first p.1 4 s).bind fun xs s =>
  (unitBytes c other p.2 4 s).bind fun ys s =>
  let k := s.core c
  let x : Word := BitVec.ofNat 32 (leNat xs)
  let y : Word := BitVec.ofNat 32 (leNat ys)
  match fit k (acc.toInt + roundShift k.rnd (x.toInt * y.toInt) 31) with
  | .error e => .exc e s
  | .ok (k, v) =>
    let x := k.stack k.dataId
    .ok (i + 1) (s.setCore c (k.setStack k.dataId (x.hold (x.ptr.toNat + 24) (wide v))))

/-- BMAC: acc, a, b and n lie on the stack; acc' replaces them. -/
def bmacBody (c budget : Nat) (p : Cell) (s : State) : Try Flow :=
  let k := s.core c
  (prepare c k.dataId k.user 4 1 s).bind fun _ s =>
  blockBody c 4 0 budget (fun s => alignFault (blockAddr (s.blockArgs c).1) (blockAddr (s.blockArgs c).2.1) false) (bmacUnit c)
    (fun s =>
      let k := s.core c
      s.setCore c (k.setStack k.dataId ((k.stack k.dataId).drop 3))) p s

/-- Where a block instruction begins to read: the operands at the places `l` from the top, as physical addresses, and its count
(R363). -/
def State.blockReads (s : State) (c : Nat) (l : List Nat) : List Nat :=
  let x := ((s.core c).stack (s.core c).dataId).args 4
  (arg x 0).toNat :: l.filterMap (fun j => s.probe c (blockAddr (arg x j)))

/-! ### The commands -/

def execBmov (c : Fin 16) (units : Nat) (s : State) : Host.Outcome State Fault Refusal :=
  .next (coreInstrReads c 1 2 (fun s => s.blockReads c [2])
    (blockBody c 2 0 units (fun s => alignFault (blockAddr (s.blockArgs c).1) (blockAddr (s.blockArgs c).2.1) true)
      (bmovUnit c) (blockDone c [])) s)
def execBcrc (c : Fin 16) (m p : Byte) (units : Nat) (s : State) : Host.Outcome State Fault Refusal :=
  .next (coreInstrReads c 3 3 (fun s => s.blockReads c [1]) (fun g s =>
    if crcReserved m p then .exc Exc.illegal s
    else blockBody c 3 1 units (fun _ => none) (bcrcUnit c m p)
      (fun s => blockDone c [crcRun m p (s.blockArgs c).1 []] s) g s) s)
def execBmac (c : Fin 16) (units : Nat) (s : State) : Host.Outcome State Fault Refusal :=
  .next (coreInstrReads c 1 4 (fun s => s.blockReads c [2, 1]) (bmacBody c units) s)

end Sys2Proof.Machine
end

