-- ==== Sys2Proof/Machine/Ladle.lean ====
section
/-! DEFINITION. The Ladle engines: starting, stopping, faults, and the token ends of SINK and SOURCE (R351 to R354). -/

namespace Sys2Proof.Machine

def LadleState.init : LadleState := { units := 0, wrIdx := 0, starter := none, stopping := false, payload := none }

def State.ladle (s : State) (n : Nat) : LadleState := mapGet (fun _ => LadleState.init) s.ladles n
def State.setLadle (s : State) (n : Nat) (x : LadleState) : State := { s with ladles := mapInsert s.ladles n x }

def State.ldMode (s : State) (n : Nat) : Nat := s.fld (A.LD_CTRL n) F.LD_CTRL_MODE
def State.ldBusy (s : State) (n : Nat) : Bool := s.bit (A.LD_STATUS n) F.LD_STATUS_BUSY
def State.ldDisabled (s : State) (n : Nat) : Bool := s.bit (A.LD_STATUS n) F.LD_STATUS_DISABLED
def State.ldFault (s : State) (n : Nat) : Bool := s.bit (A.LD_STATUS n) F.LD_STATUS_FAULT
def State.ldCount (s : State) (n : Nat) : Nat := (s.reg (A.LD_COUNT n)).toNat
def ladleReject (n : Nat) (s : State) : State := s.setBit (A.LD_STATUS n) F.LD_STATUS_CFG_REJECT

/-- The source and the destination as physical addresses. -/
def State.ldSrc (s : State) (n : Nat) : Nat :=
  s.fld (A.LD_ADDR_HI n) F.LD_ADDR_HI_SRC_HI * 2 ^ 32 + (s.reg (A.LD_SRC_LO n)).toNat
def State.ldDst (s : State) (n : Nat) : Nat :=
  s.fld (A.LD_ADDR_HI n) F.LD_ADDR_HI_DST_HI * 2 ^ 32 + (s.reg (A.LD_DST_LO n)).toNat

/-- WR_IDX, and RD_IDX taken modulo COUNT. -/
def State.ldWr (s : State) (n : Nat) : Nat := (s.ladle n).wrIdx
def State.ldRd (s : State) (n : Nat) : Nat := s.fld (A.LD_IDX n) F.LD_IDX_RD_IDX % max 1 (s.ldCount n)

/-- The engine offers no token any more. -/
def State.ladleWithdraw (s : State) (n : Nat) : State := ((s.producerChannel (epLdRead n)).map s.withdraw).getD s

/-- The engine reports DISABLED, its sink endpoint takes every token, and it offers no token any more (R186, R195, R352). -/
def ladleOff (n : Nat) (s : State) : State :=
  let s := s.ladleWithdraw n
  let s := (s.clrBit (A.LD_STATUS n) F.LD_STATUS_BUSY).setBit (A.LD_STATUS n) F.LD_STATUS_DISABLED
  (s.setLadle n { s.ladle n with stopping := false, payload := none }).settleInto (epLdWrite n)

/-- EN is written 1 (rule 1 of R354). -/
def ladleEnable (n : Nat) (s : State) : State :=
  if s.ldFault n then ladleReject n s
  else if s.ldDisabled n then (s.setBit (A.LD_CTRL n) F.LD_CTRL_EN).clrBit (A.LD_STATUS n) F.LD_STATUS_DISABLED
  else s.setBit (A.LD_CTRL n) F.LD_CTRL_EN

/-- EN is written 0: a unit in progress completes first (R353, rule 4 of R354). -/
def ladleDisable (n : Nat) (s : State) : State :=
  let s := s.clrBit (A.LD_CTRL n) F.LD_CTRL_EN
  if s.ldDisabled n then s
  else if (s.ladle n).payload.isSome then s.setLadle n { s.ladle n with stopping := true }
  else ladleOff n s

/-- What a GO leaves of the unit in progress and of the stop that waits for it: a token that a SINK has accepted is written, and a unit
that EN = 0 lets complete completes; a payload that a SOURCE has read is read again by the new run (R351, R353; log entry 49). -/
def State.ladleRestart (s : State) (n : Nat) (by' : Option Nat) : LadleState :=
  let stop := (s.ladle n).stopping && !s.bit (A.LD_CTRL n) F.LD_CTRL_EN
  { units := 0, wrIdx := 0, starter := if s.ldMode n = 0 then by' else none, stopping := stop,
    payload := if s.ldMode n = 1 ∨ stop = true then (s.ladle n).payload else none }

/-- GO, written by core `by'` or by another requester (R353, R354); a reserved COUNT is refused. -/
def ladleGo (by' : Option Nat) (n : Nat) (s : State) : State :=
  if s.ldDisabled n || s.ldFault n || decide (s.ldCount n = 0) || (decide (s.ldMode n = 1) && decide (s.ldCount n = 1)) then
    ladleReject n s
  else
    let x := s.ladleRestart n by'
    let s := if x.payload.isNone then s.ladleWithdraw n else s
    ((s.setFld (A.LD_IDX n) F.LD_IDX_RD_IDX 0).setBit (A.LD_STATUS n) F.LD_STATUS_BUSY).setLadle n x

/-- Writing 1 to FAULT clears FAULT, HELD and CAUSE (rule 5 of R354). -/
def ladleFaultClear (n : Nat) (s : State) : State :=
  if s.ldFault n then
    ((s.clrBit (A.LD_STATUS n) F.LD_STATUS_FAULT).clrBit (A.LD_STATUS n) F.LD_STATUS_HELD).clrBit (A.LD_STATUS n) F.LD_STATUS_CAUSE
  else s

/-- A failing unit stops the engine (R352). -/
def ladleFail (n cause addr : Nat) (s : State) : State :=
  let held := if s.ldMode n = 1 then (s.ladle n).payload else none
  let s := match held with
    | some p => ((s.setReg (A.LD_HELD_LO n) (p.setWidth 32)).setReg (A.LD_HELD_HI n) ((p >>> 32).setWidth 32)).setBit
        (A.LD_STATUS n) F.LD_STATUS_HELD
    | none => s
  let s := (s.setBit (A.LD_STATUS n) F.LD_STATUS_FAULT).setFld (A.LD_STATUS n) F.LD_STATUS_CAUSE cause
  ladleOff n ((s.setReg (A.LD_FAULT_ADDR n) (BitVec.ofNat 32 addr)).clrBit (A.LD_CTRL n) F.LD_CTRL_EN)

/-- A unit is done: a COPY or SOURCE that has done COUNT units sets DONE and ends; an engine that was stopping stops, unless
EN was written 1 again. -/
def ladleUnitEnd (n : Nat) (s : State) : State :=
  let x := s.ladle n
  let s := s.setLadle n { x with units := x.units + 1, wrIdx := (x.wrIdx + 1) % max 1 (s.ldCount n), payload := none }
  let s := if s.ldMode n ≠ 1 ∧ s.ldCount n ≤ x.units + 1 then
      (s.setBit (A.LD_STATUS n) F.LD_STATUS_DONE).clrBit (A.LD_STATUS n) F.LD_STATUS_BUSY
    else s
  if x.stopping then
    if s.bit (A.LD_CTRL n) F.LD_CTRL_EN then
      (s.clrBit (A.LD_STATUS n) F.LD_STATUS_BUSY).setLadle n { s.ladle n with stopping := false }
    else ladleOff n s
  else s

/-- The engine works in mode `m` and may do a unit now: it pauses in HOLD. -/
def State.ldRuns (s : State) (n m : Nat) : Bool := s.runnerOn && s.ldBusy n && decide (s.ldMode n = m)

/-- The sink endpoint of the engine is ready. -/
def State.sinkReady (s : State) (n : Nat) : Bool :=
  s.ldRuns n 1 && !(s.ladle n).stopping && (s.ladle n).payload.isNone && decide ((s.ldWr n + 1) % max 1 (s.ldCount n) ≠ s.ldRd n)

/-- The engine accepts a token for its ring. -/
def sinkAccept (n : Nat) (payload : Payload) (s : State) : State :=
  s.setLadle n { s.ladle n with payload := some payload }

/-- The payload that a SOURCE has read is offered to its channel. -/
def issueLadle (n : Nat) (s : State) : State :=
  if s.ldRuns n 2 then
    match (s.ladle n).payload, s.producerChannel (epLdRead n) with
    | some p, some c =>
      let r := s.offer c p false
      if r.2 then ladleUnitEnd n r.1 else r.1
    | _, _ => s
  else s

/-- The cause for which a unit of mode `m` may not reach an address, or 0 (R352): alignment first, then a reserved region,
then a region the mode does not allow. -/
def State.ladleCause (s : State) (m a : Nat) (write : Bool) : Nat :=
  let r := regionOf a
  if a % (if m = 0 then 4 else 8) ≠ 0 then 4
  else if r = .hole ∨ (r = .device ∧ inSpan a = false) ∨ (r = .flash ∧ write = true) then 1
  else if r = .itcm ∨ r = .dtcm ∨ r = .lawTable ∨ (m ≠ 0 ∧ r ≠ .sram ∧ r ≠ .dram) then 0x10
  else if r = .flash ∧ s.flashRefused a = true then 3
  else 0

end Sys2Proof.Machine
end

