-- ==== Sys2Proof/Machine/Twiast.lean ====
section
/-! DEFINITION. The Twiast link: flits, routing, tokens across a link, sequencing, audit, bring-up, time alignment and the
system heat schedule (chapter 18). -/

namespace Sys2Proof.Machine

/-! ### State access -/

def State.port (s : State) (p : Nat) : TwPort := mapGet (fun _ => TwPort.reset) s.tw p
def State.setPort (s : State) (p : Nat) (x : TwPort) : State := { s with tw := mapInsert s.tw p x }

/-- This device's node ID (R410). -/
def State.node (s : State) : Nat := (s.reg A.TW_NODE).toNat % 2048
def State.bridge (s : State) : Bool := s.bit A.TW_NODE F.TW_NODE_BRIDGE

def State.linkUp (s : State) (p : Nat) : Bool := decide ((s.port p).link = .up)

/-- The other port of a pair. -/
def mate (p : Nat) : Nat := if p % 2 = 0 then p + 1 else p - 1

/-- The STATE code of R418. -/
def TwLink.code : TwLink → Nat
  | .disabled => 0
  | .train => 1
  | .lock => 2
  | .init => 3
  | .up => 4
  | .down => 5

/-- A port takes a state. -/
def setLink (p : Nat) (l : TwLink) (s : State) : State :=
  (s.setPort p { s.port p with link := l }).setFld (A.TW_STATUS p) F.TW_STATUS_STATE l.code

/-! ### Flits (R406 to R408) -/

/-- Bits [hi:lo] of a flit. -/
def flitBits (f : FlitWord) (hi lo : Nat) : Nat := f.toNat / 2 ^ lo % 2 ^ (hi + 1 - lo)
def flitType (f : FlitWord) : Nat := flitBits f 127 124

/-- The CRC of a flit's upper 112 bits. -/
def flitCrc (f : FlitWord) : Nat := crc16 ((List.range 14).map (fun i => BitVec.ofNat 8 (f.toNat / 2 ^ (120 - 8 * i))))

/-- A flit with its CRC in place, from its TYPE and its fields. -/
def makeFlit (type : Nat) (fields : List (Nat × Nat)) : FlitWord :=
  let f := BitVec.ofNat 128 (fields.foldl (fun n p => n + p.2 * 2 ^ p.1) (type * 2 ^ 124))
  f ||| BitVec.ofNat 128 (flitCrc f)

def tokenFlit (seq : BitVec 10) (t : TwToken) : FlitWord :=
  makeFlit 1 [(109, t.dest.toNat), (98, t.src.toNat), (88, seq.toNat), (80, t.hops.toNat), (16, t.payload.toNat)]
def linkFlit (ack : BitVec 10) (nak : Bool) (loc transit : Nat) : FlitWord :=
  makeFlit 2 [(114, ack.toNat), (113, bit01 nak), (107, loc % 64), (101, transit % 64)]
def timeReqFlit (t1 : Stamp) : FlitWord := makeFlit 3 [(86, t1.toNat)]
def timeRespFlit (t2 t3 : Stamp) : FlitWord := makeFlit 4 [(86, t2.toNat), (48, t3.toNat)]
def heatFlitOf (h : HeatPlan) : FlitWord :=
  makeFlit 5 [(116, h.gen.toNat), (92, h.period.toNat), (28, h.start.toNat), (16, h.epoch.toNat)]
def auditFlitOf (n : BitVec 48) : FlitWord := makeFlit 6 [(76, n.toNat)]
def initFlitOf (node ring port : Nat) (reset : Bool) (received : BitVec 48) : FlitWord :=
  makeFlit 7 [(113, node), (108, ring), (106, port), (105, bit01 reset), (97, 1), (49, received.toNat)]
def alignFlitWord : FlitWord := 0x81000000000000008000000000000000

/-- Count a flit with a bad CRC or a reserved TYPE (R406, R408). -/
def crcError (p : Nat) (s : State) : State := s.countEvent (A.TW_CRC_ERRORS p) (A.TW_STATUS p) F.TW_STATUS_COUNT_FULL

/-- Receive a flit of type `type` at port `p`: with a bad CRC or a reserved TYPE it is counted and discarded. -/
def receive (p type : Nat) (flit : FlitWord) (body : State → State) (s : State) : State :=
  if !s.alive || decide ((s.port p).link = .disabled) || decide ((s.port p).link = .down) then s
  else if 9 ≤ flitType flit then crcError p s
  else if flitType flit ≠ type then s
  else if decide (type ≠ 0) && decide (type ≠ 8) && decide (flitBits flit 15 0 ≠ flitCrc flit) then crcError p s
  else body s

/-! ### Audit (R417) -/

/-- What a port keeps through DORMANT, where its link goes down: its tokens, its counters and its sequence (R417, R419, R420; log entry
90). -/
def TwPort.kept (x : TwPort) : TwPort :=
  { TwPort.reset with
    crossing := x.crossing, retry := x.retry, txSeq := x.txSeq, rxSeq := x.rxSeq, localBuf := x.localBuf, transitBuf := x.transitBuf,
    dead := x.dead, linkBase := x.linkBase, beenUp := x.beenUp, audit := x.audit, copy := x.copy }

def TwPort.count (x : TwPort) (k : Nat) : BitVec 48 := mapGet (fun _ => 0) x.audit k

/-- A conservation failure at port `p`. -/
def twConsFault (p : Nat) (s : State) : State := (s.setBit (A.TW_STATUS p) F.TW_STATUS_CONS_FAULT).raiseAlarm

/-- Add `n` to audit counter `k` of port `p`. -/
def twCount (p k n : Nat) (s : State) : State :=
  let x := s.port p
  let v := x.count k + BitVec.ofNat 48 n
  (s.setPort p { x with audit := mapInsert x.audit k v }).setBitIf (decide (v < x.count k)) (A.TW_STATUS p)
    F.TW_STATUS_AUDIT_WRAP

/-- The two equations of R417. -/
def twAudit (p : Nat) (s : State) : State :=
  let x := s.port p
  if x.count 1 - x.count 2 = BitVec.ofNat 48 x.retry.length ∧
      x.count 3 - x.count 4 - x.count 5 - x.count 6 = BitVec.ofNat 48 (x.localBuf.length + x.transitBuf.length) then s
  else twConsFault p s

/-- The copy of SNAP. -/
def twAuditSnap (p : Nat) (s : State) : State :=
  (s.setPort p { s.port p with copy := (s.port p).audit }).setBit (A.TW_AUDIT_CTRL p) F.TW_AUDIT_CTRL_VALID

/-! ### Routing (R411) -/

/-- Where a token that arrived on port `p` goes. -/
inductive Route where
  | deliver
  | dead
  | pass (out : Nat)
  | inject (out : Nat)
deriving DecidableEq, Repr

/-- Bit `i` of a pair of 32-bit registers. -/
def State.bit64 (s : State) (lo hi i : Nat) : Bool :=
  if i < 32 then (s.reg lo).getLsbD i else (s.reg hi).getLsbD (i - 32)

/-- The port by which a token for `dest` is injected into the home ring, or the parent ring. -/
def State.injectHome (s : State) (dest : Nat) : Nat :=
  let east := if dest / 64 = s.fld A.TW_NODE F.TW_NODE_RING then s.bit64 A.TW_DIR_HOME_LO A.TW_DIR_HOME_HI (dest % 64)
    else (s.reg A.TW_RINGDIR_HOME).getLsbD (dest / 64)
  if east then 1 else 0
def State.injectParent (s : State) (dest : Nat) : Nat :=
  let east := if dest / 64 = s.fld A.TW_NODE F.TW_NODE_TRANSIT_RING then
      s.bit64 A.TW_DIR_TRANSIT_LO A.TW_DIR_TRANSIT_HI (dest % 64)
    else (s.reg A.TW_RINGDIR_TRANSIT).getLsbD (dest / 64)
  if east then 3 else 2

def State.route (s : State) (p : Nat) (t : TwToken) : Route :=
  let dest := t.dest.toNat
  let down := (s.reg A.TW_DOWN_MASK).getLsbD (dest / 64)
  if dest = s.node then (if (s.producerChannel (epTwRx p)).isSome then .deliver else .dead)
  else if t.hops = 0 then .dead
  else if s.bridge && decide (2 ≤ p) && down then .inject (s.injectHome dest)
  else if s.bridge && decide (p < 2) && !down then .inject (s.injectParent dest)
  else .pass (mate p)

/-- A landing slot is freed: LOCAL for a token that is for this device, TRANSIT otherwise. -/
def TwPort.free (x : TwPort) (loc : Bool) : TwPort :=
  if loc then { x with localFreed := x.localFreed + 1 } else { x with transitFreed := x.transitFreed + 1 }

/-- An undeliverable token in a landing buffer of port `p` moves to DEAD, if DEAD is free (R411). -/
def holdDead (p : Nat) (s : State) : State :=
  let x := s.port p
  if x.dead.isSome then s
  else
    match (x.localBuf ++ x.transitBuf).find? (fun t => decide (s.route p t = .dead)) with
    | none => s
    | some t =>
      let loc := x.localBuf.contains t
      let x := if loc then { x with localBuf := x.localBuf.erase t } else { x with transitBuf := x.transitBuf.erase t }
      let s := twCount p 6 1 (s.setPort p { x.free loc with dead := some t })
      let s := s.setReg (A.TW_DEAD_INFO p) (fieldBits F.TW_DEAD_INFO_FULL 1 ||| fieldBits F.TW_DEAD_INFO_SRC t.src.toNat |||
        fieldBits F.TW_DEAD_INFO_DEST t.dest.toNat)
      let s := (s.setReg (A.TW_DEAD_LO p) (t.payload.setWidth 32)).setReg (A.TW_DEAD_HI p) ((t.payload >>> 32).setWidth 32)
      twAudit p (s.setBit (A.TW_STATUS p) F.TW_STATUS_DEAD)

/-- DEAD_INFO.FULL is cleared, which frees DEAD for the next undeliverable token. -/
def deadClear (p : Nat) (s : State) : State :=
  holdDead p ((s.setPort p { s.port p with dead := none }).clrBit (A.TW_DEAD_INFO p) F.TW_DEAD_INFO_FULL)

/-! ### Receiving tokens and acknowledgements (R414, R415) -/

/-- A TOKEN flit of the expected SEQ lands; any other asks once for a resend. -/
def receiveToken (p : Nat) (flit : FlitWord) (s : State) : State :=
  let x := s.port p
  if x.link ≠ .up then s
  else if flitBits flit 97 88 ≠ x.rxSeq.toNat then
    if x.nakSent then s else s.setPort p { x with nakSent := true, nakDue := true }
  else
    let t : TwToken := { dest := BitVec.ofNat 11 (flitBits flit 119 109), src := BitVec.ofNat 11 (flitBits flit 108 98),
                         hops := BitVec.ofNat 8 (flitBits flit 87 80), payload := BitVec.ofNat 64 (flitBits flit 79 16) }
    let x := { x with rxSeq := x.rxSeq + 1, nakSent := false }
    let x := if t.dest.toNat = s.node then { x with localBuf := x.localBuf ++ [t] } else { x with transitBuf := x.transitBuf ++ [t] }
    twAudit p (holdDead p (twCount p 3 1 (s.setPort p x)))

/-- TW.SYS_STATUS sets `flag` and the device is not locked any longer (R424, R426). -/
def unlockTime (flag : Fld) (s : State) : State :=
  s.latching (fun s => (s.setBit A.TW_SYS_STATUS flag).clrBit A.TW_SYS_STATUS F.TW_SYS_STATUS_LOCKED)

/-- Port `p` is not UP: it is not locked, and TIME_LOST is set when it is the time source (R426). -/
def timeSourceDown (p : Nat) (s : State) : State :=
  let s := s.clrBit (A.TW_STATUS p) F.TW_STATUS_LOCKED
  if s.timeSrc = p then unlockTime F.TW_SYS_STATUS_TIME_LOST s else s

/-- The port goes from UP to DOWN, and LINK_DOWN is set (R418). -/
def linkDown (p : Nat) (s : State) : State :=
  timeSourceDown p ((setLink p .down s).setBit (A.TW_STATUS p) F.TW_STATUS_LINK_DOWN)

/-- Resend every unacknowledged flit from the oldest one; after 16 resends of the same oldest flit the link goes down
(R415). -/
def resend (p : Nat) (s : State) : State :=
  let x := s.port p
  if x.retry = [] then s
  else if 16 ≤ x.resends then linkDown p (s.setBit (A.TW_STATUS p) F.TW_STATUS_RETRY_EXHAUSTED)
  else
    (s.setPort p { x with unsent := x.retry.length, resends := x.resends + 1 }).countEvent (A.TW_RETRIES p) (A.TW_STATUS p)
      F.TW_STATUS_COUNT_FULL

/-- The SEQ of the oldest unacknowledged flit, or the next SEQ. -/
def TwPort.oldest (x : TwPort) : BitVec 10 :=
  match x.retry with
  | [] => x.txSeq
  | h :: _ => h.1

/-- Acknowledge the `n` oldest flits. -/
def acknowledge (p n : Nat) (s : State) : State :=
  let x := s.port p
  let left := x.retry.drop n
  twAudit p (twCount p 2 n (s.setPort p { x with retry := left, unsent := min x.unsent left.length,
                                                 resends := if n = 0 then x.resends else 0 }))

/-- A LINK flit acknowledges, asks for a resend and returns credits. -/
def receiveLink (p : Nat) (flit : FlitWord) (s : State) : State :=
  let x := s.port p
  if x.link ≠ .up then s
  else
    let n := (BitVec.ofNat 10 (flitBits flit 123 114) - x.oldest).toNat
    let s := if n ≤ x.retry.length then acknowledge p n s else twConsFault p s
    let x := s.port p
    let s := s.setPort p { x with localCr := min 32 (x.localCr + flitBits flit 112 107),
                                  transitCr := min 32 (x.transitCr + flitBits flit 106 101) }
    if flitBits flit 113 113 = 1 then resend p s else s

/-- An AUDIT flit is checked. -/
def receiveAudit (p : Nat) (flit : FlitWord) (s : State) : State :=
  let x := s.port p
  let n := BitVec.ofNat 48 (flitBits flit 123 76) + x.linkBase - x.count 2
  if x.link ≠ .up ∨ n ≤ x.count 1 - x.count 2 then s else twConsFault p s

/-! ### Bring-up (R418, R419) -/

/-- The ring of the pair of port `p`. -/
def State.pairRing (s : State) (p : Nat) : Nat :=
  if p < 2 then s.fld A.TW_NODE F.TW_NODE_RING else s.fld A.TW_NODE F.TW_NODE_TRANSIT_RING

/-- The retained flits with their SEQ continuing from `r`. -/
def renumber (r : BitVec 10) : List (BitVec 10 × TwToken) → List (BitVec 10 × TwToken)
  | [] => []
  | h :: t => (r, h.2) :: renumber (r + 1) t

/-- The port goes UP, where the partner has received `r` tokens and its RESET bit is `fresh`. Every retained flit that the partner has
taken counts as acknowledged; a value below TX_ACKED, modulo 2^48, is a failure. DESIGN CHOICE (log entry 97): rule 1 of R419 writes
R − LINK_BASE, which its rule 3 and the COUNT + LINK_BASE of R417 contradict; the model takes R + LINK_BASE, the partner's count in this
port's own numbering, so that after a one-sided full reset no token is lost or sent twice (R27). -/
def goUp (p : Nat) (r : BitVec 48) (fresh : Bool) (s : State) : State :=
  let x := s.port p
  let s :=
    if !fresh then
      let n := r + x.linkBase - x.count 2
      if n.msb then twConsFault p s else acknowledge p (min n.toNat x.retry.length) s
    else if x.beenUp then
      let s := s.setBit (A.TW_STATUS p) F.TW_STATUS_PARTNER_RESET
      if x.retry = [] then s else twConsFault p (s.setPort p { x with retry := [], unsent := 0 })
    else s
  let x := s.port p
  let seq : BitVec 10 := r.setWidth 10
  setLink p .up (s.setPort p { x with
    retry := renumber seq x.retry, unsent := x.retry.length, resends := 0, txSeq := seq + BitVec.ofNat 10 x.retry.length,
    linkBase := x.count 2 - r, rxSeq := (x.count 3).setWidth 10, nakSent := false, nakDue := false,
    localCr := 32, transitCr := 32, localFreed := 0, transitFreed := 0, beenUp := true })

/-- An INIT flit is recorded, and takes a port in INIT to UP if it matches. -/
def receiveInit (p : Nat) (flit : FlitWord) (s : State) : State :=
  let node := flitBits flit 123 113
  let ring := flitBits flit 112 108
  let port := flitBits flit 107 106
  let s := s.setReg (A.TW_PARTNER p) (fieldBits F.TW_PARTNER_VALID 1 ||| fieldBits F.TW_PARTNER_RING ring |||
    fieldBits F.TW_PARTNER_PORT port ||| fieldBits F.TW_PARTNER_NODE node)
  if (s.port p).link ≠ .init then s
  else if flitBits flit 104 97 = 1 ∧ port % 2 ≠ p % 2 ∧ ring = s.pairRing p ∧ node ≠ s.node then
    goUp p (BitVec.ofNat 48 (flitBits flit 96 49)) (decide (flitBits flit 105 105 = 1)) s
  else s.setBit (A.TW_STATUS p) F.TW_STATUS_CONFIG_MISMATCH

/-- Start bring-up. -/
def startTrain (p : Nat) (s : State) : State := (setLink p .train s).clrBit (A.TW_STATUS p) F.TW_STATUS_DISABLED

/-- EN is written 1: refused for TW_2 and TW_3 of a device that is no bridge. -/
def portEnable (p : Nat) (s : State) : State :=
  if 2 ≤ p ∧ s.bridge = false then s.setBit (A.TW_STATUS p) F.TW_STATUS_CFG_REJECT
  else
    let s := s.setBit (A.TW_CTRL p) F.TW_CTRL_EN
    if (s.port p).draining then s.setPort p { s.port p with reenable := true }
    else if (s.port p).link = .disabled ∧ s.alive then startTrain p s
    else s

/-- EN is written 0 (R421). -/
def portDisable (p : Nat) (s : State) : State :=
  let s := s.clrBit (A.TW_CTRL p) F.TW_CTRL_EN
  if (s.port p).link = .disabled then s else s.setPort p { s.port p with draining := true, reenable := false }

/-- The drain is complete. -/
def portDisabled (p : Nat) (s : State) : State :=
  let x := s.port p
  if x.draining && decide (x.retry = []) && decide (x.crossing = []) && decide (x.localBuf = []) then
    let s := timeSourceDown p (setLink p .disabled (s.setPort p { x with draining := false, reenable := false }))
    if x.reenable then startTrain p s else (s.setBit (A.TW_STATUS p) F.TW_STATUS_DISABLED).settleInto (epTwTx p)
  else s

/-- A port moves from one state to another. -/
def linkStep (p : Nat) (fr dst : TwLink) (s : State) : State :=
  if s.alive && decide ((s.port p).link = fr) then setLink p dst s else s

/-- 10 ms passed without UP. -/
def bringUpTimeout (p : Nat) (s : State) : State :=
  let l := (s.port p).link
  if s.alive && (decide (l = .train) || decide (l = .lock) || decide (l = .init)) then
    setLink p .down (s.countSat (A.TW_STATUS p) F.TW_STATUS_ATTEMPTS)
  else s

def linkLoss (p : Nat) (s : State) : State := if s.alive && s.linkUp p then linkDown p s else s

/-! ### Transmission (R409, R412 to R415) -/

/-- The class in which port `p` sends a token: LOCAL when it is for the partner (R414). -/
def State.sendsLocal (s : State) (p : Nat) (t : TwToken) : Bool :=
  decide (s.fld (A.TW_PARTNER p) F.TW_PARTNER_NODE = t.dest.toNat)

/-- Port `p` holds the credits that a token needs; an injected one in the TRANSIT class needs two (R412). -/
def State.mayTransmit (s : State) (p : Nat) (injected : Bool) (t : TwToken) : Bool :=
  let x := s.port p
  decide (x.retry.length < 64) &&
    (if s.sendsLocal p t then decide (1 ≤ x.localCr) else decide ((if injected then 2 else 1) ≤ x.transitCr))

/-- The tokens that may be passed on out of port `p`, and those captured for injection, with their arrival port; while the port
drains they wait (R421). -/
def State.passing (s : State) (p : Nat) : List (Nat × TwToken) :=
  if (s.port p).draining then [] else ((s.port (mate p)).transitBuf.filter (fun t => decide (s.route (mate p) t = .pass p))).map (fun t => (mate p, t))
def State.toInject (s : State) (p : Nat) : List (Nat × TwToken) :=
  if (s.port p).draining then []
  else (List.range 4).flatMap (fun q => ((s.port q).transitBuf.filter (fun t => decide (s.route q t = .inject p))).map (fun t => (q, t)))

/-- Send token `t` out of port `p`: it takes the next SEQ, a credit and a place in the retry buffer. -/
def sendToken (p : Nat) (t : TwToken) (s : State) : State :=
  let x := s.port p
  let loc := s.sendsLocal p t
  let x := { x with retry := x.retry ++ [(x.txSeq, t)], txSeq := x.txSeq + 1, sent := tokenFlit x.txSeq t,
                    localCr := if loc then x.localCr - 1 else x.localCr, transitCr := if loc then x.transitCr else x.transitCr - 1 }
  twAudit p (twCount p 1 1 (s.setPort p x))

/-- A token leaves the landing buffer of port `q` for another port. -/
def takeLanded (q : Nat) (t : TwToken) (s : State) : State :=
  let x := s.port q
  holdDead q (twAudit q (twCount q 5 1 (s.setPort q ({ x with transitBuf := x.transitBuf.erase t }.free false))))

/-- A token slot of port `p`. -/
inductive Slot where
  | pass (q : Nat) (t : TwToken)
  | captured (q : Nat) (t : TwToken)
  | own (t : TwToken)
  | idle
deriving DecidableEq, Repr

/-- The injected token that is due: this device's own and captured tokens take turns. -/
def State.injection (s : State) (p : Nat) : Slot :=
  let own := ((s.port p).crossing.head?).filter (fun t => s.mayTransmit p true t)
  let cap := ((s.toInject p).head?).filter (fun r => s.mayTransmit p true r.2)
  match own, cap with
  | some t, none => .own t
  | none, some r => .captured r.1 r.2
  | some t, some r => if (s.port p).capturedTurn then .captured r.1 r.2 else .own t
  | none, none => .idle

/-- What the next token slot of port `p` carries (R412). -/
def State.nextSlot (s : State) (p : Nat) : Slot :=
  let inj := s.injection p
  if 7 ≤ (s.port p).slots ∧ inj ≠ .idle then inj
  else
    match (s.passing p).find? (fun r => s.mayTransmit p false r.2) with
    | some r => .pass r.1 r.2
    | none => inj

/-- A token slot: a resend first, and else the token that R412 chooses. -/
def tokenSlot (p : Nat) (s : State) : State :=
  let x := s.port p
  if 0 < x.unsent then
    match (x.retry.drop (x.retry.length - x.unsent)).head? with
    | some h => s.setPort p { x with unsent := x.unsent - 1, sent := tokenFlit h.1 h.2 }
    | none => s.setPort p { x with unsent := 0, sent := 0 }
  else
    match s.nextSlot p with
    | .idle => s.setPort p { x with sent := 0 }
    | .pass q t => sendToken p { t with hops := t.hops - 1 } (takeLanded q t (s.setPort p { x with slots := x.slots + 1 }))
    | .captured q t => sendToken p t (takeLanded q t (s.setPort p { x with slots := 0, capturedTurn := false }))
    | .own t => sendToken p t (s.setPort p { x with slots := 0, capturedTurn := true, crossing := x.crossing.drop 1 })

/-- The LINK flit that port `p` sends now; the slots freed since the last one are returned with it. Credits in a LINK flit that a
bad CRC discards stay lost until the link comes UP again (log entry 75). -/
def sendLink (p : Nat) (s : State) : State :=
  let x := s.port p
  let a := min 32 x.localFreed
  let b := min 32 x.transitFreed
  s.setPort p { x with sent := linkFlit x.rxSeq x.nakDue a b, nakDue := false, localFreed := x.localFreed - a,
                       transitFreed := x.transitFreed - b, sinceControl := 0 }

/-- A control flit of port `p`'s own schedule. -/
def sendDue (p : Nat) (d : ControlDue) (s : State) : State :=
  let x := s.port p
  match d with
  | .link => sendLink p s
  | .audit => s.setPort p { x with sent := auditFlitOf (x.count 3), sinceControl := 0 }
  | .align => s.setPort p { x with sent := alignFlitWord, sinceControl := 0 }
  | .init => s.setPort p { x with sent := initFlitOf s.node (s.pairRing p) p (!x.beenUp) (x.count 3), sinceControl := 0 }

/-- One word-clock slot of port `p`: `due` names the control flit that its schedule makes due (R409, R412). -/
def flitTransmit (p : Nat) (due : Option ControlDue) (s : State) : State :=
  let x := s.port p
  let s := s.setPort p { x with sinceControl := x.sinceControl + 1 }
  let x := s.port p
  if !s.alive then s
  else
    match x.link with
    | .up =>
      if 16 ≤ x.sinceControl then
        match x.control, due with
        | f :: rest, _ => s.setPort p { x with sent := f, control := rest, sinceControl := 0 }
        | [], some d => sendDue p d s
        | [], none => if x.nakDue then sendLink p s else tokenSlot p s
      else tokenSlot p s
    | .init => (match due with
                | some .init => sendDue p .init s
                | some .align => if 16 ≤ x.sinceControl then sendDue p .align s else s.setPort p { x with sent := 0 }
                | _ => s.setPort p { x with sent := 0 })
    | .lock => (match due with
                | some .align => if 16 ≤ x.sinceControl then sendDue p .align s else s.setPort p { x with sent := 0 }
                | _ => s.setPort p { x with sent := 0 })
    | _ => s

/-- 512 word-clock cycles passed without the acknowledgement advancing. -/
def retryTimeout (p : Nat) (s : State) : State := if s.alive && s.linkUp p then resend p s else s

/-! ### The Tundish side (R413) -/

/-- The transmit endpoint of port `p` is ready, and accepts a token: its destination is not stated by the manual and is a
free value (log entry 31). -/
def State.twReady (s : State) (p : Nat) : Bool :=
  s.linkUp p && !(s.port p).draining && decide ((s.port p).crossing.length < 16)

def twAccept (p : Nat) (payload : Payload) (s : State) : State :=
  let t : TwToken := { dest := s.free.setWidth 11, src := BitVec.ofNat 11 s.node,
                       hops := BitVec.ofNat 8 (s.fld A.TW_CFG F.TW_CFG_HOP_LIMIT), payload := payload }
  let s := s.spent
  twCount p 0 1 (s.setPort p { s.port p with crossing := (s.port p).crossing ++ [t] })

/-- The oldest token delivered at port `p` is issued on the channel of its receive endpoint, with REMOTE = 1. -/
def issueTwiast (p : Nat) (s : State) : State :=
  match (s.port p).localBuf with
  | [] => s
  | t :: rest =>
    match s.producerChannel (epTwRx p) with
    | none => s
    | some n =>
      let r := s.offer n t.payload true
      if r.2 then
        let x := r.1.port p
        twAudit p (twCount p 4 1 (r.1.setPort p ({ x with localBuf := rest }.free true)))
      else r.1

/-! ### Time alignment (R423 to R426) -/

/-- Queue a control flit on port `p`, if it is UP. -/
def queueControl (p : Nat) (f : FlitWord) (s : State) : State :=
  if s.linkUp p then s.setPort p { s.port p with control := (s.port p).control ++ [f] } else s

/-- The difference of two stamps, as a signed number of fine steps. -/
def stampDiff (a b : Stamp) : Int := (a - b).toInt

/-- One value of θ, in 1/2,500 of a fine step: a fine step is 1,250/64 ps (R424). -/
def thetaOf (t1 t2 t3 t4 : Stamp) (asym : Int) : Int := (stampDiff t2 t1 - stampDiff t4 t3) * 1250 - asym * 64

/-- The averaged θ takes effect: a step of the time base, or a trim of the main PLL (R424). -/
def applyTheta (sum : Int) (n : Nat) (s : State) : State :=
  let fine := roundHalfUp sum (2500 * n)
  let s := s.setFld A.TW_TIME_OFFSET F.TW_TIME_OFFSET_THETA (BitVec.ofInt 16 (clampInt (-32768) 32767 fine)).toNat
  if (128 * 2500 * n : Nat) ≤ sum.natAbs then
    let rc := roundHalfUp sum (64 * 2500 * n)
    let s := { s with timeBase := s.timeBase + BitVec.ofInt 64 rc, twSys := { s.twSys with thetas := [] } }
    (unlockTime F.TW_SYS_STATUS_STEPPED s).clrBit (A.TW_STATUS s.timeSrc) F.TW_STATUS_LOCKED
  else
    let trim : Int := (s.free.toNat % 20001 : Nat) - 10000
    let s := s.spent.setFld A.TW_TIME_OFFSET F.TW_TIME_OFFSET_TRIM (BitVec.ofInt 16 trim).toNat
    let lock := decide (sum.natAbs * 625 ≤ 8000000 * n)
    let s := (s.latching (fun s => s.putBit A.TW_SYS_STATUS F.TW_SYS_STATUS_LOCKED lock)).putBit (A.TW_STATUS s.timeSrc)
      F.TW_STATUS_LOCKED lock
    { s with twSys := { s.twSys with lockedOnce := s.twSys.lockedOnce || lock } }

/-- A TIME_RESP that answers the outstanding request updates θ. -/
def receiveResp (p : Nat) (flit : FlitWord) (arrived : Stamp) (s : State) : State :=
  match s.twSys.asked with
  | none => s
  | some (t1, w) =>
    if s.timeSrc ≠ p ∨ (s.port p).link ≠ .up then s
    else
      let t2 : Stamp := BitVec.ofNat 38 (flitBits flit 123 86)
      let t3 : Stamp := BitVec.ofNat 38 (flitBits flit 85 48)
      let asym := signedOf 16 (fieldOf w F.TW_ASYM_ASYM)
      let l := (thetaOf t1 t2 t3 arrived asym :: s.twSys.thetas).take 16
      applyTheta (l.foldl (· + ·) 0) l.length { s with twSys := { s.twSys with asked := none, thetas := l } }

/-- A TIME_REQ is answered with the stamps of its arrival and of the response. -/
def receiveReq (p : Nat) (arrived answered : Stamp) (s : State) : State := queueControl p (timeRespFlit arrived answered) s

/-- The aligning device sends a TIME_REQ; the exchange uses the TW.ASYM of this moment (R431). -/
def timeExchange (sent : Stamp) (s : State) : State :=
  if s.alive && decide (s.timeSrc < 4) && s.linkUp s.timeSrc then
    queueControl s.timeSrc (timeReqFlit sent) { s with twSys := { s.twSys with asked := some (sent, s.reg (A.TW_ASYM s.timeSrc)) } }
  else s

/-- 1 ms passed without a TIME_RESP. -/
def timeLost (s : State) : State :=
  if s.alive && decide (s.timeSrc < 4) then
    (unlockTime F.TW_SYS_STATUS_TIME_LOST s).clrBit (A.TW_STATUS s.timeSrc) F.TW_STATUS_LOCKED
  else s

/-! ### The system heat schedule (R427 to R429) -/

/-- A HEAT flit is adopted rather than ignored (R428). -/
def State.adopts (s : State) (h : HeatPlan) : Bool :=
  match s.twSys.adopted with
  | none => true
  | some a => decide (h.epoch ≠ a.epoch) || (decide (1 ≤ (h.gen - a.gen).toNat) && decide ((h.gen - a.gen).toNat ≤ 127))

/-- Adopt a schedule: HEAT_NEW, and HEAT_LATE when its T_START has passed while RUN.HEAT_CFG.SRC is 3 (R427, R429). -/
def adopt (h : HeatPlan) (s : State) : State :=
  let s := { s with twSys := { s.twSys with adopted := some h, coming := some h } }
  let s := (s.setFld A.TW_SYS_STATUS F.TW_SYS_STATUS_EPOCH h.epoch.toNat).setFld A.TW_SYS_STATUS F.TW_SYS_STATUS_GEN h.gen.toNat
  (s.setBit A.TW_SYS_STATUS F.TW_SYS_STATUS_HEAT_NEW).setBitIf
    (decide (h.start < s.timeBase) && decide (s.fld A.RUN_HEAT_CFG F.RUN_HEAT_CFG_SRC = 3)) A.TW_SYS_STATUS F.TW_SYS_STATUS_HEAT_LATE

/-- Send a HEAT flit out of every UP port but `except`. -/
def floodHeat (h : HeatPlan) (except : Nat) (s : State) : State :=
  (List.range 4).foldl (fun s p => if p = except then s else queueControl p (heatFlitOf h) s) s

def receiveHeat (p : Nat) (flit : FlitWord) (s : State) : State :=
  let h : HeatPlan := { epoch := BitVec.ofNat 12 (flitBits flit 27 16), gen := BitVec.ofNat 8 (flitBits flit 123 116),
                        period := BitVec.ofNat 24 (flitBits flit 115 92), start := BitVec.ofNat 64 (flitBits flit 91 28) }
  if (s.port p).link = .up ∧ s.adopts h = true then floodHeat h p (adopt h s) else s

/-- The low 12 bits of the device serial number (R381, R428). -/
def State.serialLow (s : State) : BitVec 12 := BitVec.ofNat 12 (leNat (s.flashBytes 0x21000 2))

/-- ISSUE: refused on a device that is not the grand master (R427). -/
def heatIssue (s : State) : State :=
  if !s.grandMaster then s.setBit A.TW_SYS_STATUS F.TW_SYS_STATUS_CFG_REJECT
  else
    let first := s.twSys.issued.isNone
    let epoch := if first then s.twSys.epoch.getD s.serialLow + 1 else s.twSys.epoch.getD s.serialLow
    let gen : Byte := match s.twSys.issued with
      | none => 1
      | some h => h.gen + 1
    let h : HeatPlan := { epoch := epoch, gen := gen, period := (s.reg A.TW_SYS_PERIOD).setWidth 24,
                          start := s.reg A.TW_SYS_START_HI ++ s.reg A.TW_SYS_START_LO }
    floodHeat h 4 (adopt h { s with twSys := { s.twSys with epoch := some epoch, issued := some h } })

/-- Every 8,000 rc the grand master repeats its HEAT flit. -/
def heatRepeat (s : State) : State :=
  match s.twSys.issued with
  | none => s
  | some h => if s.alive && s.grandMaster then floodHeat h 4 s else s

/-- FORGET clears the record of the last adopted flit. -/
def heatForget (s : State) : State := { s with twSys := { s.twSys with adopted := none } }

/-- The first start of a schedule at which the time base is not below `now`. -/
def HeatPlan.startFrom (h : HeatPlan) (now : Nat) : Nat :=
  let t := h.start.toNat
  if now ≤ t then t else t + (now - t + h.period.toNat - 1) / max 1 h.period.toNat * h.period.toNat

/-- The next scheduled start: its time base, the schedule it belongs to, and whether that schedule is the coming one. No rc holds two
heat starts. -/
def State.nextHeat (s : State) : Option (Nat × HeatPlan × Bool) :=
  let now := s.timeBase.toNat + bit01 (decide (s.heatLast = some s.rc))
  let a := s.twSys.plan.map (fun h => (h.startFrom now, h, false))
  let b := s.twSys.coming.map (fun h => (h.startFrom now, h, true))
  match a, b with
  | none, b => b
  | a, none => a
  | some x, some y => if y.1 ≤ x.1 then some y else some x

/-- LOCKED has been set once since commit; it reads 1 on the grand master. -/
def State.everLocked (s : State) : Bool := s.twSys.lockedOnce || s.grandMaster

end Sys2Proof.Machine
end

