-- ==== Sys2Proof/Machine/RunnerAccept.lean ====
section
/-! DEFINITION. What the endpoints of the Runner do with their tokens: issue by every producer, acceptance by every consumer
with its arbitration, and heat starts (R182 to R201). -/

namespace Sys2Proof.Machine

/-! ### Issue (R186, R198) -/

/-- Time passes to the rc in which the producer at endpoint `code` can use the credit that it has waited for (R185). -/
def State.atCredit (s : State) (code : Nat) : State :=
  match s.producerChannel code with
  | none => s
  | some n => s.passCredit n

/-- The producer at endpoint `code` offers what it holds; in step 7 of the boot none issues a token (R458). -/
def tokenIssue (code : Nat) (s : State) : State :=
  if !s.runnerOn || s.bootTesting then s
  else
    let s := s.atCredit code
    if code < 0x0A0 then issuePath code false s
  else if code < 0x140 then issuePath (code - 0x0A0) true s
  else if 0x1C0 ≤ code ∧ code < 0x240 then issueLaw ((code - 0x1C0) / 4) ((code - 0x1C0) % 4) s
  else if 0x2A0 ≤ code ∧ code < 0x2A8 then issueSurvey (code - 0x2A0) s
  else if 0x2B8 ≤ code ∧ code < 0x2BC then issueTwiast (code - 0x2B8) s
  else if 0x2C0 ≤ code ∧ code < 0x300 then
    (match (s.push ((code - 0x2C0) / 4)).buf.head? with
     | some e => if e.1 = (code - 0x2C0) % 4 then issuePush ((code - 0x2C0) / 4) s else s
     | none => s)
  else if 0x388 ≤ code ∧ code < 0x390 then issueLadle (code - 0x388) s
  else s

/-! ### Acceptance (R184, R185) -/

/-- The consumer at endpoint `code` is ready. -/
def State.consumerReady (s : State) (code : Nat) : Bool :=
  s.runnerOn && !s.consumerDisabled code &&
    (if 0x140 ≤ code ∧ code < 0x1C0 then s.lawReady ((code - 0x140) / 4) ((code - 0x140) % 4)
     else if 0x270 ≤ code ∧ code < 0x2A0 then true
     else if 0x2BC ≤ code ∧ code < 0x2C0 then s.twReady (code - 0x2BC)
     else if 0x300 ≤ code ∧ code < 0x380 then true
     else if 0x380 ≤ code ∧ code < 0x388 then s.sinkReady (code - 0x380)
     else false)

/-- What the consumer does with the token it accepts. -/
def consumerTake (code : Nat) (t : Token) (s : State) : State :=
  if 0x140 ≤ code ∧ code < 0x1C0 then lawAccept ((code - 0x140) / 4) ((code - 0x140) % 4) t.payload s
  else if 0x270 ≤ code ∧ code < 0x2A0 then shadowToken (code - 0x270) t.payload s
  else if 0x2BC ≤ code ∧ code < 0x2C0 then twAccept (code - 0x2BC) t.payload s
  else if 0x300 ≤ code ∧ code < 0x380 then snapAccept (code - 0x300) t.payload t.tag s
  else sinkAccept (code - 0x380) t.payload s

/-- The token at the head of channel `n`, if the consumer at position `q` has still to accept it. -/
def State.headFor (s : State) (n q : Nat) : Option Token :=
  match (s.chan n).queue with
  | [] => none
  | t :: _ => if t.takenBy q then none else some t

/-- The channels with a token that waits for consumer `code`, with its position in each. -/
def State.waiting (s : State) (code : Nat) : List (Nat × Nat) :=
  (s.channelsInto code).filter (fun p => (s.headFor p.1 p.2).isSome)

/-- The priority of channel `n` at a shared consumer. -/
def State.channelPrio (s : State) (n : Nat) : Nat := s.fld (A.TC_CTRL n) F.TC_CTRL_PRIO

/-- The channel that consumer `code` takes next: the highest priority, and among equals the first in rising order from the
one after the channel of that priority it served last (R184). -/
def State.chosen (s : State) (code : Nat) : Option (Nat × Nat) :=
  let l := s.waiting code
  let top := l.foldl (fun m p => max m (s.channelPrio p.1)) 0
  let l := l.filter (fun p => decide (s.channelPrio p.1 = top))
  let turn := mapGet (fun _ => 0) s.turn (4 * code + top)
  (l.filter (fun p => decide (turn ≤ p.1)) ++ l.filter (fun p => decide (p.1 < turn))).head?

/-- Mark the head of channel `n` as accepted at position `q`. -/
def markHead (n q : Nat) (s : State) : State :=
  match (s.chan n).queue with
  | [] => s
  | t :: ts => s.setChan n { s.chan n with queue := { t with accepted := q :: t.accepted } :: ts }

/-- A ready consumer accepts the token that waits for it; on its last acceptance the token retires. -/
def tokenAccept (code : Nat) (s : State) : State :=
  if s.consumerReady code then
    match s.chosen code with
    | none => s
    | some (n, q) =>
      match s.headFor n q with
      | none => s
      | some t =>
        let s := { markHead n q (consumerTake code t s) with turn := mapInsert s.turn (4 * code + s.channelPrio n) (n + 1) }
        s.settle n
  else s

/-! ### Heats (R196, R429) -/

/-- What a heat start does in its rc. -/
def heatEffects (s : State) : State :=
  let s := s.countWrap A.RUN_HEAT_NUM F.RUN_HEAT_NUM_NUM
  let s := (s.setBit A.RUN_STATUS F.RUN_STATUS_HEAT).setBit A.RUN_STATUS F.RUN_STATUS_HEAT_RUNNING
  lawsAtHeat (pgsAtHeat (pathsAtHeat { s with heatLast := some s.rc }))

/-- While the device enters HOLD or DORMANT the current heat finishes where the next one would start, and none starts (R54). -/
def heatEnds (s : State) : State := { s with heatDue := none }.clrBit A.RUN_STATUS F.RUN_STATUS_HEAT_RUNNING

/-- A heat boundary: `start` begins the next heat, unless the device is entering HOLD or DORMANT. -/
def heatBoundary (start : State → State) (s : State) : State := if s.supply.entering = none then start s else heatEnds s

/-- A local heat starts when it is due; the present PERIOD sets the length of the heat that begins. -/
def localHeat (s : State) : State :=
  let s := s.passTo (s.heatDue.getD s.rc)
  heatBoundary (fun s => heatEffects { s with heatDue := some (s.rc + s.fld A.RUN_HEAT_CFG F.RUN_HEAT_CFG_PERIOD) }) s

/-- A heat starts with a period of the reference group, once. -/
def groupHeat (s : State) : State :=
  let g := s.fld A.RUN_HEAT_CFG F.RUN_HEAT_CFG_REF_PG
  if s.pgRunning g && decide ((s.pg g).start / 64 = s.rc) && decide (s.heatLast ≠ some s.rc) then heatBoundary heatEffects s else s

/-- The next start of the system heat schedule. -/
def systemHeat (s : State) : State :=
  if s.everLocked then
    match s.nextHeat with
    | none => s
    | some (t, h, fresh) =>
      let s := s.passTo (s.rc + (t - s.timeBase.toNat))
      let s := if fresh then { s with twSys := { s.twSys with plan := some h, coming := none } } else s
      heatBoundary (fun s => heatEffects (s.setReg A.TW_HEAT_K (BitVec.ofNat 32 ((t - h.start.toNat) / max 1 h.period.toNat)))) s
  else s

/-- A heat starts under the selected source. -/
def heatStart (s : State) : State :=
  if s.runnerOn then
    match s.fld A.RUN_HEAT_CFG F.RUN_HEAT_CFG_SRC with
    | 1 => localHeat s
    | 2 => groupHeat s
    | 3 => systemHeat s
    | _ => s
  else s

end Sys2Proof.Machine
end

