-- ==== Sys2Proof/Machine/Assay.lean ====
section
/-! DEFINITION. Assay self-test, and what follows a mismatch in a locked pair (R370 to R373, R450 to R462). -/

namespace Sys2Proof.Machine

def State.setAssay (s : State) (x : AssayState) : State := { s with assay := x }

/-! ### Conditions and admission (R451, R453) -/

/-- The core of pair `p` that runs alone after arbitration, whose record is the lower core's (R372). -/
def State.survivor (s : State) (p : Nat) : Nat :=
  if s.fld (A.LOCK_STATUS p) F.LOCK_STATUS_OUTCOME = 2 then 2 * p else 2 * p + 1

/-- Core `c` is in its wait state, or its pair is in CHECK or HELD; the failed core of a pair that runs alone never waits. -/
def State.coreQuiet (s : State) (c : Nat) : Bool :=
  ((s.core (s.coreRecord c)).waiting && (decide (s.pairState (c / 2) ≠ 3) || decide (s.survivor (c / 2) = c))) ||
    decide (s.pairState (c / 2) = 2) || decide (s.pairState (c / 2) = 4)

def State.lawsDisabled (s : State) (first n : Nat) : Bool := (List.range n).all (fun i => s.lawDisabled (first + i))
def State.pgsDisabled (s : State) (first n : Nat) : Bool := (List.range n).all (fun i => s.pgDisabled (first + i))
def State.channelsDisabled (s : State) : Bool := (List.range 256).all (fun n => s.bit (A.TC_STATUS n) F.TC_STATUS_DISABLED)

/-- The condition of R451 for region `r`. -/
def State.regionReady (s : State) (r : Nat) : Bool :=
  if r < 16 then s.coreQuiet r
  else if r < 24 then s.lawsDisabled (4 * (r - 16)) 4
  else if r < 32 then decide (s.pairState (r - 24) ≠ 1) && decide (s.pairState (r - 24) ≠ 3)
  else if r = 32 ∨ r = 33 ∨ r = 68 then !s.heatRunning && s.channelsDisabled
  else if r = 34 then !s.released || s.pgsDisabled 0 48
  else if r = 35 ∨ (64 ≤ r ∧ r < 68) then s.lawsDisabled 0 32
  else if r < 40 then s.pgsDisabled (12 * (r - 36)) 12
  else if r < 56 then s.coreQuiet (r - 40)
  else if r < 64 then s.lawsDisabled (4 * (r - 56)) 4
  else decide (70 ≤ r) && decide (r < 86)

/-- Regions under test. -/
def State.testing (s : State) : Nat := bit01 s.assay.lane0.isSome + bit01 s.assay.lane1.isSome

/-- `k` further regions are admitted (R47, R453). -/
def State.admitted (s : State) (k : Nat) : Bool :=
  let eta := if 120 ≤ s.fld A.PM_POWER F.PM_POWER_VIN then 85 else 80
  decide (s.supply.pBase * eta + (s.testing + k) * 3500 ≤ s.fld A.PM_LIMIT F.PM_LIMIT_PWR_LIMIT * eta)

/-- Region `r` is requested in ASSAY.REQ. -/
def State.requested (s : State) (r : Nat) : Bool := (s.reg (A.ASSAY_REQ (r / 32))).getLsbD (r % 32)

/-- The regions that start together with region `r`: both cores of a locked pair (R451). -/
def State.together (s : State) (r : Nat) : List Nat :=
  if (r < 16 ∨ (40 ≤ r ∧ r < 56)) ∧ s.pairState (r % 40 % 16 / 2) = 1 then [r / 2 * 2, r / 2 * 2 + 1] else [r]

/-- The regions that arbitration asks for, in order. -/
def State.arbitrationRegions (s : State) : List Nat := s.assay.arbitrations.flatMap (·.queue)

/-- The regions that may start now but for their lane and their admission, in the order of R454; at boot those of the boot (R458). -/
def State.candidates (s : State) : List (List Nat) :=
  s.arbitrationRegions.map (fun r => [r]) ++
    (match s.assay.boot with
     | some b => (b.queue.take 1).map (fun r => [r])
     | none => ((List.range 86).filter (fun r => s.requested r && s.regionReady r)).map s.together)

/-- There is a lane for each of the regions. -/
def State.laneFor (s : State) (g : List Nat) : Bool := decide (s.testing + g.length ≤ 2)

/-- ASSAY.STATUS.WAITING: a region that is requested, for arbitration too, or that the boot is to test waits for a condition or a free
lane. -/
def State.assayWaiting (s : State) : Bool :=
  (List.range 86).any (fun r => s.requested r && !(s.regionReady r && s.laneFor (s.together r))) ||
    s.arbitrationRegions.any (fun r => !s.laneFor [r]) ||
    (match s.assay.boot with
     | some b => decide (b.queue ≠ []) && !s.laneFor [0]
     | none => false)

/-- SUP.STATUS.ASSAY_DEFERRED: a region waits under R47. -/
def State.assayDeferred (s : State) : Bool := s.candidates.any (fun g => s.laneFor g && !s.admitted g.length)

/-! ### Starting a region (R454, R457) -/

/-- Region `r` takes a free lane, lane 0 where both are free (log entry 45), and its request clears. -/
def startRegion (s : State) (r : Nat) : State :=
  let a := s.assay
  let arb := a.arbitrations.map (fun x =>
    if x.queue.contains r then { x with queue := x.queue.erase r, running := r :: x.running } else x)
  let a := { a with arbitrations := arb, boot := a.boot.map (fun (b : BootTest) => { b with queue := b.queue.erase r }) }
  let a := if a.lane0.isNone then { a with lane0 := some r } else { a with lane1 := some r }
  let s := (s.setAssay a).setReg (A.ASSAY_REQ (r / 32)) (s.reg (A.ASSAY_REQ (r / 32)) &&& ~~~BitVec.ofNat 32 (2 ^ (r % 32)))
  if r = 32 ∨ r = 33 then { s with assayTokens := 32, riserFree := s.riserFree - (32 - s.assayTokens) } else s

/-- A free lane starts the first region that is requested, meets its condition and is admitted. -/
def assayRegionStart (s : State) : State :=
  if s.runnerOn then
    match s.candidates.find? (fun g => s.laneFor g && s.admitted g.length) with
    | none => s
    | some g => g.foldl startRegion s
  else s

/-! ### A region left in its reset state (R457) -/

/-- The registers from `lo` up to `hi` return to their reset values. -/
def clearRegs (lo hi : Nat) (s : State) : State :=
  { s with regs := s.regs.filter (fun p => decide (p.1 < lo) || decide (hi ≤ p.1)) }

/-- The numbers from `lo` up to `hi` leave a map. -/
def clearMap {α : Type} (lo hi : Nat) (m : SMap α) : SMap α := m.filter (fun p => decide (p.1 < lo) || decide (hi ≤ p.1))

/-- A core with its logic in its reset state, or with its caches and its TLB empty. -/
def Core.cleared (k : Core) : Core :=
  { k with du := { k.du with cells := [] }, ds := { k.ds with cells := [] }, ru := { k.ru with cells := [] },
           rs := { k.rs with cells := [] }, tlb := [], icache := [] }

/-- The blocks of region `r` are left in their reset state. -/
def regionReset (r : Nat) (s : State) : State :=
  if r < 16 then s.setCore r Core.reset
  else if r < 24 then
    let n := 4 * (r - 16)
    clearRegs (A.LE_CTRL n) (A.LE_CTRL (n + 4)) { s with laws := clearMap n (n + 4) s.laws }
  else if r < 32 then s
  else if r = 32 then
    clearRegs A.RUN_STATUS (A.RUN_PUSH_HI 4) { s with
      timeBase := 0, heatLast := none, heatDue := none, snaps := [], captured := [], pushes := [],
      readers := s.readers.map (fun (p : Nat × Reader) => (p.1, { p.2 with timeHi := 0 })) }
  else if r = 33 then
    clearRegs (A.TC_CTRL 0) (A.TC_CTRL 256) { s with chans := [], audit := [], turn := [], riserFree := 64 - s.assayTokens }
  else if r = 34 then clearRegs A.QUENCH_CTRL (A.QUENCH_CTRL + 0x1000) s
  else if r = 35 then { s with ports := [] }
  else if r < 40 then
    let g := 12 * (r - 36)
    clearRegs (A.PG_CTRL g) (A.PG_CTRL (g + 12)) { s with
      pgs := clearMap g (g + 12) s.pgs, outs := clearMap (4 * g) (4 * (g + 12)) s.outs, accs := clearMap (4 * g) (4 * (g + 12)) s.accs }
  else if r < 56 then
    let c := r - 40
    { s with mem := clearMap (tcmBase c) (tcmBase c + 0x40000) s.mem }.setCore c (s.core c).cleared
  else if r < 64 then
    let n := 4 * (r - 56)
    { s with lawWords := clearMap (256 * n) (256 * (n + 4)) s.lawWords, lawProg := clearMap (1024 * n) (1024 * (n + 4)) s.lawProg }
  else if r < 68 then
    let q := 131072 * (r - 64)
    { s with lawTable := clearMap q (q + 131072) s.lawTable }
  else if r = 68 then { s with chans := s.chans.map (fun p => (p.1, { p.2 with queue := [] })) }
  else if r = 69 then
    let bare := fun (d : DecState) =>
      ({ swift := { d.swift with buf := [] }, fine := { d.fine with buf := [] } } : DecState)
    clearRegs (A.FLASH_BUF 0) (A.FLASH_BUF 16) (clearRegs (A.SESSION_FWD 0) (A.SESSION_REPLY 64) { s with
      decs := s.decs.map (fun p => (p.1, bare p.2)), pushes := [], tableQ := [],
      tw := s.tw.map (fun p => (p.1, { p.2 with crossing := [], retry := [], unsent := 0, localBuf := [], transitBuf := [] })) })
  else
    let base := 0x10000000 + 0x100000 * (r - 70)
    { s with mem := clearMap base (base + 0x100000) s.mem }

/-! ### The end of a region (R456, R460, R371, R372) -/

/-- The surviving core of a pair restarts alone, with the controller, the push buffer and the snapshot copy of the lower core,
whose record is now its own; the stores already accepted land, or go on waiting for their memory (R368, R372). -/
def limpRestart (p : Nat) (s : State) : State :=
  let s := s.landStores (2 * p)
  (s.setCore (2 * p) { Core.limp (s.reg (A.LOCK_LIMP_PC p)) with stores := (s.core (2 * p)).stores }).setCore (2 * p + 1) Core.reset

/-- Arbitration of pair `p` ends with an outcome (R371); a pair that a failed region holds stays held (R460). -/
def decidePair (p outcome : Nat) (s : State) : State :=
  let s := s.setAssay { s.assay with arbitrations := s.assay.arbitrations.filter (fun x => decide (x.pair ≠ p)) }
  let s := (s.setFld (A.LOCK_STATUS p) F.LOCK_STATUS_OUTCOME outcome).setBit (A.LOCK_FLAGS p) F.LOCK_FLAGS_DECIDED
  if (outcome = 2 ∨ outcome = 3) ∧ s.bit (A.LOCK_CTRL p) F.LOCK_CTRL_LIMP_EN = true ∧ s.pairState p ≠ 4 then limpRestart p (setPairState p 3 s)
  else setPairState p 4 s

/-- The outcome from the cores that failed. -/
def outcomeOf (p : Nat) (failed : List Nat) : Nat :=
  match failed.contains (2 * p), failed.contains (2 * p + 1) with
  | false, false => 4
  | true, false => 3
  | false, true => 2
  | true, true => 6

/-- A region tested for arbitration of pair `x.pair` ended. -/
def arbitrate (x : Arbitration) (r : Nat) (failed : Bool) (s : State) : State :=
  let p := x.pair
  let put := fun (y : Arbitration) (s : State) =>
    s.setAssay { s.assay with arbitrations := s.assay.arbitrations.map (fun z => if z.pair = p then y else z) }
  if r = 24 + p then
    if failed then decidePair p 5 s else put { x with queue := [2 * p, 2 * p + 1], running := [] } s
  else
    let f := if failed then r :: x.failed else x.failed
    if x.queue = [] ∧ x.running.erase r = [] then decidePair p (outcomeOf p f) s
    else put { x with running := x.running.erase r, failed := f } s

/-- The arbitration that region `r` is being tested for. -/
def State.arbitrationOf (s : State) (r : Nat) : Option Arbitration :=
  s.assay.arbitrations.find? (fun x => x.running.contains r)

/-- A failed region of a core holds it, and a locked pair as a whole (R460). -/
def holdCore (r : Nat) (s : State) : State :=
  if r < 16 ∨ (40 ≤ r ∧ r < 56) then
    let s := s.setAssay { s.assay with failed := r :: s.assay.failed }
    if s.pairLocked (r % 40 % 16 / 2) then setPairState (r % 40 % 16 / 2) 4 s else s
  else s

/-- The result of a test is recorded in RESULT_r and in STATUS: `last` is its code. -/
def recordResult (r last : Nat) (boot : Bool) (s : State) : State :=
  let a := A.ASSAY_RESULT r
  let s := s.countSat a F.ASSAY_RESULT_RUNS
  let s := if last ≠ 1 then s.countSat a F.ASSAY_RESULT_FAILS else s
  let s := (s.setFld a F.ASSAY_RESULT_LAST last).putBit a F.ASSAY_RESULT_BOOT boot
  (s.setBit A.ASSAY_STATUS F.ASSAY_STATUS_DONE).setBitIf (decide (last ≠ 1)) A.ASSAY_STATUS F.ASSAY_STATUS_FAIL

/-- The code of a result. -/
def AssayResult.code : AssayResult → Nat
  | .pass => 1
  | .fail => 2
  | .restoreFail => 3

/-- The region under test in a lane. -/
def State.assayLane (s : State) (lane : Nat) : Option Nat := if lane = 0 then s.assay.lane0 else s.assay.lane1

/-- A lane is free again, the test tokens of the Runner or the Tundish are back, and the result of its region `r` stands; a
RESTORE_FAIL takes the region out of service, with an uncorrectable ECC event (R457). -/
def laneResult (lane r : Nat) (result : AssayResult) (boot : Bool) (s : State) : State :=
  let s := s.setAssay (if lane = 0 then { s.assay with lane0 := none } else { s.assay with lane1 := none })
  let s := if (r = 32 ∨ r = 33) ∧ s.underTest 32 = false ∧ s.underTest 33 = false then
      { s with assayTokens := 0, riserFree := s.riserFree + s.assayTokens }
    else s
  let s := recordResult r (AssayResult.code result) boot s
  if result = .restoreFail then
    (regionReset r s).eccEvent.setAssay { (regionReset r s).assay with lost := r :: s.assay.lost }
  else s

/-- The test in a lane ends. -/
def assayRegionEnd (lane : Nat) (result : AssayResult) (s : State) : State :=
  match s.assayLane lane with
  | none => s
  | some r =>
    let s := laneResult lane r result false s
    match s.arbitrationOf r with
    | some x => arbitrate x r (decide (result ≠ .pass)) s
    | none => if result = .pass then s else holdCore r s

/-! ### Requests (R454, R462) -/

def rejectAssay (s : State) : State := s.setBit A.ASSAY_STATUS F.ASSAY_STATUS_CFG_REJECT

/-- The bits of REQ_k that name a region. -/
def regionBits (k : Nat) : Word := if k = 2 then 0x003FFFFF else 0xFFFFFFFF

/-- A write to ASSAY.REQ_k; a request for region 69 is refused. -/
def assayRequest (k : Nat) (bits : Word) (s : State) : State :=
  let bad : Word := if k = 2 then 0x20 else 0
  let s' := s.setReg (A.ASSAY_REQ k) (s.reg (A.ASSAY_REQ k) ||| (bits &&& regionBits k &&& ~~~bad))
  if bits &&& bad = 0 then s' else rejectAssay s'

/-- A write to ASSAY.CANCEL_k. -/
def assayCancel (k : Nat) (bits : Word) (s : State) : State := s.setReg (A.ASSAY_REQ k) (s.reg (A.ASSAY_REQ k) &&& ~~~bits)

/-- A write that would end the condition of one of these regions, and one is under test, or out of service for good (R452, R457, log entry
96). -/
def State.testBlocks (s : State) (rs : List Nat) : Bool := rs.any (fun r => s.underTest r || s.outOfService r)

/-- The regions whose condition the enabling of law engine `n`, channel or group `g` would end. -/
def lawRegions (n : Nat) : List Nat := [16 + n / 4, 56 + n / 4, 35, 64, 65, 66, 67]
def channelRegions : List Nat := [32, 33, 68]
def State.pgRegions (s : State) (g : Nat) : List Nat :=
  (36 + g / 12) :: ((if s.released then [34] else []) ++ (if s.heatRef g then channelRegions else []))

/-- The heats of a system schedule would start, and end the condition of the Runner, the Tundish and its slots (R451, R452). -/
def State.issueBlocked (s : State) : Bool :=
  decide (s.fld A.RUN_HEAT_CFG F.RUN_HEAT_CFG_SRC = 3) && s.testBlocks channelRegions

end Sys2Proof.Machine
end

