-- ==== Sys2Proof/Machine/Flash.lean ====
section
/-! DEFINITION. The flash controller: commands, protection, the password, bad blocks, boot-selection records and SWAP
(R379 to R397, R402). -/

namespace Sys2Proof.Machine

/-! ### Blocks, lines and units -/

/-- The block of flash offset `x`, and the unit of a block (R380). -/
def blockOf (x : Nat) : Nat := x / 0x20000
def unitOf (block : Nat) : Nat := block / 8

/-- Replace the flash record. -/
def State.setFlash (s : State) (f : FlashState) : State := { s with flash := f }

/-- Write bytes into the array from offset `x`. -/
def flashPut : Nat → List Byte → SMap Byte → SMap Byte
  | _, [], m => m
  | x, b :: bs, m => flashPut (x + 1) bs (mapSet (fun _ => 0xFF) m x b)

/-- No line of the flash addresses from `a` up to `b` holds an uncorrectable error any longer. -/
def State.cleanFlash (s : State) (a b : Nat) : State :=
  { s with
    poison := s.poison.filter (fun u => decide (u < 0x40000000 + a) || decide (0x40000000 + b ≤ u)),
    upsets := s.upsets.filter (fun p => decide (p.1 < 0x40000000 + a) || decide (0x40000000 + b ≤ p.1)) }

/-- Program a blank line. -/
def programLine (l : Nat) (data : List Byte) (s : State) : State :=
  (s.cleanFlash (64 * l) (64 * l + 64)).setFlash
    { s.flash with bytes := flashPut (64 * l) data s.flash.bytes, lines := mapSet (fun _ => false) s.flash.lines l true,
                   torn := s.flash.torn.filter (fun p => decide (p.1 ≠ l)) }

/-- Erase a block to blank lines. -/
def eraseBlock (b : Nat) (s : State) : State :=
  (s.cleanFlash (0x20000 * b) (0x20000 * b + 0x20000)).setFlash
    { s.flash with bytes := s.flash.bytes.filter (fun p => decide (p.1 / 0x20000 ≠ b)),
                   lines := s.flash.lines.filter (fun p => decide (p.1 / 2048 ≠ b)),
                   torn := s.flash.torn.filter (fun p => decide (p.1 / 2048 ≠ b)) }

/-- Leave a line indeterminate: each of its bytes is a free value (R387, R389). -/
def tearLine (s : State) (l : Nat) : State :=
  let s' := s.setFlash { s.flash with torn := (l, s.freeCount) :: s.flash.torn.filter (fun p => decide (p.1 ≠ l)),
                                      lines := mapSet (fun _ => false) s.flash.lines l true }
  { s' with freeCount := s.freeCount + 64 }

/-- Leave a line of a boot-selection block indeterminate: it reads with an uncorrectable error, so that it is no valid record
(R389, R396). -/
def spoilLine (s : State) (l : Nat) : State :=
  let t := tearLine s l
  { t with poison := noteUnit (0x40000000 + 64 * l) t.poison }

/-! ### Results (R402) -/

namespace FlashResult
def ok : Nat := 0
def notBlank : Nat := 1
def protected' : Nat := 2
def suspended : Nat := 3
def programFail : Nat := 4
def noSpare : Nat := 5
def badBlock : Nat := 6
def targetInvalid : Nat := 7
def wrongPassword : Nat := 8
def lockedOut : Nat := 9
def nothingToDo : Nat := 10
def seqExhausted : Nat := 11
end FlashResult

def State.flashUnlocked (s : State) : Bool := s.bit A.FLASH_STATUS F.FLASH_STATUS_UNLOCKED
def State.flashBusy (s : State) : Bool := s.bit A.FLASH_STATUS F.FLASH_STATUS_BUSY

/-- A PROGRAM or ERASE of block `b` is refused as protected (R387, R391). -/
def State.flashProtected (s : State) (b : Nat) : Bool :=
  decide (b < 10) || (s.flash.prot.getLsbD (unitOf b) && !s.flashUnlocked)

/-- The cause for which a PROGRAM of line `l` fails, or 0 (R387). -/
def State.programCause (s : State) (l : Nat) : Nat :=
  let b := l / 2048
  if s.flashProtected b then FlashResult.protected'
  else if s.flash.bad.contains b then FlashResult.badBlock
  else if s.flash.suspended = some b then FlashResult.suspended
  else if !s.blankLine l then FlashResult.notBlank
  else FlashResult.ok

/-- The cause for which an ERASE of block `b` fails, or 0 (R387). -/
def State.eraseCause (s : State) (b : Nat) : Nat :=
  if s.flashProtected b then FlashResult.protected'
  else if s.flash.bad.contains b then FlashResult.badBlock
  else FlashResult.ok

/-! ### Bad blocks (R390) -/

/-- The spare that block `b` is mapped to. -/
def FlashState.spareOf (f : FlashState) (b : Nat) : Option Nat :=
  (f.remap.find? (fun e => decide (e.kind ≤ 1) && decide (e.block = b))).map (·.spare)

/-- The physical block of logical block `b`, where spare i stands at 512 + i. -/
def FlashState.physical (f : FlashState) (b : Nat) : Nat :=
  match f.spareOf b with
  | some i => 512 + i
  | none => b

/-- The next good spare: the lowest that no entry names. -/
def FlashState.nextSpare (f : FlashState) : Option Nat :=
  (List.range 32).find? (fun i => !f.remap.any (fun e => decide (e.kind ≠ 3) && decide (e.spare = i)))

/-- Count an erase of block `b`, and show the count. -/
def countErase (b : Nat) (s : State) : State :=
  let k := s.flash.physical b
  let n := mapGet (fun _ => 0) s.flash.erases k + 1
  (s.setFlash { s.flash with erases := mapSet (fun _ => 0) s.flash.erases k n }).setReg A.FLASH_ERASE_COUNT (BitVec.ofNat 32 n)

/-- The remap table with block `b` mapped to spare `i`; a spare it was mapped to before is marked bad. -/
def FlashState.remapped (f : FlashState) (b i : Nat) : List Remap :=
  let old := match f.spareOf b with
    | some j => [({ kind := 2, block := 0, spare := j } : Remap)]
    | none => []
  f.remap.filter (fun e => !(decide (e.kind ≤ 1) && decide (e.block = b))) ++ old ++ [{ kind := 1, block := b, spare := i }]

/-- The end of an ERASE of block `b` that no cause of R387 stopped: it verified, or the block is remapped. -/
def finishErase (b : Nat) (verified : Bool) (s : State) : State × Nat :=
  let f := s.flash
  if verified && !f.retire.contains b then (countErase b (eraseBlock b s), FlashResult.ok)
  else
    match f.nextSpare with
    | none => (s.setFlash { f with bad := b :: f.bad,
                                   remap := if f.remap.length < 64 then f.remap ++ [{ kind := 3, block := b, spare := 0 }] else f.remap },
        FlashResult.noSpare)
    | some i =>
      if 64 < (f.remapped b i).length then (s.setFlash { f with bad := b :: f.bad }, FlashResult.noSpare)
      else
        let s := (eraseBlock b s).setFlash { (eraseBlock b s).flash with
          remap := f.remapped b i, retire := f.retire.filter (fun x => decide (x ≠ b)) }
        ((countErase b s).setBit A.FLASH_STATUS F.FLASH_STATUS_REMAPPED, FlashResult.ok)

/-! ### Boot blocks and boot selection (R88, R393 to R395) -/

/-- A little-endian word of the array. -/
def State.flashWord (s : State) (x : Nat) : Nat := leNat (s.flashBytes x 4)

/-- Every byte of a range is zero. -/
def allZero (bs : List Byte) : Bool := bs.all (fun b => decide (b = 0))

/-- The first offset of boot block A (0) or B (1). -/
def bootBase (k : Nat) : Nat := if k = 0 then 0x200000 else 0x1200000

/-- The option word is legal (R88). -/
def optionOk (w : Nat) : Bool := decide (w < 2048) && decide (w / 256 % 4 ≠ 3)

/-- FAIL code of the header of boot block `k`, or 0 (R393): MAGIC and the CRC first, then the option word, then the
other fields (log entry 22). A line with an uncorrectable error is no good header. -/
def State.headerFail (s : State) (k : Nat) : Nat :=
  let x := bootBase k
  let po := s.flashWord (x + 12)
  if s.flashWord x ≠ 0x42424D5A ∨ s.flashWord (x + 60) ≠ crc32 (s.flashBytes x 60) then 1
  else if !optionOk (s.flashWord (x + 4)) then 2
  else if po % 64 ≠ 0 ∨ po < 64 ∨ 0x800000 < po ∨ !allZero (s.flashBytes (x + 16) 44) ∨ s.poisoned (0x40000000 + x) = true then 1
  else 0

/-- SEQ and ACTIVE of the record in line `l`, if it is valid (R394). -/
def State.selRecord (s : State) (l : Nat) : Option (Nat × Nat) :=
  let x := 64 * l
  let seq := s.flashWord (x + 4)
  let act := (s.flashByte (x + 8)).toNat
  if s.flashWord x = 0x4C45535A ∧ 1 ≤ seq ∧ seq ≤ 0xFFFFFFFE ∧ act ≤ 1 ∧ allZero (s.flashBytes (x + 9) 51) ∧
      s.flashWord (x + 60) = crc32 (s.flashBytes x 60) ∧ s.poisoned (0x40000000 + x) = false then some (seq, act)
  else none

/-- The winning record among the programmed lines of SEL_0 and SEL_1: line, SEQ and ACTIVE (R394). -/
def State.selWinner (s : State) : Option (Nat × Nat × Nat) :=
  (s.flash.lines.filter (fun p => decide (8 * 2048 ≤ p.1) && decide (p.1 < 10 * 2048))).foldl (fun best p =>
    match s.selRecord p.1 with
    | none => best
    | some r =>
      match best with
      | none => some (p.1, r)
      | some b => if b.2.1 < r.1 then some (p.1, r) else best) none

/-- The bytes of a boot-selection record. -/
def selBytes (seq act : Nat) : List Byte :=
  let body := leBytes 4 0x4C45535A ++ leBytes 4 seq ++ leBytes 1 act ++ List.replicate 51 0
  body ++ leBytes 4 (crc32 body)

/-- SEL_SEQ and SEL take the winning record (R402). -/
def loadSel (s : State) : State :=
  match s.selWinner with
  | none => (s.setReg A.FLASH_SEL 0).setReg A.FLASH_SEL_SEQ 0
  | some w => (s.setReg A.FLASH_SEL (BitVec.ofNat 32 w.2.2)).setReg A.FLASH_SEL_SEQ (BitVec.ofNat 32 w.2.1)

/-- What a SWAP sets out to do: whether it erases `block` first, and the line, SEQ and ACTIVE it programs. -/
structure SwapPlan where
  erase : Bool
  block : Nat
  line : Nat
  seq : Nat
  act : Nat
deriving DecidableEq, Repr

/-- The plan of a SWAP, or the result of the first check that fails (R395). -/
def State.swapPlan (s : State) : Except Nat SwapPlan :=
  let cur := s.selWinner
  let seq := match cur with
    | some w => w.2.1
    | none => 0
  let act := match cur with
    | some w => w.2.2
    | none => 0
  let blk := match cur with
    | some w => w.1 / 2048
    | none => 8
  let target := 1 - act
  if s.flash.prot.getLsbD 1 && !s.flashUnlocked then .error FlashResult.protected'
  else if seq = 0xFFFFFFFE then .error FlashResult.seqExhausted
  else if s.headerFail target ≠ 0 then .error FlashResult.targetInvalid
  else
    match (List.range 2048).find? (fun i => s.blankLine (2048 * blk + i)) with
    | some i => .ok { erase := false, block := blk, line := 2048 * blk + i, seq := seq + 1, act := target }
    | none => .ok { erase := true, block := 17 - blk, line := 2048 * (17 - blk), seq := seq + 1, act := target }

/-- The ERASE within a SWAP or a SET_KEY, which protection does not stop (R390). -/
def innerErase (b : Nat) (erased : Bool) (s : State) : State × Nat :=
  if s.flash.bad.contains b then (s, FlashResult.badBlock) else finishErase b erased s

/-- The PROGRAM within a SWAP or a SET_KEY: a line that does not verify is indeterminate, and its block is marked for retirement
(R387, R390). -/
def innerProgram (l : Nat) (data : List Byte) (verified : Bool) (s : State) : State × Nat :=
  if verified then (programLine l data s, FlashResult.ok)
  else
    let s := tearLine s l
    (s.setFlash { s.flash with retire := l / 2048 :: s.flash.retire }, FlashResult.programFail)

/-- SWAP (R395): the state after it, and its result. -/
def runSwap (verified erased : Bool) (s : State) : State × Nat :=
  match s.swapPlan with
  | .error r => (s, r)
  | .ok p =>
    let e := if p.erase then innerErase p.block erased s else (s, FlashResult.ok)
    if e.2 ≠ FlashResult.ok then e
    else
      let r := innerProgram p.line (selBytes p.seq p.act) verified e.1
      if (r.1.selRecord p.line).isNone then (r.1, FlashResult.programFail)
      else
        ((r.1.setReg A.FLASH_SEL (BitVec.ofNat 32 p.act)).setReg A.FLASH_SEL_SEQ (BitVec.ofNat 32 p.seq), FlashResult.ok)

/-! ### The session key record (R444) -/

/-- The hash of the session key, if the record in line 0 of block 10 is valid. -/
def State.keyRecord (s : State) : Option (List Byte) :=
  let x := 10 * 0x20000
  if s.flashWord x = 0x59454B5A ∧ allZero (s.flashBytes (x + 36) 24) ∧ s.flashWord (x + 60) = crc32 (s.flashBytes x 60) ∧
      s.poisoned (0x40000000 + x) = false then some (s.flashBytes (x + 4) 32)
  else none

/-- The hash that OPEN compares with: the record's, or that of 16 zero bytes. -/
def State.keyHash (s : State) : List Byte :=
  match s.keyRecord with
  | some h => h
  | none => hashBytes FlashState.factory.pwdHash

/-- DEFAULT_KEY is set while the record is blank or invalid. -/
def judgeKey (s : State) : State :=
  s.putBit A.SESSION_STATUS F.SESSION_STATUS_DEFAULT_KEY s.keyRecord.isNone

/-- The session key record of a hash. -/
def keyBytes (h : BitVec 256) : List Byte :=
  let body := leBytes 4 0x59454B5A ++ hashBytes h ++ List.replicate 24 0
  body ++ leBytes 4 (crc32 body)

/-- Write the session key record: erase block 10 and program its line 0. -/
def writeKey (h : BitVec 256) (verified erased : Bool) (s : State) : State × Nat :=
  let e := innerErase 10 erased s
  let r := if e.2 ≠ FlashResult.ok then e else innerProgram (10 * 2048) (keyBytes h) verified e.1
  (judgeKey r.1, r.2)

/-! ### Commands (R385, R386) -/

/-- The command's OFFSET is as its row asks. -/
def flashOffsetOk (code x : Nat) : Bool :=
  if code = 1 then decide (x % 64 = 0) else if code = 2 then decide (x % 0x20000 = 0) else decide (x = 0)

/-- The block that an ERASE erases now. DESIGN CHOICE (log entry 23): the causes of R387 are those at the ERASE's start, so that an ERASE
which one of them stops erases nothing, and RESUME goes on with one that none stopped. -/
def State.erasing (s : State) : Option Nat :=
  match s.flash.job with
  | some (.erase b begun) => if begun || decide (s.eraseCause b = 0) then some b else none
  | _ => none

/-- The command is refused (R385); SUSPEND is accepted while an ERASE runs, although BUSY is 1 (R388, log entry 23). -/
def State.flashRefuses (s : State) (user : Bool) (code x : Nat) : Bool :=
  user || decide (code = 0) || decide (9 < code) || !flashOffsetOk code x ||
    (s.flashBusy && !(decide (code = 3) && s.erasing.isSome)) ||
    (s.bit A.FLASH_STATUS F.FLASH_STATUS_SUSPENDED && !(decide (code = 1) || decide (code = 4) || decide (code = 7)))

/-- PWD_0 to PWD_3 as 16 bytes, and cleared. -/
def State.password (s : State) : List Byte :=
  ((List.range 4).map (fun k => leBytes 4 (s.reg (A.FLASH_PWD k)).toNat)).flatten
def clearPassword (s : State) : State := (List.range 4).foldl (fun s k => s.setReg (A.FLASH_PWD k) 0) s

/-- BUF_0 to BUF_15 as the bytes of a line. -/
def State.lineBuffer (s : State) : List Byte :=
  ((List.range 16).map (fun k => leBytes 4 (s.reg (A.FLASH_BUF k)).toNat)).flatten

/-- A command starts: BUSY is set, and a PROGRAM, ERASE or SWAP is recorded in the journal die (R389). -/
def startJob (j : FlashJob) (rec : Option (Nat × Nat)) (s : State) : State :=
  (s.setFlash { s.flash with job := some j, records := (rec.toList ++ s.flash.records) }).setBit A.FLASH_STATUS F.FLASH_STATUS_BUSY

/-- The effect of an accepted command at its start. -/
def acceptFlash (code x : Nat) (s : State) : State :=
  match code with
  | 1 => startJob (.program x s.lineBuffer) (some (1, x)) s
  | 2 => startJob (.erase (blockOf x) false) (some (2, x)) s
  | 3 => startJob (.suspend s.erasing) none s
  | 4 =>
    match s.flash.suspended with
    | some b =>
      startJob (.erase b true) none ((s.setFlash { s.flash with suspended := none }).clrBit A.FLASH_STATUS F.FLASH_STATUS_SUSPENDED)
    | none => startJob .resume none s
  | 5 => startJob .swap (some (3, 0)) s
  | 6 => clearPassword (startJob (.unlock (sha256 s.password)) none s)
  | 7 => startJob .lock none s
  | 8 => clearPassword (startJob (.setPwd (sha256 s.password)) none s)
  | _ => startJob (.setProt ((s.reg (A.FLASH_BUF 1)) ++ (s.reg (A.FLASH_BUF 0)))) none s

/-- A write to FLASH.CMD. -/
def flashCommand (user : Bool) (code x : Nat) (s : State) : State :=
  if s.flashRefuses user code x then s.setBit A.FLASH_STATUS F.FLASH_STATUS_CFG_REJECT else acceptFlash code x s

/-- A command ends: BUSY clears, DONE is set and RESULT takes its code. -/
def endJob (keep : Nat → Bool) (r : State × Nat) : State :=
  let s := r.1.setFlash { r.1.flash with job := none, records := r.1.flash.records.filter (fun p => keep p.1) }
  ((s.clrBit A.FLASH_STATUS F.FLASH_STATUS_BUSY).setBit A.FLASH_STATUS F.FLASH_STATUS_DONE).setFld
    A.FLASH_STATUS F.FLASH_STATUS_RESULT r.2

/-- UNLOCK (R392). -/
def runUnlock (h : BitVec 256) (s : State) : State × Nat :=
  let f := s.flash
  if f.pwdLocked then (s, FlashResult.lockedOut)
  else if h = f.pwdHash then
    ((s.setFlash { f with pwdFails := 0 }).setBit A.FLASH_STATUS F.FLASH_STATUS_UNLOCKED, FlashResult.ok)
  else
    let s := s.setFlash { f with pwdFails := f.pwdFails + 1, pwdLocked := decide (5 ≤ f.pwdFails + 1) }
    (s.setBitIf (decide (5 ≤ f.pwdFails + 1)) A.FLASH_STATUS F.FLASH_STATUS_LOCKOUT, FlashResult.wrongPassword)

/-- The protection map in PROT_LO and PROT_HI. -/
def showProt (s : State) : State :=
  (s.setReg A.FLASH_PROT_LO (s.flash.prot.setWidth 32)).setReg A.FLASH_PROT_HI ((s.flash.prot >>> 32).setWidth 32)

/-- SET_PROT (R391). -/
def runSetProt (m : BitVec 64) (s : State) : State × Nat :=
  let m := m ||| 1
  if s.flash.prot &&& ~~~m ≠ 0 ∧ s.flashUnlocked = false then (s, FlashResult.protected')
  else (showProt (s.setFlash { s.flash with prot := m }), FlashResult.ok)

/-- PROGRAM at its end (R387). -/
def runProgram (x : Nat) (data : List Byte) (verified : Bool) (s : State) : State × Nat :=
  let l := x / 64
  let cause := s.programCause l
  if cause ≠ 0 then (s, cause)
  else if verified then (programLine l data s, FlashResult.ok)
  else
    let s := tearLine s l
    (s.setFlash { s.flash with retire := blockOf x :: s.flash.retire }, FlashResult.programFail)

/-- ERASE at its end (R387, R390). -/
def runErase (b : Nat) (begun verified : Bool) (s : State) : State × Nat :=
  if begun = false ∧ s.eraseCause b ≠ 0 then (s, s.eraseCause b) else finishErase b verified s

/-- After a PROGRAM or an ERASE of block 10 the session key record is judged anew (R444). -/
def keyJudged (b : Nat) (r : State × Nat) : State × Nat := if b = 10 then (judgeKey r.1, r.2) else r

/-- The command in progress ends; `verified` says whether what it wrote verifies, and `erased` whether the ERASE within a SWAP or a
SET_KEY does. -/
def commandEnd (verified erased : Bool) (s : State) : State :=
  match s.flash.job with
  | none => s
  | some (.program x data) => endJob (fun k => decide (k ≠ 1)) (keyJudged (blockOf x) (runProgram x data verified s))
  | some (.erase b begun) => endJob (fun k => decide (k ≠ 2)) (keyJudged b (runErase b begun verified s))
  | some (.suspend (some b)) =>
    endJob (fun _ => true) (((s.setFlash { s.flash with suspended := some b }).setBit A.FLASH_STATUS
      F.FLASH_STATUS_SUSPENDED).setReg A.FLASH_SUSPEND_BLOCK (BitVec.ofNat 32 b), FlashResult.ok)
  | some (.suspend none) => endJob (fun _ => true) (s, FlashResult.nothingToDo)
  | some .resume => endJob (fun _ => true) (s, FlashResult.nothingToDo)
  | some .swap => endJob (fun k => decide (k ≠ 3)) (runSwap verified erased s)
  | some (.unlock h) => endJob (fun _ => true) (runUnlock h s)
  | some .lock => endJob (fun _ => true) (s.clrBit A.FLASH_STATUS F.FLASH_STATUS_UNLOCKED, FlashResult.ok)
  | some (.setPwd h) =>
    endJob (fun _ => true) (if s.flashUnlocked then (s.setFlash { s.flash with pwdHash := h }, FlashResult.ok)
      else (s, FlashResult.protected'))
  | some (.setProt m) => endJob (fun _ => true) (runSetProt m s)
  | some (.setKey h) => endJob (fun _ => true) (writeKey h verified erased s)

/-- The lockout of UNLOCK ends (R392). -/
def flashLockoutExpiry (s : State) : State :=
  (s.setFlash { s.flash with pwdLocked := false }).clrBit A.FLASH_STATUS F.FLASH_STATUS_LOCKOUT

/-- FLASH.INTERRUPTED.VALID is cleared, and the other fields with it (R402). -/
def interruptedClear (s : State) : State := s.setReg A.FLASH_INTERRUPTED 0

/-- The word that REMAP_ENTRY shows (R402). -/
def State.remapEntry (s : State) : Word :=
  match (s.flash.remap.drop (s.fld A.FLASH_REMAP_SEL F.FLASH_REMAP_SEL_INDEX)).head? with
  | none => 0
  | some e =>
    fieldBits F.FLASH_REMAP_ENTRY_VALID 1 ||| fieldBits F.FLASH_REMAP_ENTRY_KIND e.kind |||
      fieldBits F.FLASH_REMAP_ENTRY_BLOCK (if e.kind = 2 then 0 else e.block) |||
      fieldBits F.FLASH_REMAP_ENTRY_SPARE (if e.kind = 3 then 0 else e.spare)

/-! ### Resets (R389, R396) -/

/-- Leave every line of block `b` indeterminate. -/
def tearBlock (b : Nat) (s : State) : State := (List.range 2048).foldl (fun s i => tearLine s (2048 * b + i)) s

/-- A SWAP that a full reset interrupts has done nothing, or is in its ERASE or in its PROGRAM, which leave the block or the line
indeterminate, or is complete: which one is a free value (R389, R396). A SWAP whose ERASE meets a bad block does nothing. -/
def swapAbandon (s : State) : State :=
  match s.swapPlan with
  | .error _ => s
  | .ok p =>
    let v := s.free.toNat % 4
    let s := s.spent
    let spoil := fun (s : State) => spoilLine s p.line
    if v = 0 ∨ (p.erase = true ∧ s.flash.bad.contains p.block = true) then s
    else if v = 1 then (if p.erase then (List.range 2048).foldl (fun s i => spoilLine s (2048 * p.block + i)) s else spoil s)
    else if v = 2 then spoil (if p.erase then eraseBlock p.block s else s)
    else (runSwap true true s).1

/-- A SET_KEY likewise: nothing, an indeterminate block, the erase alone, an indeterminate record, or the new one (R389, R444). -/
def keyAbandon (h : BitVec 256) (s : State) : State :=
  let v := s.free.toNat % 5
  let s := s.spent
  if v = 0 ∨ s.flash.bad.contains 10 = true then s
  else if v = 1 then tearBlock 10 s
  else if v = 2 then eraseBlock 10 s
  else if v = 3 then tearLine (eraseBlock 10 s) (10 * 2048)
  else (writeKey h true true s).1

/-- A full reset abandons the command in progress and a suspended erase, whose line or block it leaves indeterminate. -/
def flashAbandon (s : State) : State :=
  let s := match s.flash.suspended with
    | some b => tearBlock b s
    | none => s
  let s := match s.flash.job with
    | some (.program x _) => if s.programCause (x / 64) = 0 then tearLine s (x / 64) else s
    | some (.erase b begun) => if begun = true ∨ s.eraseCause b = 0 then tearBlock b s else s
    | some (.suspend (some b)) => tearBlock b s
    | some .swap => swapAbandon s
    | some (.setKey h) => keyAbandon h s
    | _ => s
  s.setFlash { s.flash with job := none, suspended := none }

/-- At power-up FLASH.INTERRUPTED shows an unfinished command, and the non-volatile values are shown. -/
def flashStart (s : State) : State :=
  let s := match s.flash.records with
    | [] => s
    | p :: _ => s.setReg A.FLASH_INTERRUPTED (fieldBits F.FLASH_INTERRUPTED_VALID 1 |||
        fieldBits F.FLASH_INTERRUPTED_CMD p.1 ||| fieldBits F.FLASH_INTERRUPTED_OFFSET p.2)
  let s := s.setFlash { s.flash with records := [] }
  judgeKey (loadSel (showProt (s.putBit A.FLASH_STATUS F.FLASH_STATUS_LOCKOUT s.flash.pwdLocked)))

end Sys2Proof.Machine
end

