-- ==== Sys2Proof/Machine/Session.lean ====
section
/-! DEFINITION. Host links, the test access port, management messages and sessions (chapter 19). -/

namespace Sys2Proof.Machine

/-- Replace the record of the host ports. -/
def State.setHost (s : State) (h : HostState) : State := { s with host := h }

/-! ### Ports and sessions (R438, R446) -/

/-- A session is open on port `p`. -/
def State.sessionOpen (s : State) (p : Nat) : Bool := (s.fld A.SESSION_STATUS F.SESSION_STATUS_OPEN).testBit p

/-- Port `p` is locked out (R445). -/
def State.lockedOut (s : State) (p : Nat) : Bool := (s.fld A.SESSION_STATUS F.SESSION_STATUS_LOCKOUT).testBit p

/-- Set or clear bit `i` of a field. -/
def State.putFieldBit (s : State) (a : Nat) (f : Fld) (i : Nat) (b : Bool) : State :=
  let v := s.fld a f
  s.setFld a f (if v.testBit i = b then v else if b then v + 2 ^ i else v - 2 ^ i)

/-- The host interfaces are powered and work (R51, R69). -/
def State.hostOn (s : State) : Bool := s.alive && decide (s.supply.power ≠ .hold)

/-- The link of the host interface of port `p`: 0 PCIe, 1 and 2 Ethernet. -/
def State.hostLink (s : State) (p : Nat) : Bool := s.host.links.getLsbD p

/-- Port `p` is an Ethernet port. -/
def ethPort (p : Nat) : Bool := decide (p = 1) || decide (p = 2)

/-- Port `p` brings messages in: its interface is enabled and its link is up; in recovery that can be PCIe, Ethernet port 0 and the
debug port alone (R87, R435). -/
def State.portUp (s : State) (p : Nat) : Bool :=
  s.hostOn &&
    (match p with
     | 0 => s.hostLink 0
     | 1 => s.hostLink 1
     | 2 => s.hostLink 2
     | 3 => s.bit A.HOST_EN F.HOST_EN_HSPI
     | _ => true)

/-- The IPv6 address of Ethernet port `n`. -/
def State.ipv6 (s : State) (n : Nat) : BitVec 128 :=
  s.reg (A.ETH_MGMT_IPV6 0 n) ++ s.reg (A.ETH_MGMT_IPV6 1 n) ++ s.reg (A.ETH_MGMT_IPV6 2 n) ++ s.reg (A.ETH_MGMT_IPV6 3 n)

/-- The MAC address of Ethernet port `n`, as its six bytes in MAC_LO and MAC_HI. -/
def State.mac (s : State) (n : Nat) : BitVec 48 := (s.reg (A.ETH_MAC_HI n)).setWidth 16 ++ s.reg (A.ETH_MAC_LO n)

/-- Ethernet port `n` answers at an address (R436). -/
def State.answersAt (s : State) (n : Nat) : NetAddr → Bool
  | .ipv4 a => s.bit (A.ETH_MGMT_CTRL n) F.ETH_MGMT_CTRL_V4_EN && decide (a = s.reg (A.ETH_MGMT_IPV4 n))
  | .ipv6 a => s.bit (A.ETH_MGMT_CTRL n) F.ETH_MGMT_CTRL_V6_EN && decide (a = s.ipv6 n)

/-- A message on port `p` is one for the session engine: on an Ethernet port it is sent to UDP port 7160 of an address at which the
port answers (R436, R438). -/
def State.addressed (s : State) (p : Nat) (req : MgmtReq) : Bool :=
  !ethPort p || (decide (req.destPort = 7160) && s.answersAt (p - 1) req.dest)

/-- A session on an Ethernet port belongs to the source of its OPEN. -/
def State.ownsSession (s : State) (p : Nat) (req : MgmtReq) : Bool :=
  s.sessionOpen p && (!ethPort p || decide (mapGet (fun _ => 0) s.host.sources p = req.source))

/-- A boundary-scan drive that R433 no longer allows acts as BYPASS. -/
def tapSettle (s : State) : State :=
  if !s.released && s.sessionOpen 4 then s
  else
    match s.host.tap with
    | .extest => s.setHost { s.host with tap := .bypass }
    | .extestPulse => s.setHost { s.host with tap := .bypass }
    | .extestTrain => s.setHost { s.host with tap := .bypass }
    | _ => s

/-- The session of port `p` closes, if one is open. -/
def closeSession (p : Nat) (s : State) : State :=
  if s.sessionOpen p then
    s.latching (fun s =>
      let s := (s.putFieldBit A.SESSION_STATUS F.SESSION_STATUS_OPEN p false).setBit A.SESSION_STATUS F.SESSION_STATUS_CLOSED
      tapSettle (s.setHost { s.host with sources := mapErase s.host.sources p }))
  else s

/-! ### Messages (R439, R447) -/

namespace Result
def ok : Nat := 0
def noSession : Nat := 1
def badKey : Nat := 2
def lockedOut : Nat := 3
def alreadyOpen : Nat := 4
def badFrame : Nat := 5
def badCode : Nat := 6
def access : Nat := 7
def busy : Nat := 8
def protected' : Nat := 9
def noHandler : Nat := 10
end Result

/-- The bytes of a response. -/
def responseBytes (code tag result : Nat) (payload : List Byte) : List Byte :=
  let body := leBytes 1 (code + 0x80) ++ leBytes 1 tag ++ leBytes 2 payload.length ++ leBytes 1 result ++ leBytes 3 0 ++ payload
  body ++ leBytes 4 (crc32 body)

/-- Answer port `p`'s request: an Ethernet port sends from its own MAC address, and PCIe raises MSI-X vector 0 (R436, R438). -/
def respondTo (p code : Nat) (tag : Byte) (source : BitVec 144) (result : Nat) (payload : List Byte) (s : State) : State :=
  s.setHost { s.host with
    responses := mapInsert s.host.responses p
      { bytes := responseBytes code tag.toNat result payload, source := source, mac := if ethPort p then s.mac (p - 1) else 0 },
    msix := if p = 0 then s.host.msix ||| 1 else s.host.msix }

def respond (p code : Nat) (req : MgmtReq) (result : Nat) (payload : List Byte) (s : State) : State :=
  respondTo p code req.tag req.source result payload s

/-- The header and the payload of a request with CODE `code`, over which its CRC-32 runs. -/
def requestBody (req : MgmtReq) (code : Nat) : List Byte :=
  leBytes 1 code ++ leBytes 1 req.tag.toNat ++ leBytes 2 req.length.toNat ++ leBytes 1 req.result.toNat ++ leBytes 3 req.zeros.toNat ++
    req.payload

/-- The CRC of a request is right, and its LENGTH agrees with its body. -/
def frameOk (req : MgmtReq) (code : Nat) : Bool :=
  decide (req.length.toNat = req.payload.length) && decide (req.crc.toNat = crc32 (requestBody req code))

/-- A frame that is not for the session engine goes to firmware, with its timestamp (R437, R438). -/
def handOn (n : Nat) (frame : HandedFrame) (s : State) : State :=
  s.setHost { s.host with
    handed := mapInsert s.host.handed n (mapGet (fun _ => []) s.host.handed n ++ [{ frame := frame, time := s.timeBase }]) }

/-- The requests that wait at port `p`. -/
def State.waitingAt (s : State) (p : Nat) : List (Byte × MgmtReq) := mapGet (fun _ => []) s.host.waiting p

/-- The engine takes a request of port `p`, whose last response it takes back (R438, R443). -/
def takeRequest (p : Nat) (s : State) : State :=
  s.setHost { s.host with
    responses := mapErase s.host.responses p, lastPort := p, msix := if p = 0 then s.host.msix &&& 0xFE else s.host.msix }

/-- The engine serves one request of port `p`: a bad frame, a request without its session, and a payload of a wrong size
are answered at once; else `body` serves it (R439, R440, R446, log entry 37). -/
def serveNow (p code : Nat) (req : MgmtReq) (sizeOk : Bool) (body : State → State) (s : State) : State :=
  if !(frameOk req code) then respond p code req Result.badFrame [] s
  else if decide (code ≠ 1) && !s.ownsSession p req then respond p code req Result.noSession [] s
  else if !sizeOk then respond p code req Result.badFrame [] s
  else body s

/-- The engine is serving a request that has not been answered: a SET_KEY, or one that waits for a memory; others wait behind it
(R443, R444). -/
def State.engineBusy (s : State) : Bool := s.host.keyReply.isSome || s.host.waiting.any (fun q => decide (q.2 ≠ []))

/-- A request arrives at port `p`: the engine serves it as `now` says, it waits until the engine is free (R443), or it goes to
firmware. -/
def arrive (p code : Nat) (req : MgmtReq) (now : State → State) (s : State) : State :=
  if !s.portUp p then s
  else if !s.addressed p req then handOn (p - 1) (.message (BitVec.ofNat 8 code) req) s
  else if s.engineBusy then
    s.setHost { s.host with waiting := mapInsert s.host.waiting p (s.waitingAt p ++ [(BitVec.ofNat 8 code, req)]) }
  else now (takeRequest p s)

/-! ### The commands of R440 -/

/-- OPEN (R445). -/
def openSession (p : Nat) (req : MgmtReq) (s : State) : State :=
  if s.sessionOpen p then respond p 1 req Result.alreadyOpen [] s
  else if s.lockedOut p then respond p 1 req Result.lockedOut [] s
  else if hashBytes (sha256 req.payload) = s.keyHash then
    let s := (s.putFieldBit A.SESSION_STATUS F.SESSION_STATUS_OPEN p true).setBit A.SESSION_STATUS F.SESSION_STATUS_OPENED
    respond p 1 req Result.ok [] (s.setHost { s.host with fails := mapSet (fun _ => 0) s.host.fails p 0,
                                                          sources := mapInsert s.host.sources p req.source })
  else
    let n := min 5 (mapGet (fun _ => 0) s.host.fails p + 1)
    let s := s.setHost { s.host with fails := mapSet (fun _ => 0) s.host.fails p n }
    let s := if n < 5 then s
      else (s.putFieldBit A.SESSION_STATUS F.SESSION_STATUS_LOCKOUT p true).setBit A.SESSION_STATUS F.SESSION_STATUS_LOCKED
    respond p 1 req Result.badKey [] s

def openNow (p : Nat) (req : MgmtReq) (s : State) : State :=
  serveNow p 1 req (decide (req.payload.length = 16)) (openSession p req) s

def closeNow (p : Nat) (req : MgmtReq) (s : State) : State :=
  serveNow p 2 req (decide (req.payload = [])) (fun s => respond p 2 req Result.ok [] (closeSession p s)) s

/-- SET_KEY (R444): the flash controller erases block 10 and programs the new record; the response follows its end. -/
def setKeyNow (p : Nat) (req : MgmtReq) (s : State) : State :=
  serveNow p 7 req (decide (req.payload.length = 16)) (fun s =>
    if s.flashBusy then respond p 7 req Result.busy [] s
    else if (s.flash.prot.getLsbD 1 && !s.flashUnlocked) || decide (s.flash.suspended = some 10) then
      respond p 7 req Result.protected' [] s
    else startJob (.setKey (sha256 req.payload)) none (s.setHost { s.host with keyReply := some (p, req.tag, req.source) })) s

/-- The flash command of a SET_KEY has ended: any result of it but OK is answered with PROTECTED (log entry 86). -/
def keyReplyEnd (s : State) : State :=
  match s.host.keyReply with
  | some q =>
    if s.flashBusy then s
    else respondTo q.1 7 q.2.1 q.2.2
      (if s.fld A.FLASH_STATUS F.FLASH_STATUS_RESULT = FlashResult.ok then Result.ok else Result.protected') []
      (s.setHost { s.host with keyReply := none })
  | none => s

/-- Word `k` of a list of bytes. -/
def wordOf (bs : List Byte) (k : Nat) : Word := BitVec.ofNat 32 (leNat ((bs.drop (4 * k)).take 4))

/-- FORWARD (R442). -/
def forwardNow (p : Nat) (req : MgmtReq) (s : State) : State :=
  serveNow p 8 req (decide (1 ≤ req.payload.length) && decide (req.payload.length ≤ 256)) (fun s =>
    if s.host.forward.isSome then respond p 8 req Result.busy [] s
    else
      let s := (List.range 64).foldl (fun s k => s.setReg (A.SESSION_FWD k) (wordOf req.payload k)) s
      let s := s.setReg A.SESSION_FWD_LEN (fieldBits F.SESSION_FWD_LEN_PORT p ||| fieldBits F.SESSION_FWD_LEN_LEN req.payload.length)
      (s.setBit A.SESSION_STATUS F.SESSION_STATUS_FWD_PENDING).setHost { s.host with forward := some (p, req.tag, req.source) }) s

/-- The pending FORWARD is answered. -/
def forwardEnd (result : Nat) (payload : List Byte) (s : State) : State :=
  match s.host.forward with
  | none => s
  | some q =>
    let s := s.clrBit A.SESSION_STATUS F.SESSION_STATUS_FWD_PENDING
    respondTo q.1 8 q.2.1 q.2.2 result payload (s.setHost { s.host with forward := none })

/-- REPLY_0 to REPLY_63 as bytes. -/
def State.replyBytes (s : State) : List Byte :=
  ((List.range 64).map (fun k => leBytes 4 (s.reg (A.SESSION_REPLY k)).toNat)).flatten

/-- A write of GO to REPLY_CTRL: the reply of LEN bytes goes out; it is ignored while no FORWARD is pending. -/
def replyGo (s : State) : State :=
  forwardEnd Result.ok (s.replyBytes.take (s.fld A.SESSION_REPLY_CTRL F.SESSION_REPLY_CTRL_LEN)) s

/-- 100 ms passed without a reply. -/
def noHandler (s : State) : State := forwardEnd Result.noHandler [] s

/-- A CODE that R440 does not list. -/
def badCodeNow (p code : Nat) (req : MgmtReq) (s : State) : State :=
  respond p code req (if frameOk req code then Result.badCode else Result.badFrame) [] s

def mgmtOpen (p : Nat) (req : MgmtReq) (s : State) : State := arrive p 1 req (openNow p req) s
def mgmtClose (p : Nat) (req : MgmtReq) (s : State) : State := arrive p 2 req (closeNow p req) s
def mgmtSetKey (p : Nat) (req : MgmtReq) (s : State) : State := arrive p 7 req (setKeyNow p req) s
def mgmtForward (p : Nat) (req : MgmtReq) (s : State) : State := arrive p 8 req (forwardNow p req) s
def mgmtBadCode (p code : Nat) (req : MgmtReq) (s : State) : State :=
  if decide (1 ≤ code) && decide (code ≤ 8) then s else arrive p code req (badCodeNow p code req) s

/-- TIMEOUT seconds passed without a request (R446); with TIMEOUT 0 a session does not time out. -/
def sessionTimeout (p : Nat) (s : State) : State :=
  if s.fld A.SESSION_CTRL F.SESSION_CTRL_TIMEOUT = 0 then s else closeSession p s

/-- 60 s after the fifth failure the lockout ends (R445); the failure count stays. -/
def sessionLockoutExpiry (p : Nat) (s : State) : State :=
  s.putFieldBit A.SESSION_STATUS F.SESSION_STATUS_LOCKOUT p false

/-! ### Links (R434, R435) -/

/-- The port whose link this is. -/
def linkPort : HostLink → Nat
  | .pcie => 0
  | .eth n => n + 1

/-- HOST.EN enables the interface of a link. -/
def State.linkEnabled (s : State) (l : HostLink) : Bool :=
  match l with
  | .pcie => s.bit A.HOST_EN F.HOST_EN_PCIE
  | .eth n => (s.fld A.HOST_EN F.HOST_EN_ETH).testBit n

/-- Software, or in recovery the boot controller, has started the bring-up of a link. -/
def State.linkWanted (s : State) (l : HostLink) : Bool :=
  s.bit A.BOOT_STATUS F.BOOT_STATUS_RECOVERY ||
    (match l with
     | .pcie => s.bit A.HOST_LINK F.HOST_LINK_PCIE_UP
     | .eth n => (s.fld A.HOST_LINK F.HOST_LINK_ETH_UP).testBit n)

/-- PCIE_REFCLK toggles, or a bring-up completes: the link is up, and its controller reports no loss any longer; a PCIe link has its
reference (R95, R435). -/
def hostLinkUp (l : HostLink) (complete : Bool) (s : State) : State :=
  let s := s.setHost { s.host with pcieRef := s.host.pcieRef || (decide (l = .pcie) && s.powered) }
  if complete && s.hostOn && s.linkEnabled l && s.linkWanted l then
    let m := BitVec.ofNat 3 (2 ^ linkPort l)
    s.latching (fun s => s.setHost { s.host with links := s.host.links ||| m, linkEvents := s.host.linkEvents &&& ~~~m })
  else s

/-- The link is lost, or, where `reference` says so, PCIE_REFCLK: its source rises and the session of its port closes. -/
def hostLinkLoss (l : HostLink) (reference : Bool) (s : State) : State :=
  let ref := reference && decide (l = .pcie) && s.host.pcieRef
  if s.hostLink (linkPort l) || ref then
    let m := BitVec.ofNat 3 (2 ^ linkPort l)
    closeSession (linkPort l) (s.setHost { s.host with
      links := s.host.links &&& ~~~m, linkEvents := s.host.linkEvents ||| m, pcieRef := s.host.pcieRef && !ref })
  else s

/-- A write of HOST.LINK: a bit set for an interface that HOST.EN leaves off is refused, each bit on its own. -/
def hostLinkWrite (w : Word) (s : State) : State :=
  let want : Word := w &&& 7
  let allowed : Word := BitVec.ofNat 32 (bit01 (s.bit A.HOST_EN F.HOST_EN_PCIE) + 2 * s.fld A.HOST_EN F.HOST_EN_ETH)
  let refused := want &&& ~~~allowed
  let s' := s.setReg A.HOST_LINK ((want &&& allowed) ||| (s.reg A.HOST_LINK &&& refused))
  s'.setBitIf (decide (refused ≠ 0)) A.HOST_STATUS F.HOST_STATUS_CFG_REJECT

/-! ### Management addresses (R436) -/

def rejectHost (s : State) : State := s.setBit A.HOST_STATUS F.HOST_STATUS_CFG_REJECT

/-- An IPv4 address that R436 reserves. -/
def ipv4Reserved (w : Word) : Bool := decide (w = 0) || decide (w = 0xFFFFFFFF) || decide (w.toNat / 2 ^ 28 = 14)

/-- The IPv6 address of port `n` is all zeros or multicast. -/
def State.ipv6Bad (s : State) (n : Nat) : Bool :=
  (List.range 4).all (fun k => decide (s.reg (A.ETH_MGMT_IPV6 k n) = 0)) ||
    decide ((s.reg (A.ETH_MGMT_IPV6 0 n)).toNat / 2 ^ 24 = 0xFF)

/-- A value stored in a management register of port `n` closes the session there when it changes the register. -/
def mgmtStore (n a : Nat) (w : Word) (s : State) : State :=
  let s' := s.setReg a w
  if s'.reg a = s.reg a then s' else closeSession (n + 1) s'

/-- The address of a management register. -/
def mgmtRegAddr (n : Nat) : MgmtReg → Nat
  | .ctrl => A.ETH_MGMT_CTRL n
  | .ipv4 => A.ETH_MGMT_IPV4 n
  | .ipv6 k => A.ETH_MGMT_IPV6 k n
  | .macLo => A.ETH_MAC_LO n
  | .macHi => A.ETH_MAC_HI n

/-- A write to a management register. -/
def mgmtRegWrite (n : Nat) (r : MgmtReg) (w : Word) (s : State) : State :=
  match r with
  | .ctrl =>
    if fieldOf w F.ETH_MGMT_CTRL_V6_EN = 1 ∧ s.ipv6Bad n = true then
      rejectHost (mgmtStore n (A.ETH_MGMT_CTRL n)
        (putField w F.ETH_MGMT_CTRL_V6_EN (s.fld (A.ETH_MGMT_CTRL n) F.ETH_MGMT_CTRL_V6_EN)) s)
    else mgmtStore n (A.ETH_MGMT_CTRL n) w s
  | .ipv4 => if ipv4Reserved w then rejectHost s else mgmtStore n (A.ETH_MGMT_IPV4 n) w s
  | r => mgmtStore n (mgmtRegAddr n r) w s

/-- The address that a query asks for. -/
def queryAddr : AddressQuery → NetAddr
  | .arp a => .ipv4 a
  | .neighbour a => .ipv6 a

/-- ARP, or Neighbor Discovery: the port answers with its MAC address at an address of its own; any other query goes to firmware. -/
def addressQuery (n : Nat) (q : AddressQuery) (s : State) : State :=
  if !s.portUp (n + 1) then s
  else if s.answersAt n (queryAddr q) then s.setHost { s.host with answers := mapInsert s.host.answers n (s.mac n) }
  else handOn n (.query q) s

/-- ETH_PPS_n rises (R437). -/
def ppsRise (n : Nat) (s : State) : State :=
  if s.hostOn then
    s.setHost { s.host with pps := s.host.pps ||| BitVec.ofNat 2 (2 ^ n), ppsRose := mapInsert s.host.ppsRose n s.rc }
  else s

/-- ETH_PPS_n falls 8,000 rc after it rose (R437). -/
def ppsFall (n : Nat) (s : State) : State :=
  if s.hostOn && s.host.pps.getLsbD n then
    let s := s.passTo (mapGet (fun _ => s.rc) s.host.ppsRose n + 8000)
    s.setHost { s.host with pps := s.host.pps &&& ~~~BitVec.ofNat 2 (2 ^ n) }
  else s

/-! ### The test access port (R432, R433) -/

/-- The test access port takes an instruction. -/
def tapTake (i : TapInstr) (s : State) : State :=
  if s.powered then
    tapSettle (s.setHost { s.host with tap := i })
  else s

/-- IDCODE: the identification word goes out. -/
def tapIdcode (s : State) : State :=
  let s' := tapTake .idcode s
  if s'.host.tap = .idcode then s'.setHost { s'.host with readData := 0x271604E3 } else s'

end Sys2Proof.Machine
end

