-- ==== Sys2Proof/Machine/Balls.lean ====
section
/-! DEFINITION. The balls: the grid, the signal at each of its positions, the banks, and what stands at a ball in each condition
(R41, R59 to R65, R68, R69, R82, R119). -/

namespace Sys2Proof.Machine

/-! ### The ball grid (R59 to R61) -/

/-- Grid position `p` is populated: its row is `p / 44` and its column `p % 44 + 1`. -/
def ballPopulated (p : Nat) : Bool :=
  let r := p / 44
  let c := p % 44
  decide (p < 1936) && !(decide (14 ≤ r) && decide (r ≤ 27) && decide (15 ≤ c) && decide (c ≤ 28)) &&
    decide (3 < min r (43 - r) + min c (43 - c))

/-- Position `p` carries a name of R61: it is populated and is not GND. -/
def ballNamed (p : Nat) : Bool := ballPopulated p && decide ((p / 44 + p % 44 + 1) % 2 = 0)

/-- The order of position `p` in the list of R61, from 1. -/
def ballOrder (p : Nat) : Option Nat := if ballNamed p then some (((List.range (p + 1)).filter ballNamed).length) else none

/-- A lane of a link: PCIe lane n, Ethernet port n, or lane l of Twiast port p. -/
inductive Lane where
  | pcie (n : Nat)
  | eth (n : Nat)
  | tw (p l : Nat)
deriving DecidableEq, Repr

/-- What the balls of R61 are named for. A lane has four: transmit and receive, each positive and negative; the thirteen
dedicated digital balls count from TCK. -/
inductive Ball where
  | vin
  | sw (k : Nat)
  | vmid
  | pwm (o : Nat)
  | resetN
  | wake
  | rstoutN
  | iovSel (b : Nat)
  | mux (n : Nat)
  | dedicated (k : Nat)
  | refclk (neg : Bool)
  | pcieRefclk (neg : Bool)
  | lane (l : Lane) (rx neg : Bool)
  | xbClk (n : Nat)
  | xbDat (n : Nat)
  | md (n : Nat) (neg : Bool)
  | svin (n : Nat)
deriving DecidableEq, Repr

/-- The `i`-th ball of a lane. -/
def laneBall (l : Lane) (i : Nat) : Ball := .lane l (decide (2 ≤ i % 4)) (decide (i % 2 = 1))

/-- The `k`-th name of R61, from 1. -/
def ballOf (k : Nat) : Option Ball :=
  if k = 0 then none
  else if k ≤ 16 then some .vin
  else if k ≤ 48 then some (.sw ((k - 17) / 8))
  else if k ≤ 72 then some .vmid
  else if k ≤ 264 then some (.pwm (k - 73))
  else if k = 265 then some .resetN
  else if k = 266 then some .wake
  else if k = 267 then some .rstoutN
  else if k ≤ 279 then some (.iovSel (k - 268))
  else if k ≤ 393 then some (.mux (k - 280))
  else if k ≤ 406 then some (.dedicated (k - 394))
  else if k ≤ 408 then some (.refclk (decide (k = 408)))
  else if k ≤ 410 then some (.pcieRefclk (decide (k = 410)))
  else if k ≤ 426 then some (laneBall (.pcie ((k - 411) / 4)) (k - 411))
  else if k ≤ 434 then some (laneBall (.eth ((k - 427) / 4)) (k - 427))
  else if k ≤ 466 then some (laneBall (.tw ((k - 435) / 8) ((k - 435) / 4 % 2)) (k - 435))
  else if k ≤ 594 then some (if (k - 467) % 2 = 0 then .xbClk ((k - 467) / 2) else .xbDat ((k - 467) / 2))
  else if k ≤ 786 then some (.md ((k - 595) / 2) (decide ((k - 595) % 2 = 1)))
  else if k ≤ 850 then some (.svin (k - 787))
  else none

/-- The signal or supply at grid position `p`. -/
def ballAt (p : Nat) : Option Ball := (ballOrder p).bind ballOf

/-! ### The banks (R62) -/

/-- The digital I/O banks: IOB_0 to IOB_11, each at the level that its strap selects, and the always-on bank. -/
inductive Bank where
  | iob (b : Nat)
  | ao
deriving DecidableEq, Repr

/-- The bank of a ball; supplies, lanes, reference clocks and analogue inputs have none. -/
def Ball.bank : Ball → Option Bank
  | .pwm o => some (.iob (o / 48))
  | .xbClk n => some (.iob (4 + n / 32))
  | .xbDat n => some (.iob (4 + n / 32))
  | .mux n => some (.iob (6 + n / 24))
  | .dedicated _ => some (.iob 11)
  | .resetN => some .ao
  | .wake => some .ao
  | .rstoutN => some .ao
  | .iovSel _ => some .ao
  | _ => none

/-- A bank runs at 3.3 V: as its strap was sampled at power-up, also while a full reset still keeps the bank powered (R63, R467). -/
def State.bankHigh (s : State) : Bank → Bool
  | .iob b => s.supply.straps.getLsbD b
  | .ao => true

/-! ### What stands at a ball (R65, R69) -/

/-- What stands at a ball: high impedance, an input, a driven level, a signal of the interface that the ball belongs to, or a lane
in electrical idle. -/
inductive BallState where
  | z
  | input
  | low
  | high
  | signal
  | idle
deriving DecidableEq, Repr

def Pin.asBall : Pin → BallState
  | .z => .z
  | .low => .low
  | .high => .high

def levelBall (b : Bool) : BallState := if b then .high else .low

/-- Position-independent test that R41 has switched off the ball of order `k`. -/
def State.orderOff (s : State) (k : Nat) : Bool := s.supply.ballsOff.any (fun p => decide (ballOrder p = some k))

/-- Lane `l` is past the start of its bring-up, which software, the Pattern or recovery gives; PCIe and SGMII lanes are idle in
HOLD, and a Twiast lane while its port is DISABLED or DOWN (R418). -/
def State.laneActive (s : State) : Lane → Bool
  | .pcie _ => s.hostOn && s.linkEnabled .pcie && s.linkWanted .pcie
  | .eth n => s.hostOn && s.linkEnabled (.eth (if n = 0 then 0 else 1)) && s.linkWanted (.eth (if n = 0 then 0 else 1))
  | .tw p _ => decide ((s.port p).link ≠ .disabled) && decide ((s.port p).link ≠ .down)

/-- EXTEST_PULSE or EXTEST_TRAIN drives the lanes (R432, R433). -/
def State.scanLanes (s : State) : Bool := decide (s.host.tap = .extestPulse) || decide (s.host.tap = .extestTrain)

/-- The mode of POS_nn: 0 off, 1 quadrature, 2 serial absolute (R435). -/
def State.posMode (s : State) (k : Nat) : Nat := (s.reg A.HOST_POS_MODE).toNat / 4 ^ k % 4

/-- The primary function of multiplexed ball `n` only senses it (R61, R432, R435): A, B and Z of a quadrature interface, B and Z of a
serial-absolute one, CAN_n_RX, UART_n_RX, the MISO of a controller, and SCLK, MOSI and CS of HSPI, which is a target. -/
def State.muxSenses (s : State) (n : Nat) : Bool :=
  if n < 48 then !(decide (s.posMode (n / 3) = 2) && decide (n % 3 = 0))
  else if n < 72 then decide (n % 2 = 1)
  else if n < 92 then decide ((n - 72) % 5 = 2)
  else if n < 96 then decide (n ≠ 94)
  else false

/-- A multiplexed ball: unused, its primary function, or general-purpose (R65). -/
def State.muxBall (s : State) (n : Nat) : BallState :=
  match s.fld (A.IOMUX_CFG n) F.IOMUX_CFG_FUNC with
  | 0 => .z
  | 2 => if s.bit (A.IOMUX_CFG n) F.IOMUX_CFG_DIR then levelBall (s.bit (A.IOMUX_CFG n) F.IOMUX_CFG_OUT) else .input
  | _ => if s.muxSenses n then .input else .signal

/-- What the row of R69 for a ball's class gives, the current limits and boundary scan apart. From the start of a full reset until VMID
is discharged the column of the full reset stands, after a loss of VIN too (DESIGN CHOICE, log entry 71). -/
def State.classBall (s : State) : Ball → BallState
  | .pwm o => (s.out o).pin.asBall
  | .mux n => if s.powered then s.muxBall n else .z
  | .xbClk n =>
    if s.powered && s.bit A.PAT_LEVEL F.PAT_LEVEL_COMMITTED then
      levelBall (s.xbClockHigh n && decide (s.supply.power ≠ .hold)) else .z
  | .xbDat _ => if s.powered then .input else .z
  | .md _ _ => if s.powered then .input else .z
  | .svin _ => if s.powered then .input else .z
  | .lane l _ _ => if s.powered then (if s.laneActive l || s.scanLanes then .signal else .idle) else .z
  | .dedicated k =>
    if s.powered then
      (if k = 9 then levelBall (s.host.pps.getLsbD 0) else if k = 10 then levelBall (s.host.pps.getLsbD 1) else .signal) else .z
  | .refclk _ => if s.supply.phase = .off ∨ s.supply.power = .dormant then .z else .input
  | .pcieRefclk _ => if s.supply.phase = .off ∨ s.supply.power = .dormant then .z else .input
  | .resetN => if s.supply.phase = .off then .z else .input
  | .wake => if s.supply.phase = .off then .z else .input
  | .iovSel _ => if s.supply.phase = .off then .z else .input
  | .rstoutN =>
    if s.supply.phase = .off then .z
    else levelBall (s.alive && !s.bootTesting && !s.bit A.BOOT_STATUS F.BOOT_STATUS_RECOVERY)
  | _ => .z

/-- Boundary scan reaches a ball: a digital one of banks IOB_0 to IOB_11 that is not the port's own (R432, R433). -/
def Ball.scanned : Ball → Bool
  | .dedicated k => decide (5 ≤ k)
  | b => match b.bank with
    | some (.iob _) => true
    | _ => false

/-- The level that EXTEST drives at the ball of order `k`, if one was preloaded. -/
def State.scanLevel (s : State) (k : Nat) : Option Bool :=
  if s.powered ∧ s.host.tap = .extest then (s.host.preload.find? (fun q => decide (ballOrder q.1 = some k))).map (·.2) else none

/-- What stands at the ball of order `k` in the list of R61: Z while R41 has switched it off. -/
def State.ballState (s : State) (k : Nat) : BallState :=
  if s.orderOff k then .z
  else
    match ballOf k with
    | none => .z
    | some b =>
      match (if b.scanned then s.scanLevel k else none) with
      | some v => levelBall v
      | none => s.classBall b

/-- What stands at the ball of PWM output `o`. -/
def State.pwmPin (s : State) (o : Nat) : BallState := s.ballState (73 + o)

/-- What stands at RSTOUT_N (R69, R82): Z without power, high from the end of boot step 8 until DORMANT or a full reset, and low
otherwise; recovery runs no step 8 (log entry 71). -/
def State.rstoutPin (s : State) : BallState := s.ballState 267

/-! ### The multiplexed balls (R64, R65) -/

/-- The level of multiplexed ball `n` as IN shows it: what the ball drives, or what stands at it from outside. -/
def State.ballIn (s : State) (n : Nat) : Bool :=
  decide (s.fld (A.IOMUX_CFG n) F.IOMUX_CFG_FUNC ≠ 0) &&
    (match s.ballState (280 + n) with
     | .low => false
     | .high => true
     | _ => s.gpio.getLsbD n)

/-- The new count and captured index of a quadrature interface, when A, B or Z takes a level: each edge of A or B counts one
step, up when A leads B, and a rising index captures the count. PRESUMED (log entry 87): the device's documents give the counter's width and
its capture alone. -/
def posStep (which : Nat) (a b high : Bool) (x : BitVec 32 × BitVec 32) : BitVec 32 × BitVec 32 :=
  match which with
  | 0 => (if high != b then x.1 + 1 else x.1 - 1, x.2)
  | 1 => (if high == a then x.1 + 1 else x.1 - 1, x.2)
  | _ => if high then (x.1, x.1) else x

/-- Multiplexed ball `n` carries its primary function, and the host interfaces work. -/
def State.muxPrimary (s : State) (n : Nat) : Bool := decide (s.fld (A.IOMUX_CFG n) F.IOMUX_CFG_FUNC = 1) && s.hostOn

/-- Quadrature interface POS_nn is on: POS_MODE says so, and its ball carries its primary function. -/
def State.posOn (s : State) (n : Nat) : Bool :=
  decide (n < 48) && decide (s.posMode (n / 3) = 1) && s.muxPrimary n

/-- The position counters and the receive FIFOs when a serial interface receives `w` at multiplexed ball `n`: a position at B of a
serial-absolute interface, or a character at UART_n_RX; a full FIFO takes none (R432, log entry 41). -/
def receiveAt (n : Nat) (w : Word) (s : State) : State :=
  let u := (n - 56) / 2
  if !s.muxPrimary n then s
  else if decide (n < 48) && decide (n % 3 = 1) && decide (s.posMode (n / 3) = 2) then
    s.setHost { s.host with pos := mapSet (fun _ => (0, 0)) s.host.pos (n / 3) (w, 0) }
  else if decide (56 ≤ n) && decide (n < 72) && decide (n % 2 = 1) && (s.fld A.HOST_EN F.HOST_EN_UART).testBit u then
    let fifo := mapGet (fun _ => []) s.host.uart u
    s.setHost { s.host with uart := mapSet (fun _ => []) s.host.uart u (if fifo.length < 64 then fifo ++ [w.setWidth 8] else fifo) }
  else s

/-- The level that stands at multiplexed ball `n` changes, and the events that the host-port controllers report are as `events`
says (R326, R432, R449). -/
def gpioLevel (n : Nat) (high : Bool) (events : BitVec 41) (s : State) : State :=
  let m : BitVec 114 := BitVec.ofNat 114 (2 ^ n)
  let g := n / 3
  let pos := if s.posOn n && (s.gpio.getLsbD n != high) then
      mapSet (fun _ => (0, 0)) s.host.pos g
        (posStep (n % 3) (s.gpio.getLsbD (3 * g)) (s.gpio.getLsbD (3 * g + 1)) high (mapGet (fun _ => (0, 0)) s.host.pos g))
    else s.host.pos
  { s with gpio := if high then s.gpio ||| m else s.gpio &&& ~~~m, host := { s.host with pos := pos, events := events } }

/-! ### SAMPLE (R432) -/

/-- The level at the ball of order `k` that SAMPLE captures: what it drives, or what stands at a multiplexed ball. -/
def State.sampleOf (s : State) (k : Nat) : Option Bool :=
  match s.ballState k with
  | .low => some false
  | .high => some true
  | _ => match ballOf k with
    | some (.mux n) => some (s.gpio.getLsbD n)
    | _ => none

/-- SAMPLE/PRELOAD: the levels at the balls are captured, by order in the list of R61, and the levels for EXTEST, by grid position, are
loaded. -/
def tapPreload (balls : List (Nat × Bool)) (s : State) : State :=
  let s' := tapTake .samplePreload s
  if s'.host.tap = .samplePreload then
    s'.setHost { s'.host with
      sampled := (List.range 851).filterMap (fun k =>
        if ((ballOf k).map Ball.scanned).getD false then (s'.sampleOf k).map (fun b => (k, b)) else none),
      preload := balls.foldl (fun m b => mapInsert m b.1 b.2) s'.host.preload }
  else s'

/-! ### Outputs that can meet their current limit (R40) -/

/-- The names of R61 that are outputs: PWM, RSTOUT_N, the multiplexed balls, the dedicated outputs, the transmit lanes and
the bitstream clocks (R40). -/
def Ball.isOutput : Ball → Bool
  | .pwm _ => true
  | .rstoutN => true
  | .mux _ => true
  | .dedicated k => [3, 6, 7, 8, 9, 10, 12].contains k
  | .lane _ rx _ => !rx
  | .xbClk _ => true
  | _ => false

/-- The ball of order `k` is an output that drives now. -/
def State.orderDrives (s : State) (k : Nat) : Bool :=
  ((ballOf k).map Ball.isOutput).getD false &&
    (match s.ballState k with
     | .low => true
     | .high => true
     | .signal => true
     | _ => false)

/-- An output that drives may enter or leave its current limit. -/
def State.ballDrives (s : State) (p : Nat) : Bool :=
  match ballOrder p with
  | none => false
  | some k => s.orderDrives k

end Sys2Proof.Machine
end

