-- ==== Sys2Proof/Machine/Pattern.lean ====
section
/-! DEFINITION. The Pattern loader: the layout of a Pattern, the checks of R107 in their order, and the values that a
Pattern gives the registers and stores (R96 to R114). -/

namespace Sys2Proof.Machine

/-! ### Reading the staged bytes (R98, R99) -/

/-- The byte, the little-endian half, word and double word at offset `x`. -/
def patByte (bs : List Byte) (x : Nat) : Nat := leNat ((bs.drop x).take 1)
def patHalf (bs : List Byte) (x : Nat) : Nat := leNat ((bs.drop x).take 2)
def patWord (bs : List Byte) (x : Nat) : Nat := leNat ((bs.drop x).take 4)
def patSlot (bs : List Byte) (x : Nat) : Nat := leNat ((bs.drop x).take 8)

/-- A rejection: its code and the offset of the failing item (R107). -/
abbrev Reject' := Nat × Nat

/-- The lowest of a list of offsets, if there is one. -/
def lowest : List Nat → Option Nat
  | [] => none
  | x :: t =>
    match lowest t with
    | none => some x
    | some y => some (min x y)

/-- The first rejection of a list of checks. -/
def firstReject : List (Option Reject') → Option Reject'
  | [] => none
  | some r :: _ => some r
  | none :: t => firstReject t

/-- A rejection with `code` at the lowest of the offsets, if there is one. -/
def rejectAt (code : Nat) (offsets : List Nat) : Option Reject' := (lowest offsets).map (fun x => (code, x))

/-! ### Phase 1: the header (R99, R100) -/

/-- The offsets of the failing items of HDR_RESERVED. -/
def headerReserved (h : List Byte) : List Nat :=
  ([9, 10, 11] ++ (List.range 28).map (32 + ·)).filter (fun x => decide (patByte h x ≠ 0)) ++
    (if 6 < patHalf h 18 then [18] else []) ++ (if 2048 ≤ patWord h 20 then [20] else [])

/-- HDR_CRC is wrong (R108). -/
def headerCrcBad (h : List Byte) : Bool := decide (patWord h 60 ≠ crc32 (h.take 60))

/-- Codes 0x01 to 0x07. -/
def headerReject (h : List Byte) : Option Reject' :=
  let rev := patByte h 8
  let len := patWord h 12
  if patWord h 0 ≠ 0x5A4D5054 then some (0x01, 0)
  else if patHalf h 4 ≠ 0x0100 ∧ patHalf h 4 ≠ 0x0101 ∧ patHalf h 4 ≠ 0x0102 then some (0x02, 4)
  else if patHalf h 6 ≠ 0x7160 then some (0x03, 6)
  else if rev < 0xA0 ∨ 9 < rev % 16 ∨ 0xB1 < rev then some (0x04, 8)
  else if headerReserved h ≠ [] then rejectAt 0x05 (headerReserved h)
  else if len % 8 ≠ 0 ∨ len < 120 ∨ 8388608 < len then some (0x06, 12)
  else if headerCrcBad h then some (0x07, 60)
  else none

/-! ### Phase 2: the whole Pattern (R101) -/

/-- Code 0x08. -/
def crcReject (bs : List Byte) (len : Nat) : Option Reject' :=
  if patWord bs (len - 8) ≠ crc32 (bs.take (len - 8)) ∨ patWord bs (len - 4) ≠ 0 then some (0x08, len - 8) else none

/-! ### Phases 3 and 4: the sections (R102) -/

/-- One section: its TYPE, the offset of its header, and its LENGTH. -/
structure Section where
  type : Nat
  off : Nat
  len : Nat
deriving DecidableEq, Repr

/-- One block of a blob section: the offset of its sub-header, and its COUNT. -/
structure Blob where
  off : Nat
  count : Nat
deriving DecidableEq, Repr

/-- The whole blocks of a blob body from `x` up to `fin`; none where the last one runs past it. -/
def blobsFrom (bs : List Byte) (type fin : Nat) : Nat → Nat → Option (List Blob)
  | 0, x => if fin ≤ x then some [] else none
  | fuel + 1, x =>
    if fin ≤ x then some []
    else
      let count := if type = 8 then patHalf bs (x + 4) else patWord bs (x + 4)
      (blobsFrom bs type fin fuel (x + 8 + 8 * count)).bind (fun t =>
        if x + 8 + 8 * count ≤ fin then some (⟨x, count⟩ :: t) else none)

/-- The blocks of a blob section. -/
def Section.blobs (c : Section) (bs : List Byte) : Option (List Blob) :=
  blobsFrom bs c.type (c.off + 8 + c.len) (c.len / 8) (c.off + 8)

/-- How the walk of the section headers ends: at a rejection, or with the sections. -/
inductive Walk where
  | reject (r : Reject')
  | done (sections : List Section)
deriving DecidableEq, Repr

/-- The section at `x` is put before those that follow it. -/
def Walk.cons (c : Section) : Walk → Walk
  | .reject r => .reject r
  | .done l => .done (c :: l)

/-- The walk of the section headers from offset `x`; the last TYPE met is `last` (R107, phase 3). -/
def walkFrom (bs : List Byte) (trailer : Nat) : Nat → Nat → Nat → Walk
  | 0, x, _ => .reject (0x0A, x)
  | fuel + 1, x, last =>
    if trailer ≤ x then .reject (0x0A, x)
    else
      let type := patByte bs x
      let len := patWord bs (x + 4)
      let c : Section := ⟨type, x, len⟩
      let blob := decide (type = 8) || decide (type = 9)
      if type = 0 ∨ (0x0E < type ∧ type < 0xFF) ∨ patWord bs x ≠ type then .reject (0x09, x)
      else if type ≤ last ∨ (type = 0xFF ∧ len ≠ 0) then .reject (0x0A, x)
      else if len % 8 ≠ 0 ∨ trailer < x + 8 + len ∨ (blob = true ∧ c.blobs bs = none) then .reject (0x0B, x)
      else if type = 0xFF then (if x + 8 = trailer then .done [c] else .reject (0x0A, x + 8))
      else (walkFrom bs trailer fuel (x + 8 + len) type).cons c

/-- The sections of a Pattern (codes 0x09 to 0x0C). -/
def walkSections (bs : List Byte) (len : Nat) : Walk :=
  match walkFrom bs (len - 8) (len / 8) 64 0 with
  | .reject r => .reject r
  | .done l =>
    if l.length ≠ patHalf bs 16 then .reject (0x0B, 16)
    else if [1, 4, 5, 6, 0x0B, 0xFF].all (fun t => l.any (fun c => decide (c.type = t))) then .done l
    else .reject (0x0C, 0)

/-! ### Phase 5: records and blobs (R103, R104) -/

/-- One record: its offset, its register and its value. -/
structure Record where
  off : Nat
  addr : Nat
  value : Word
deriving DecidableEq, Repr

/-- The records of a section body. -/
def Section.records (c : Section) (bs : List Byte) : List Record :=
  (List.range (c.len / 8)).map (fun i =>
    let x := c.off + 8 + 8 * i
    ⟨x, patWord bs x, BitVec.ofNat 32 (patWord bs (x + 4))⟩)

/-- The section has the form of records. -/
def Section.holdsRecords (c : Section) : Bool := decide (c.type ≤ 7) || (decide (0x0A ≤ c.type) && decide (c.type ≤ 0x0D))

/-- Section `type` owns the register at `a` (R102; log entry 40 for the registers that a name of the table stands for). -/
def sectionOwns (type a : Nat) : Bool :=
  let within := fun (b : Block) => decide (b.base ≤ a) && decide (a < b.base + b.size)
  match type with
  | 1 => decide (A.IOMUX_CFG 0 ≤ a) && decide (a ≤ A.IOMUX_CFG 113)
  | 2 => [RegTable.blk_MD, RegTable.blk_XB, RegTable.blk_DEC, RegTable.blk_SV].any within
  | 3 => [RegTable.blk_WC, RegTable.blk_WCRBSEL].any within
  | 4 => within RegTable.blk_QUENCH
  | 5 => (within RegTable.blk_TCn && decide (a % 0x20 ≤ 0xC)) || decide (a = A.RUN_HEAT_CFG)
  | 6 => within RegTable.blk_TCn && decide (a % 0x20 = 0x10)
  | 7 => within RegTable.blk_LE || (decide (A.LT_PART_BASE 0 ≤ a) && decide (a ≤ A.LT_PART_SCALE 31))
  | 0x0A => within RegTable.blk_PG
  | 0x0B => within RegTable.blk_ICC
  | 0x0C => [RegTable.blk_TW, RegTable.blk_TWP].any within
  | 0x0D => within RegTable.blk_Hostports && decide (a ≠ A.HOST_LINK)
  | _ => false

/-- The fields of a register that a record sets: those with access code PT or RW. -/
def RegDef.settable (d : RegDef) : List FieldDef := d.fields.filter (fun f => decide (f.acc = .pt) || decide (f.acc = .rw))

/-- The bits of those fields. -/
def RegDef.settableMask (d : RegDef) : Word := d.settable.foldl (fun m f => m ||| fieldMask ⟨f.hi, f.lo⟩) 0

/-- ADDR of a record obeys R103, after a record with ADDR `last`. -/
def recordAddrOk (type : Nat) (last : Option Nat) (a : Nat) : Bool :=
  decide (a % 4 = 0) && (match last with | none => true | some l => decide (l < a)) && sectionOwns type a &&
    (match regDefAt a with | none => false | some d => decide (d.settable ≠ []))

/-- The offsets of the records whose ADDR breaks R103. -/
def badAddresses (type : Nat) : Option Nat → List Record → List Nat
  | _, [] => []
  | last, r :: t => (if recordAddrOk type last r.addr then [] else [r.off]) ++ badAddresses type (some r.addr) t

/-- The value of a field is one of its encodings (R16, R17). -/
def FieldDef.legal (f : FieldDef) (w : Word) : Bool :=
  let v := fieldOf w ⟨f.hi, f.lo⟩
  (decide (f.okLo ≤ v) && decide (v ≤ f.okHi)) || decide (f.okAlso = some v)

/-- A value of PG_nn.CFG holds no reserved combination (R231, R235, R237, R255). -/
def pgCfgOk (g : Nat) (w : Word) : Bool :=
  let master := fieldOf w F.PG_CFG_SYNC_PG
  (if fieldOf w F.PG_CFG_SYNC = 1 then decide (master < g) else decide (master = 0)) &&
    (List.range 4).all (fun j => decide (fieldOf w ⟨2 * j + 1, 2 * j⟩ ≠ 3)) &&
    (!(w.getLsbD 10) || decide (fieldOf w ⟨3, 2⟩ = 0)) && (!(w.getLsbD 11) || decide (fieldOf w ⟨7, 6⟩ = 0))

/-- The reserved combinations that one field's range does not show. DESIGN CHOICE (log entry 73): a record that sets V6_EN while the
IPv6 address is all zeros or multicast is accepted, since R436 refuses such a write and no rule of the loader names it. -/
def combinationOk (bridge : Bool) (a : Nat) (w : Word) : Bool :=
  if A.PG_CFG 0 ≤ a ∧ a ≤ A.PG_CFG 47 ∧ a % 0x80 = 4 then pgCfgOk ((a - A.PG_CFG 0) / 0x80) w
  else if a = A.HOST_POS_MODE then (List.range 16).all (fun n => decide (fieldOf w ⟨2 * n + 1, 2 * n⟩ ≠ 3))
  else if a = A.TW_CTRL 2 ∨ a = A.TW_CTRL 3 then !(w.getLsbD 0) || bridge
  else if a = A.ETH_MGMT_IPV4 0 ∨ a = A.ETH_MGMT_IPV4 1 then
    decide (w ≠ 0) && decide (w ≠ 0xFFFFFFFF) && decide (w.toNat / 2 ^ 28 ≠ 14)
  else true

/-- VALUE of a record obeys R103. -/
def recordValueOk (bridge : Bool) (r : Record) : Bool :=
  match regDefAt r.addr with
  | none => true
  | some d => decide (r.value &&& ~~~ d.settableMask = 0) && d.settable.all (fun f => f.legal r.value) &&
      combinationOk bridge r.addr r.value

/-- The engine and the first slot of a LAW_PROG block. -/
def Blob.engine (b : Blob) (bs : List Byte) : Nat := patByte bs b.off
def Blob.start (b : Blob) (bs : List Byte) : Nat := patHalf bs (b.off + 2)

/-- The FIRST entry of a LAW_TABLE_DATA block. -/
def Blob.first (b : Blob) (bs : List Byte) : Nat := patWord bs b.off

/-- The slots of a block: each one's offset and its 64 bits. -/
def Blob.slots (b : Blob) (bs : List Byte) : List (Nat × Nat) :=
  (List.range b.count).map (fun i => (b.off + 8 + 8 * i, patSlot bs (b.off + 8 + 8 * i)))

/-- The sub-header of a LAW_PROG block obeys R104, after the blocks `before`. -/
def progHeaderOk (bs : List Byte) (before : List Blob) (b : Blob) : Bool :=
  decide (b.engine bs ≤ 31) && decide (patByte bs (b.off + 1) = 0) && decide (patHalf bs (b.off + 6) = 0) &&
    decide (1 ≤ b.count) && decide (b.start bs + b.count ≤ 1024) &&
    before.all (fun x => decide (x.engine bs ≠ b.engine bs) || decide (x.start bs + x.count ≤ b.start bs) ||
      decide (b.start bs + b.count ≤ x.start bs))

/-- The sub-header of a LAW_TABLE_DATA block obeys R104, after the blocks `before`. -/
def tableHeaderOk (bs : List Byte) (before : List Blob) (b : Blob) : Bool :=
  decide (1 ≤ b.count) && decide (b.first bs + b.count ≤ 524288) &&
    before.all (fun x => decide (x.first bs + x.count ≤ b.first bs))

/-- The offsets of the sub-headers that break R104. -/
def badHeaders (ok : List Blob → Blob → Bool) : List Blob → List Blob → List Nat
  | _, [] => []
  | before, b :: t => (if ok before b then [] else [b.off]) ++ badHeaders ok (before ++ [b]) t

/-! ### The staged Pattern -/

/-- A Pattern whose layout has passed phases 1 to 4: its header, its records, its blocks and its exposure records. -/
structure Staged where
  bytes : List Byte
  sections : List Section
  records : List Record
  progs : List Blob
  tables : List Blob
  exposes : List Record
deriving DecidableEq, Repr

/-- The parts of a walked Pattern. -/
def stage (bs : List Byte) (l : List Section) : Staged :=
  { bytes := bs, sections := l,
    records := (l.filter Section.holdsRecords).flatMap (fun c => c.records bs),
    progs := ((l.find? (fun c => decide (c.type = 8))).bind (fun c => c.blobs bs)).getD [],
    tables := ((l.find? (fun c => decide (c.type = 9))).bind (fun c => c.blobs bs)).getD [],
    exposes := (l.filter (fun c => decide (c.type = 0x0E))).flatMap (fun c => c.records bs) }

/-- TW.NODE.BRIDGE as the Pattern sets it. -/
def Staged.bridge (p : Staged) : Bool := p.records.any (fun r => decide (r.addr = A.TW_NODE) && r.value.getLsbD 16)

/-- Code 0x0D. -/
def Staged.addressReject (p : Staged) : Option Reject' :=
  rejectAt 0x0D ((p.sections.filter Section.holdsRecords).flatMap (fun c => badAddresses c.type none (c.records p.bytes)) ++
    badHeaders (progHeaderOk p.bytes) [] p.progs ++ badHeaders (tableHeaderOk p.bytes) [] p.tables)

/-- Code 0x0E. -/
def Staged.valueReject (p : Staged) : Option Reject' :=
  let tooWide := fun (n : Nat) (b : Blob) => ((b.slots p.bytes).filter (fun x => decide (2 ^ n ≤ x.2))).map (·.1)
  rejectAt 0x0E ((p.records.filter (fun r => !recordValueOk p.bridge r)).map (·.off) ++
    p.progs.flatMap (tooWide 41) ++ p.tables.flatMap (tooWide 48))

/-! ### The values a Pattern gives (R105, R109) -/

/-- The law engine and the state word whose LO (false) or HI (true) register stands at `a` (R220). -/
def stateWordAt (a : Nat) : Option (Nat × Nat × Bool) :=
  let x := a - 0x80050000
  if 0x80050000 ≤ a ∧ a < 0x800D0000 ∧ 0x800 ≤ x % 0x4000 ∧ x % 0x4000 < 0x1000 then
    some (x / 0x4000, (x % 0x4000 - 0x800) / 8, decide (x % 8 = 4))
  else none

/-- One record takes effect: its PT and RW fields, or one half of a law-engine state word. -/
def applyRecord (s : State) (r : Record) : State :=
  match stateWordAt r.addr with
  | some (n, w, true) => s.setLawWord n w ((r.value.setWidth 8) ++ (s.lawWord n w).setWidth 32)
  | some (n, w, false) => s.setLawWord n w (((s.lawWord n w >>> 32).setWidth 8) ++ r.value)
  | none =>
    match regDefAt r.addr with
    | none => s
    | some d => s.setReg r.addr ((s.reg r.addr &&& ~~~ d.settableMask) ||| r.value)

/-- One LAW_PROG block takes effect. -/
def applyProg (p : Staged) (s : State) (b : Blob) : State :=
  (List.range b.count).foldl (fun (s : State) i =>
    let op := BitVec.ofNat 64 (patSlot p.bytes (b.off + 8 + 8 * i))
    { s with lawProg := mapSet (fun _ => 0) s.lawProg (1024 * b.engine p.bytes + b.start p.bytes + i) op }) s

/-- One LAW_TABLE_DATA block takes effect. -/
def applyTable (p : Staged) (s : State) (b : Blob) : State :=
  (List.range b.count).foldl (fun (s : State) i =>
    s.setTableEntry (b.first p.bytes + i) (BitVec.ofNat 48 (patSlot p.bytes (b.off + 8 + 8 * i)))) s

/-- The registers, state words, programs and Law Table entries of a Pattern. -/
def Staged.apply (p : Staged) (s : State) : State :=
  p.tables.foldl (applyTable p) (p.progs.foldl (applyProg p) (p.records.foldl applyRecord s))

/-! ### Phase 6: cross-checks (R106) -/

/-- The offsets of the records that name the registers of a list. -/
def Staged.at (p : Staged) (regs : List Nat) : List Nat :=
  (p.records.filter (fun r => regs.contains r.addr)).map (·.off)

/-- A failure on these registers: the offset of its lowest record, or 0 where no record names any of them. -/
def Staged.fail (p : Staged) (regs : List Nat) : List Nat := [(lowest (p.at regs)).getD 0]

/-- The kinds of an endpoint code (R182). -/
def isProducer (c : Nat) : Bool :=
  decide (c < 0x140) || (decide (0x1C0 ≤ c) && decide (c < 0x270)) || (decide (0x2A0 ≤ c) && decide (c < 0x2BC)) ||
    (decide (0x2C0 ≤ c) && decide (c < 0x300)) || (decide (0x388 ≤ c) && decide (c < 0x390))
def isShared (c : Nat) : Bool := (decide (0x2BC ≤ c) && decide (c < 0x2C0)) || (decide (0x380 ≤ c) && decide (c < 0x388))
def isExclusive (c : Nat) : Bool := decide (c < 0x390) && !isProducer c && !isShared c

/-- The four registers that a channel's failures rest on. -/
def channelRegs (n : Nat) : List Nat := [A.TC_ROUTE_P n, A.TC_ROUTE_C n, A.TC_ROUTE_D n, A.TC_CREDIT n]

/-- The consumers a channel names, each with its register. -/
def State.consumerRegs (t : State) (n : Nat) : List (Nat × Nat) :=
  [(t.fld (A.TC_ROUTE_C n) ⟨9, 0⟩, A.TC_ROUTE_C n), (t.fld (A.TC_ROUTE_C n) ⟨25, 16⟩, A.TC_ROUTE_C n),
   (t.fld (A.TC_ROUTE_D n) ⟨9, 0⟩, A.TC_ROUTE_D n), (t.fld (A.TC_ROUTE_D n) ⟨25, 16⟩, A.TC_ROUTE_D n)].filter
    (fun x => decide (x.1 ≠ 0x3FF))

def State.producerOf (t : State) (n : Nat) : Nat := t.fld (A.TC_ROUTE_P n) F.TC_ROUTE_P_PROD
def State.allocOf (t : State) (n : Nat) : Nat := t.fld (A.TC_CREDIT n) F.TC_CREDIT_ALLOC

/-- The allocations of all channels (R106). -/
def State.allocTotal (t : State) : Nat := (List.range 256).foldl (fun k n => k + t.allocOf n) 0

/-- Failures of the routes of one channel (R106, R183). -/
def Staged.channelFails (p : Staged) (t : State) (n : Nat) : List Nat :=
  let prod := t.producerOf n
  let cons := t.consumerRegs n
  let named := decide (prod ≠ 0x3FF)
  let routed := named || decide (cons ≠ [])
  (if named && !isProducer prod then p.fail [A.TC_ROUTE_P n] else []) ++
    cons.flatMap (fun c => if isShared c.1 || isExclusive c.1 then [] else p.fail [c.2]) ++
    (if named ≠ decide (cons ≠ []) ∨ routed ≠ decide (t.allocOf n ≠ 0) then p.fail (channelRegs n) else [])

/-- Failures of endpoints that two channels, or two fields, name (R183). -/
def Staged.doubleFails (p : Staged) (t : State) : List Nat :=
  let prods := ((List.range 256).map (fun n => (t.producerOf n, A.TC_ROUTE_P n))).filter (fun x => decide (x.1 ≠ 0x3FF))
  let cons := ((List.range 256).flatMap (fun n => t.consumerRegs n)).filter (fun x => isExclusive x.1)
  let doubled := fun (l : List (Nat × Nat)) =>
    l.flatMap (fun x => if (l.filter (fun y => decide (y.1 = x.1))).length ≤ 1 then [] else p.fail [x.2])
  doubled prods ++ doubled cons

/-- Failures of enabled producers without a route, and of routes to ports that are off (R136, R162, R176, R211, R244). -/
def Staged.producerFails (p : Staged) (t : State) : List Nat :=
  let unrouted := fun (c : Nat) => (t.producerChannel c).isNone
  (List.range 160).flatMap (fun n =>
    if (t.bit (A.DEC_CTRL n) F.DEC_CTRL_SWIFT_EN && unrouted (epSwift n)) ||
        (t.bit (A.DEC_CTRL n) F.DEC_CTRL_FINE_EN && unrouted (epFine n)) then p.fail [A.DEC_CTRL n] else []) ++
    (List.range 8).flatMap (fun n =>
      if unrouted (epSurvey n) then
        (A.SV_URGENT n :: (List.range 32).map (A.SV_ENTRY n)).flatMap (fun a => if t.bit a ⟨12, 12⟩ then p.fail [a] else [])
      else []) ++
    (List.range 256).flatMap (fun n => (t.consumerRegs n).flatMap (fun c =>
      if 0x140 ≤ c.1 ∧ c.1 < 0x1C0 ∧ t.fld (A.LE_PORT ((c.1 - 0x140) / 4) (c.1 % 4)) F.LE_PORT_MODE = 0 then p.fail [c.2]
      else [])) ++
    (List.range 48).flatMap (fun g =>
      if t.bit (A.PG_CTRL g) F.PG_CTRL_EVT_EN && unrouted (epPeriod g) then p.fail [A.PG_CTRL g] else []) ++
    (List.range 16).flatMap (fun g =>
      if t.bit (A.QUENCH_GCFG g) F.QUENCH_GCFG_NOTICE && unrouted (epNotice g) then p.fail [A.QUENCH_GCFG g] else [])

/-- Failures of interrupt routes to the upper core of a locked pair. -/
def Staged.interruptFails (p : Staged) (locked : Nat) : List Nat :=
  (p.records.filter (fun r => decide (0x80100000 ≤ r.addr) && decide (r.addr < 0x80110000) && r.value.getLsbD 15 &&
    decide ((r.addr - 0x80100000) / 0x1000 % 2 = 1) && locked.testBit ((r.addr - 0x80100000) / 0x2000))).map (·.off)

/-- The bits [39:0] that an operation of code `op` may use besides OP (R207, R208). -/
def opUses (op : Nat) : Nat :=
  match op with
  | 0x02 | 0x06 | 0x07 => 0xFFFF0000
  | 0x03 => 0xFFFFFF1F
  | 0x04 | 0x05 | 0x08 | 0x09 | 0x17 => 0xFFFFFF00
  | 0x0A | 0x0B => 0xFFFF001F
  | 0x0C | 0x0D | 0x0E => 0xFFFFFF1F
  | 0x0F | 0x18 => 0xFFFFFF01
  | 0x10 => 0x00FFFF00
  | 0x11 => 0x000000FF
  | 0x12 => 0xFFFF0000
  | 0x13 => 0xFFFF03FF
  | 0x14 => 0xFF0003FF
  | 0x15 | 0x16 => 0xFFFF0001
  | 0x19 => 0x00FFFF03
  | _ => 0

/-- An operation uses a reserved encoding (R207 to R209). -/
def opReserved (w : BitVec 64) : Bool :=
  let op := opCode w
  decide (0x19 < op) || decide ((w.setWidth 32).toNat &&& (0xFFFFFFFF - opUses op) ≠ 0) ||
    ((decide (op = 0x12) || decide (op = 0x13)) &&
      (decide (8 < opD w) || ([0, 7, 8].contains (opD w) && decide (opA w ≠ 0)))) ||
    ((decide (op = 0x0F) || decide (op = 0x10) || (decide (op = 0x18) && decide (opX w % 2 = 1))) && decide (opB w = 255)) ||
    ((decide (op = 0x16) || decide (op = 0x17)) && decide (opD w = 255)) ||
    (decide (op = 0x18) && decide (15 < opD w))

/-- The registers that deny an operation what it names, if its engine does not have it: a slot or a partition that is not
enabled, a target that is not enabled, or a port that produces for no channel, which no register says (R217, R218, R221). -/
def State.opDenied (t : State) (n : Nat) (w : BitVec 64) : Option (List Nat) :=
  let slot := opX w % 2
  match opCode w with
  | 0x15 | 0x16 =>
    if !t.bit (A.LE_CFG n) ⟨13 + 8 * slot, 13 + 8 * slot⟩ then some [A.LE_CFG n]
    else if !t.bit (A.LT_PART_BASE (t.lawPart n slot)) F.LT_PART_BASE_EN then some [A.LE_CFG n, A.LT_PART_BASE (t.lawPart n slot)]
    else none
  | 0x18 => if t.bit (A.LE_TGT n (opD w)) F.LE_TGT_EN then none else some [A.LE_TGT n (opD w)]
  | 0x19 => if (t.producerChannel (epLawOut n (opX w % 4))).isNone then some [] else none
  | _ => none

/-- A Runner route or a heat trigger starts engine `n` (R211, R214). -/
def State.lawStarted (t : State) (n : Nat) : Bool :=
  t.bit (A.LE_RUNCFG n) F.LE_RUNCFG_HEAT_TRIG ||
    (List.range 4).any (fun q => decide (t.fld (A.LE_PORT n q) F.LE_PORT_MODE = 1) && decide (t.channelsInto (epLawIn n q) ≠ []))

/-- LEN of an input port fits its mode (R229). -/
def State.portLenOk (t : State) (n q : Nat) : Bool :=
  let len := t.fld (A.LE_PORT n q) F.LE_PORT_LEN
  if t.fld (A.LE_PORT n q) F.LE_PORT_MODE = 3 then
    decide (1 ≤ len) && decide (t.fld (A.LE_PORT n q) F.LE_PORT_DEST + len ≤ 256)
  else decide (len = 0)

/-- Failures of law programs. -/
def Staged.programFails (p : Staged) (t : State) : List Nat :=
  let targets := ((List.range 32).flatMap (fun n => (List.range 16).map (A.LE_TGT n))).filter (fun a => t.bit a F.LE_TGT_EN)
  let names := fun (a : Nat) => (t.fld a F.LE_TGT_PG, t.fld a F.LE_TGT_REG)
  p.progs.flatMap (fun b =>
    (b.slots p.bytes).flatMap (fun x =>
      (if opReserved (BitVec.ofNat 64 x.2) then [x.1] else []) ++
        (match t.opDenied (b.engine p.bytes) (BitVec.ofNat 64 x.2) with
         | some regs => x.1 :: p.at regs
         | none => [])) ++
    (if t.lawStarted (b.engine p.bytes) then [] else [b.off])) ++
    (List.range 32).flatMap (fun n => (List.range 4).flatMap (fun q => if t.portLenOk n q then [] else p.fail [A.LE_PORT n q])) ++
    targets.flatMap (fun a =>
      if (targets.filter (fun b => decide (names b = names a))).length ≤ 1 then [] else p.fail [a])

/-- Failures of Law Table partitions (R221). -/
def Staged.tableFails (p : Staged) (t : State) : List Nat :=
  let on := (List.range 32).filter (fun k => t.bit (A.LT_PART_BASE k) F.LT_PART_BASE_EN)
  let base := fun (k : Nat) => t.fld (A.LT_PART_BASE k) F.LT_PART_BASE_BASE
  let fin := fun (k : Nat) => base k + t.fld (A.LT_PART_SIZE k) F.LT_PART_SIZE_SIZE_M1 + 1
  on.flatMap (fun k =>
    if 524288 < fin k ∨ t.partPort k = 7 ∨ on.any (fun j => decide (j ≠ k) && decide (base j < fin k) && decide (base k < fin j)) then
      p.fail [A.LT_PART_BASE k, A.LT_PART_SIZE k]
    else [])

/-- The multiplexed balls of the interfaces that HOST enables (R64, R106). -/
def State.enabledBalls (t : State) : List Nat :=
  let en := t.reg A.HOST_EN
  let group := fun (bit first count : Nat) => if en.getLsbD bit then (List.range count).map (first + ·) else []
  (List.range 16).flatMap (fun n =>
    match fieldOf (t.reg A.HOST_POS_MODE) ⟨2 * n + 1, 2 * n⟩ with
    | 1 => [3 * n, 3 * n + 1, 3 * n + 2]
    | 2 => [3 * n, 3 * n + 1]
    | _ => []) ++
    (List.range 4).flatMap (fun n => group (3 + n) (48 + 2 * n) 2 ++ group (15 + n) (72 + 5 * n) 5 ++ group (20 + n) (96 + 3 * n) 3) ++
    (List.range 8).flatMap (fun n => group (7 + n) (56 + 2 * n) 2) ++ group 19 92 4 ++ group 24 108 6

/-- Failures of pins: the ball's record, and the record that enables its interface. -/
def Staged.pinFails (p : Staged) (t : State) : List Nat :=
  (t.enabledBalls.filter (fun b => decide (t.fld (A.IOMUX_CFG b) F.IOMUX_CFG_FUNC ≠ 1))).flatMap (fun b =>
    p.fail [A.IOMUX_CFG b, if b < 48 then A.HOST_POS_MODE else A.HOST_EN])

/-- An exposure record names a register of a function at the basic level, and whole RW fields of it (R112). -/
def exposeOk (basic : Nat) (r : Record) : Bool :=
  match blockAt r.addr, regDefAt r.addr with
  | some b, some d =>
    let rw := d.fields.filter (fun f => decide (f.acc = .rw))
    let whole := rw.foldl (fun (m : Word) f => if r.value &&& fieldMask ⟨f.hi, f.lo⟩ = 0 then m else m ||| fieldMask ⟨f.hi, f.lo⟩) 0
    decide (b.fn < 11) && basic.testBit b.fn && decide (r.value = whole)
  | _, _ => false

/-- The offsets of exposure records that do not rise: both records take part. -/
def notRising : Option Record → List Record → List Nat
  | _, [] => []
  | none, r :: t => notRising (some r) t
  | some l, r :: t => (if r.addr ≤ l.addr then [l.off, r.off] else []) ++ notRising (some r) t

/-- An exposure record names a register whose function BASIC puts at the expert level. -/
def exposesExpert (basic : Nat) (r : Record) : Bool :=
  match blockAt r.addr with
  | none => false
  | some b => decide (b.fn < 11) && !basic.testBit b.fn

/-- Failures of levels (R112): STOCK_ID at 18 takes part in those of a custom Pattern, and BASIC at 20 in the exposure of a
function at the expert level. -/
def Staged.levelFails (p : Staged) : List Nat :=
  let custom := decide (patHalf p.bytes 18 = 0)
  let basic := patWord p.bytes 20
  (if custom ∧ (basic ≠ 0 ∨ p.sections.any (fun c => decide (c.type = 0x0E)) = true) then [18] else []) ++
    (if p.exposes.any (exposesExpert basic) then [20] else []) ++
    (p.exposes.filter (fun r => !exposeOk basic r)).map (·.off) ++ notRising none p.exposes

/-- Codes 0x0F to 0x15, with the Pattern's values in `t` and PAIR_LOCK of the option word. -/
def Staged.crossReject (p : Staged) (t : State) (locked : Nat) : Option Reject' :=
  firstReject
    [if 4032 < t.allocTotal then some (0x0F, 0) else none,
     rejectAt 0x10 ((List.range 256).flatMap (p.channelFails t) ++ p.doubleFails t ++ p.producerFails t),
     rejectAt 0x11 (p.interruptFails locked), rejectAt 0x12 (p.programFails t), rejectAt 0x13 (p.tableFails t),
     rejectAt 0x14 (p.pinFails t), rejectAt 0x15 p.levelFails]

/-- The loader on the staged bytes of a Pattern: a rejection, or the Pattern and the state with its values in place. -/
def loadPattern (bs : List Byte) (locked : Nat) (s : State) : Reject' ⊕ (Staged × State) :=
  let len := patWord bs 12
  match firstReject [headerReject bs, crcReject bs len] with
  | some r => .inl r
  | none =>
    match walkSections bs len with
    | .reject r => .inl r
    | .done l =>
      let p := stage bs l
      match firstReject [p.addressReject, p.valueReject] with
      | some r => .inl r
      | none =>
        let t := p.apply s
        match p.crossReject t locked with
        | some r => .inl r
        | none => .inr (p, t)

end Sys2Proof.Machine
end

