-- ==== Sys2Proof/Machine/Boot.lean ====
section
/-! DEFINITION. The boot controller: the steps of R85, the commit of a Pattern, recovery, the start of cores and output
release (R85 to R93, R109, R147, R365, R458, R459). -/

namespace Sys2Proof.Machine

/-! ### Steps 2 to 4 (R86, R382, R393, R394) -/

/-- A flash line of the `n` bytes from offset `x` holds an uncorrectable error. -/
def State.flashUnreadable (s : State) (x n : Nat) : Bool :=
  let within := fun (p : Nat) => decide (0x40000000 + x / 64 * 64 ≤ p) && decide (p < 0x40000000 + x + n)
  s.poison.any within || s.upsets.any (fun p => within p.1 && decide (p.2 = .uncorrectable))

/-- What steps 3 and 4 make of one block: its FAIL code, its PAT.REJECT word, and the Pattern if the block passes. -/
structure BlockTry where
  fail : Nat
  reject : Word
  found : Option (Staged × State)

/-- Steps 3 and 4 on block `k` (0 for A, 1 for B); `bad` says that one of their flash reads was uncorrectable. -/
def tryBlock (k : Nat) (bad : Bool) (s : State) : BlockTry :=
  let x := bootBase k
  let y := x + s.flashWord (x + 12)
  let h := s.flashBytes y 64
  let crc := fieldBits F.PAT_REJECT_A_HDR_CRC_BAD (bit01 (headerCrcBad h))
  if bad || s.flashUnreadable x 64 then ⟨5, 0, none⟩
  else if s.headerFail k ≠ 0 then ⟨s.headerFail k, 0, none⟩
  else if s.flashUnreadable y 64 then ⟨5, 0, none⟩
  else
    let n := if (headerReject h).isSome then 64 else patWord h 12
    if s.flashUnreadable y n then ⟨5, crc, none⟩
    else
      match loadPattern (s.flashBytes y n) (s.flashWord (x + 4) % 256) s with
      | .inl r => ⟨if r.1 = 8 then 3 else 4, fieldBits F.PAT_REJECT_A_CODE r.1 ||| crc ||| fieldBits F.PAT_REJECT_A_OFFSET r.2, none⟩
      | .inr p => ⟨0, 0, some p⟩

/-- The outcome of block `k` is recorded (R86, R107). -/
def noteTry (k : Nat) (t : BlockTry) (s : State) : State :=
  (s.setFld A.BOOT_STATUS (if k = 0 then F.BOOT_STATUS_FAIL_A else F.BOOT_STATUS_FAIL_B) t.fail).setReg
    (if k = 0 then A.PAT_REJECT_A else A.PAT_REJECT_B) t.reject

/-! ### Step 5 (R365, R89) -/

/-- A pair is held at boot, for `cause` (R89, R90). -/
def holdPair (p cause : Nat) (s : State) : State :=
  let s := if s.pairState p = 4 then s else s.setFld (A.LOCK_STATUS p) F.LOCK_STATUS_CAUSE cause
  ((setPairState p 4 s).setBit (A.LOCK_FLAGS p) F.LOCK_FLAGS_DETECTED).putFieldBit A.BOOT_STATUS F.BOOT_STATUS_PAIR_HELD p true

/-- The injection test of pair `p`, whose comparator is sound unless `broken` names it (R365). -/
def injectionTest (broken : List (Fin 8 × Comparator)) (p : Nat) : Bool :=
  match broken.find? (fun q => decide (q.1.val = p)) with
  | some q => injectionOk q.2
  | none => true

/-- A pair whose injection test fails is held, with its request of R368. -/
def injectionFails (p : Nat) (s : State) : State :=
  let s := holdPair p 2 s
  { s with pairFault := s.pairFault ||| BitVec.ofNat 8 (2 ^ p) }

/-- Pair `p` has detected a mismatch, is held or runs alone, which lasts until full reset (R358, R369, R373). -/
def State.decided (s : State) (p : Nat) : Bool :=
  decide (s.pairState p = 2) || decide (s.pairState p = 3) || decide (s.pairState p = 4)

/-- Each pair becomes locked or split, and each locked pair runs its injection test; a DORMANT exit leaves the pairs that
check, are held or run alone as they are (log entry 90). -/
def lockPairs (locked : Nat) (broken : List (Fin 8 × Comparator)) (s : State) : State :=
  (List.range 8).foldl (fun s p =>
    if s.decided p then s
    else
      let s := { s with pairLock := if locked.testBit p then s.pairLock ||| BitVec.ofNat 8 (2 ^ p) else s.pairLock &&& ~~~BitVec.ofNat 8 (2 ^ p) }
      if locked.testBit p then
        let s := setPairState p 1 s
        if injectionTest broken p then s else injectionFails p s
      else s) s

/-! ### Step 6 (R109) -/

/-- The channels hold their allocations, and those with EN at 1 are enabled; their counters go on (R190). -/
def commitChannel (n : Nat) (s : State) : State :=
  let alloc := s.allocOf n
  let s := if alloc = 0 then s else s.setChan n { (s.chan n).kept with free := alloc }
  if s.bit (A.TC_CTRL n) F.TC_CTRL_EN then s.clrBit (A.TC_STATUS n) F.TC_STATUS_DISABLED else s

/-- A PWM group's active registers take the shadows' values, and an enabled group gets its first start: a FREE group starts
in the commit rc, at fine instant PHASE (R231, R232). -/
def commitGroup (g : Nat) (s : State) : State :=
  let s := (List.range 6).foldl (fun s r => s.setReg (A.PG_ACTIVE g r) (s.reg (aShadow g r))) s
  if s.pgEn g then
    pgArmAt g 0 (s.clrBit (A.PG_STATUS g) F.PG_STATUS_DISABLED)
  else s

/-- The decimator paths, converters, law engines and Twiast ports that the Pattern enables start (R132, R177, R227, R418). -/
def commitEnables (s : State) : State :=
  let s := (List.range 160).foldl (fun s n =>
    let s := if s.bit (A.DEC_CTRL n) F.DEC_CTRL_SWIFT_EN then startPath n false s else s
    if s.bit (A.DEC_CTRL n) F.DEC_CTRL_FINE_EN then startPath n true s else s) s
  let s := (List.range 8).foldl (fun s n => if s.svEn n then surveyEnable n s else s) s
  let s := (List.range 32).foldl (fun s n => if s.bit (A.LE_CTRL n) F.LE_CTRL_EN then lawEnable n s else s) s
  (List.range 4).foldl (fun s p => if s.bit (A.TW_CTRL p) F.TW_CTRL_EN then startTrain p s else s) s

/-- The PAT registers, the exposed bits and the length of the committed Pattern (R112, R114). -/
def commitHeader (p : Staged) (s : State) : State :=
  let b := p.bytes
  let s := { s with exposed := p.exposes.foldl (fun m (r : Record) => mapSet (fun _ => 0) m r.addr r.value) [] }
  let s := { s with supply := { s.supply with committed := true, patternBytes := patWord b 12 } }
  let s := s.setReg A.PAT_STATUS (fieldBits F.PAT_STATUS_STOCK_ID (patHalf b 18) ||| fieldBits F.PAT_STATUS_FORMAT (patHalf b 4))
  let s := s.setReg A.PAT_LEVEL (fieldBits F.PAT_LEVEL_COMMITTED 1 ||| fieldBits F.PAT_LEVEL_BASIC (patWord b 20))
  let s := (s.setReg A.PAT_LENGTH (BitVec.ofNat 32 (patWord b 12))).setReg A.PAT_CRC (BitVec.ofNat 32 (patWord b (patWord b 12 - 8)))
  (s.setReg A.PAT_BUILD_LO (BitVec.ofNat 32 (patWord b 24))).setReg A.PAT_BUILD_HI (BitVec.ofNat 32 (patWord b 28))

/-- The regions that a RESTORE_FAIL has taken out of service stay in their reset state (R457, log entry 96). -/
def State.withoutLost (s : State) : State := s.assay.lost.foldl (fun s r => regionReset r s) s

/-- Step 6: the staged values, already in place in the registers, take effect in one rc, which is rc 0. -/
def commit (p : Staged) (s : State) : State :=
  let s := commitHeader p { s with rc := 0, timeBase := 0 }
  let s := (List.range 256).foldl (fun s n => commitChannel n s) s
  let s := (List.range 48).foldl (fun s g => commitGroup g s) s
  let s := commitEnables (s.setBit A.PG_CAL F.PG_CAL_LOCKED)
  (if s.fld A.RUN_HEAT_CFG F.RUN_HEAT_CFG_SRC = 1 then { s with heatDue := some 0 } else s).withoutLost

/-! ### Step 7 (R458, R459) -/

/-- The effect of a region that fails at boot. -/
def bootFailure (r : Nat) (s : State) : State :=
  let s := s.setBit A.BOOT_STATUS F.BOOT_STATUS_ASSAY_FAIL
  if r < 16 then holdPair (r / 2) 3 s
  else if 24 ≤ r ∧ r < 32 then (if s.pairLocked (r - 24) then holdPair (r - 24) 3 s else s)
  else if r = 32 ∨ r = 33 ∨ r = 34 ∨ (36 ≤ r ∧ r < 40) then s.setAssay { s.assay with failed := r :: s.assay.failed }
  else s

/-! ### Step 8 (R90, R91, R94) -/

/-- The lower core of the lowest pair that is not held, or 15. -/
def State.bootCore (s : State) : Nat :=
  match (List.range 8).find? (fun p => decide (s.pairState p ≠ 4)) with
  | some p => 2 * p
  | none => 15

/-- A core starts, once; both cores of a locked pair start together (R91, R95). -/
def startCore (c : Nat) (s : State) : State :=
  if (s.core c).started then s
  else
    let pc := s.reg A.BOOT_START_PC
    let s := s.setCore c ((s.core c).startAt pc)
    if s.pairLocked (c / 2) then s.setCore (c + 1) ((s.core (c + 1)).startAt pc) else s

/-- RST.WDOG is written with EN = 1 and a TIMEOUT, and the countdown is loaded (R94). -/
def armWatchdog (timeout : Nat) (s : State) : State :=
  let s := s.setReg A.RST_WDOG (fieldBits F.RST_WDOG_EN 1 ||| fieldBits F.RST_WDOG_TIMEOUT timeout)
  { s with supply := { s.supply with wdog := timeout } }

/-- Step 8: START_PC takes the entry address, the boot core starts, and the watchdog is armed if the option word says so. -/
def startBootCore (option entry : Nat) (s : State) : State :=
  let c := s.bootCore
  let s := (s.setReg A.BOOT_START_PC (BitVec.ofNat 32 entry)).setFld A.BOOT_STATUS F.BOOT_STATUS_BOOT_CORE c
  let s := if c = 15 then s else startCore c (s.putFieldBit A.BOOT_CTRL F.BOOT_CTRL_CORE_START c true)
  if option.testBit 10 then armWatchdog 100000 s else s

/-- Step 7 begins, or with ASSAY_BOOT 0 step 8 follows at once: 1 tests the logic regions, and 2 every region (R458). -/
def startBootAssay (option entry : Nat) (s : State) : State :=
  let mode := option / 256 % 4
  if mode = 0 then startBootCore option entry s
  else s.setAssay { s.assay with boot := some { option := option, entry := entry, queue := List.range (if mode = 1 then 40 else 86) } }

/-- Step 7 is over once no region is left to test and none is under test; step 8 follows. -/
def endBootAssay (s : State) : State :=
  match s.assay.boot with
  | none => s
  | some b =>
    if b.queue = [] ∧ s.testing = 0 then startBootCore b.option b.entry (s.setAssay { s.assay with boot := none }) else s

/-- The test in a lane ends, at boot or later. A memory region of a core that is left in its reset state holds the core. -/
def assayEnd (lane : Nat) (result : AssayResult) (s : State) : State :=
  if s.bootTesting then
    match s.assayLane lane with
    | none => s
    | some r =>
      let s := laneResult lane r result true s
      let s := if result = .pass then s else bootFailure r s
      endBootAssay (if result = .restoreFail ∧ 40 ≤ r then holdCore r s else s)
  else assayRegionEnd lane result s

/-! ### Recovery (R87, R435, R436) -/

/-- The recovery monitor as it stands in the I-TCM of CO_00 after the copy; a zero byte is not listed. -/
def monitorBytes : SMap Byte :=
  (List.range 0x20000).filterMap (fun i =>
    if factoryFlash i = 0 then none else some (0xF0000000 + i, factoryFlash i))

/-- No Pattern is committed: the boot controller copies the recovery monitor from the factory region into the I-TCM of
CO_00, enables PCIe and Ethernet port 0, in 1000BASE-X at 192.168.0.60, and CO_00 starts the monitor. -/
def recover (s : State) : State :=
  let mem := s.mem.filter (fun p => decide (p.1 < 0xF0000000)) ++ monitorBytes ++
    s.mem.filter (fun p => decide (0xF0020000 ≤ p.1))
  let s := { s with mem := mem, supply := { s.supply with committed := true } }
  let s := (s.setBit A.BOOT_STATUS F.BOOT_STATUS_RECOVERY).setReg A.HOST_EN 3
  let s := s.setHost { s.host with lineModes := mapInsert s.host.lineModes 0 .base1000X }
  let s := (s.setReg (A.ETH_MGMT_IPV4 0) 0xC0A8003C).setBit (A.ETH_MGMT_CTRL 0) F.ETH_MGMT_CTRL_V4_EN
  startCore 0 s

/-! ### The boot sequence (R85, R93) -/

/-- The MAC addresses of the factory region are loaded at step 2 (R381, R436). -/
def loadMac (s : State) : State :=
  (List.range 2).foldl (fun s n =>
    let x := 0x21008 + 6 * n
    (s.setReg (A.ETH_MAC_LO n) (BitVec.ofNat 32 (s.flashWord x))).setReg (A.ETH_MAC_HI n)
      (BitVec.ofNat 32 (leNat (s.flashBytes (x + 4) 2)))) s

/-- Steps 5 to 8 with the Pattern of block `k`, staged in `t`; `assay` says that step 7 runs. -/
def bootWith (k active : Nat) (report : BootReport) (assay : Bool) (p : Staged) (t : State) : State :=
  let option := t.flashWord (bootBase k + 4)
  let entry := t.flashWord (bootBase k + 8)
  let t := (t.putBit A.BOOT_STATUS F.BOOT_STATUS_BLOCK (decide (k = 1))).putBit A.BOOT_STATUS F.BOOT_STATUS_FELL_BACK (decide (k ≠ active))
  let t := commit p (lockPairs (option % 256) report.injection t)
  if assay then startBootAssay option entry t else startBootCore option entry t

/-- Steps 3 to 8: the block `active` is tried, then the other one, then recovery (R87). -/
def bootFrom (active : Nat) (report : BootReport) (assay : Bool) (s : State) : State :=
  let first := tryBlock active (report.badRead.getLsbD active) s
  match first.found with
  | some p => bootWith active active report assay p.1 (noteTry active first p.2)
  | none =>
    let s := noteTry active first s
    let second := tryBlock (1 - active) (report.badRead.getLsbD (1 - active)) s
    match second.found with
    | some p => bootWith (1 - active) active report assay p.1 (noteTry (1 - active) second p.2)
    | none => recover (noteTry (1 - active) second s)

/-- The boot block tried first: ACTIVE of the winning record, or A where none wins (R394). -/
def State.bootActive (s : State) : Nat :=
  match s.selWinner with
  | some w => w.2.2
  | none => 0

/-- The boot sequence, from power-good; Assay at boot is skipped at a DORMANT exit. -/
def boot (report : BootReport) (assay : Bool) (s : State) : State :=
  let s := loadMac (flashStart (s.setReg A.CLK_STATUS 0xF))
  let s := s.setHost { s.host with pcieRef := report.pcieRef }
  bootFrom s.bootActive report assay s

/-! ### BOOT.CTRL (R91, R92, R452) -/

/-- A refused write to the boot registers. -/
def rejectBoot (s : State) : State := s.setBit A.BOOT_STATUS F.BOOT_STATUS_CFG_REJECT

/-- Recovery, a region whose failure at boot or whose test refuses output release, or a boot that has not come to step 9 (R85, R92,
R452, log entry 13). -/
def State.releaseBlocked (s : State) : Bool :=
  s.bit A.BOOT_STATUS F.BOOT_STATUS_RECOVERY ||
    s.assay.failed.any (fun r => decide (r = 32) || decide (r = 33) || decide (r = 34) || (decide (36 ≤ r) && decide (r < 40))) ||
    s.bootTesting || (s.testBlocks [34] && !s.pgsDisabled 0 48)

/-- Output release (R92): a write from user mode is refused at any time, and another second write does nothing further. -/
def outputRelease (user : Bool) (s : State) : State :=
  if user then rejectBoot s
  else if s.released then s
  else if s.releaseBlocked then rejectBoot s
  else
    let s := (s.setBit A.BOOT_STATUS F.BOOT_STATUS_RELEASED).setBit A.BOOT_CTRL F.BOOT_CTRL_RELEASE
    tapSettle (quenchArm (releaseOutputs s))

/-- The bits of CORE_START that are refused: those of held pairs, and the upper bits of locked pairs; and all before step 8 (R85, R95, log
entry 13). -/
def State.startRefused (s : State) (c : Nat) : Bool :=
  s.bootTesting || decide (s.pairState (c / 2) = 4) || (decide (c % 2 = 1) && s.pairLocked (c / 2))

/-- A write of 1 bits to CORE_START. -/
def coreStart (bits : BitVec 16) (s : State) : State :=
  (List.range 16).foldl (fun s c =>
    if bits.getLsbD c then
      if s.startRefused c then rejectBoot s
      else startCore c (s.putFieldBit A.BOOT_CTRL F.BOOT_CTRL_CORE_START c true)
    else s) s

end Sys2Proof.Machine
end

