-- ==== Sys2Proof/Machine/Supply.lean ====
section
/-! DEFINITION. The supply, full resets, the power states, the current limits of the balls and the watchdog (R30 to R58,
R79 to R84, R93 to R95). -/

namespace Sys2Proof.Machine

def State.setSupply (s : State) (x : SupplyState) : State := { s with supply := x }

/-! ### Full resets (R36, R37, R80 to R84) -/

/-- A cause that holds the device in reset is present (R83). -/
def State.holding (s : State) : Bool := s.supply.pinLow || s.supply.hot || s.supply.refLost

/-- Bit `b` of RST.CAUSE is set; the always-on domain needs VIN (R62, R84). -/
def setCause (b : Nat) (s : State) : State := if s.supply.vin then s.setFld A.RST_CAUSE ⟨b, b⟩ 1 else s

/-- What the loss of every rail leaves of the supply's own record: the levels at its balls and sensors, and the balls that R41 has
switched off, which are Z until VMID is discharged. -/
def SupplyState.unpowered (x : SupplyState) (p : Supply) : SupplyState :=
  { SupplyState.reset with
    phase := p, vin := x.vin, overvoltage := x.overvoltage, pinLow := x.pinLow, hot := x.hot, refLost := x.refLost,
    straps := x.straps, ballsOff := x.ballsOff }

/-- The outputs that the global force holds (R467). -/
def State.heldOuts (s : State) : SMap OutState :=
  (List.range 192).filterMap (fun o => if (s.out o).mode = .held then
    some (o, { OutState.init with mode := .held, pin := (s.out o).pin, highDue := (s.out o).highDue }) else none)

/-- What the loss of every rail but the always-on rail leaves: the journal and flash dies with what they keep, RST.CAUSE,
the lockouts, what stands outside the device, and the model's own fields. -/
def State.bare (s : State) (x : SupplyState) : State :=
  let t : State := { State.reset with
    journal := s.journal, flash := s.flash,
    poison := s.poison.filter (fun a => decide (regionOf a = .flash) || decide (regionOf a = .journal)),
    upsets := s.upsets.filter (fun p => decide (regionOf p.1 = .flash) || decide (regionOf p.1 = .journal)),
    host := { HostState.reset with fails := s.host.fails, responses := s.host.responses, readData := s.host.readData },
    twSys := { TwSystem.reset with epoch := s.twSys.epoch }, supply := x, gpio := s.gpio, freeCount := s.freeCount,
    pending := s.pending }
  (t.setReg A.RST_CAUSE (s.reg A.RST_CAUSE)).setFld A.SESSION_STATUS F.SESSION_STATUS_LOCKOUT
    (s.fld A.SESSION_STATUS F.SESSION_STATUS_LOCKOUT)

/-- Every output is forced safe, accepted stores land, and flash commands are abandoned; then every rail falls
(R36, R158, R389, R399). -/
def State.powerLost (s : State) (p : Supply) : State :=
  let s := (List.range 192).foldl (fun s o => globalForce o s) s
  let s := flashAbandon ((List.range 16).foldl (fun s c => s.landStores c) s)
  { s.bare (s.supply.unpowered p) with outs := s.heldOuts }

/-- A source of R80 starts a full reset; one that arrives while a full reset is under way only sets its bit (R83). -/
def fullReset (b : Nat) (s : State) : State :=
  match s.supply.phase with
  | .good => (setCause b s).powerLost .discharging
  | .off => s
  | _ => setCause b s

/-- The supply treats VIN as lost: every RST.CAUSE bit clears (R84). -/
def vinLoss (high : Bool) (s : State) : State :=
  if s.supply.vin then
    let s := (s.setReg A.RST_CAUSE 0).setSupply { s.supply with vin := false, overvoltage := high }
    match s.supply.phase with
    | .good => s.powerLost .discharging
    | .ramping => s.setSupply { s.supply with phase := .discharging }
    | .waiting => s.setSupply { s.supply with phase := .off }
    | _ => s
  else s

/-- The clamp's event is a loss of VIN after which VIN is present (R35). -/
def vmidClamp (s : State) : State :=
  let cause := fun (s : State) => s.setReg A.RST_CAUSE 1
  match s.supply.phase with
  | .good => (cause s).powerLost .discharging
  | .ramping => (cause s).setSupply { s.supply with phase := .discharging }
  | _ => s

/-- VIN is present from now on: RST.CAUSE is POWER alone, and an unpowered device powers up (R34, R38, R84). -/
def vinPresent (s : State) : State :=
  let s := (s.setSupply { s.supply with vin := true, overvoltage := false }).setReg A.RST_CAUSE 1
  if s.supply.phase = .off then s.setSupply { s.supply with phase := .ramping } else s

/-- VIN rises above 8.6 V, with the straps as `straps` gives them: bit b is 1 when IOV_SEL_b is tied to GND. -/
def vinRise (straps : BitVec 12) (s : State) : State :=
  if s.supply.vin || s.supply.overvoltage then s else vinPresent (s.setSupply { s.supply with straps := straps })

/-- After an overvoltage VIN falls below 62 V (R30). -/
def vinOvervoltageEnd (s : State) : State := if s.supply.overvoltage then vinPresent s else s

/-- VMID is below 0.5 V: no output drives any more (R37, R38, R68, R83, R467). -/
def dischargeComplete (s : State) : State :=
  if s.supply.phase = .discharging then
    let s := (List.range 192).foldl (fun s o => forceHoldExpiry o s) s
    s.setSupply { s.supply with phase := if !s.supply.vin then .off else if s.holding then .waiting else .ramping, ballsOff := [] }
  else s

/-- Power-up resumes at step 2 of R34 when VIN is present and the last holding cause has ended (R83). -/
def resumePower (s : State) : State :=
  if s.supply.phase = .waiting ∧ s.holding = false then s.setSupply { s.supply with phase := .ramping } else s

def holdingCauseEnd (c : HoldCause) (s : State) : State :=
  resumePower (match c with
    | .thermal => s.setSupply { s.supply with hot := false }
    | .clock => s.setSupply { s.supply with refLost := false })

/-- Power-good, which a holding cause withholds (R83); then boot, with the level of each bank as its strap selects: step 3 of R34
samples the straps, as `straps` gives them (R63). -/
def powerGood (report : BootReport) (straps : BitVec 12) (s : State) : State :=
  if s.supply.phase = .ramping ∧ s.supply.vin then
    if s.holding then s.setSupply { s.supply with phase := .discharging }
    else
      let s := s.setSupply { s.supply with phase := .good, straps := straps }
      boot report true (s.setReg A.IOMUX_BANK_LEVEL (straps.setWidth 32))
  else s

/-! ### The reset sources (R50, R79 to R81, R94) -/

def resetPin (s : State) : State := fullReset 1 (s.setSupply { s.supply with pinLow := true })
def resetPinRelease (s : State) : State := resumePower (s.setSupply { s.supply with pinLow := false })
def thermalTrip (s : State) : State := if s.supply.vin then fullReset 2 (s.setSupply { s.supply with hot := true }) else s

/-- REFCLK stops, or a PLL loses lock after it has locked during the current boot. DESIGN CHOICE (log entry 84): the monitor, which is
always on, declares the loss of REFCLK in DORMANT too; there the PLLs are stopped, and their lock is not judged. -/
def clockLoss (refclk : Bool) (s : State) : State :=
  if refclk then fullReset 3 (s.setSupply { s.supply with refLost := true })
  else if s.supply.phase = .good ∧ s.supply.power ≠ .dormant then fullReset 3 s
  else s

/-- RST.CTRL with FULL = 1: the correct KEY starts a full reset, and a wrong one is refused (R95). -/
def resetCommand (w : Word) (s : State) : State :=
  if w.getLsbD 0 then (if fieldOf w F.RST_CTRL_KEY = 0xB1A5 then fullReset 4 s else rejectBoot s) else s

/-- A write of RST.WDOG: a TIMEOUT of 0 is refused (R16), and EN with it while no TIMEOUT stands (R94). -/
def wdogWrite (en : Bool) (timeout : Nat) (s : State) : State :=
  let s := if timeout = 0 then rejectBoot s else s.setFld A.RST_WDOG F.RST_WDOG_TIMEOUT timeout
  if en && !s.bit A.RST_WDOG F.RST_WDOG_EN then
    let t := s.fld A.RST_WDOG F.RST_WDOG_TIMEOUT
    if t = 0 then rejectBoot s else armWatchdog t s
  else s

/-- The countdown is reloaded from TIMEOUT. -/
def wdogKick (s : State) : State := s.setSupply { s.supply with wdog := s.fld A.RST_WDOG F.RST_WDOG_TIMEOUT }

def wdogExpiry (s : State) : State :=
  if s.supply.phase = .good ∧ s.bit A.RST_WDOG F.RST_WDOG_EN ∧ s.supply.power ≠ .dormant then fullReset 5 s else s

/-! ### Current limits (R40 to R43) -/

def State.ballLimit (s : State) (p : Nat) : BallLimit := mapGet (fun _ => ⟨false, 0⟩) s.supply.limits p

def State.setBallLimit (s : State) (p : Nat) (x : BallLimit) : State :=
  s.setSupply { s.supply with limits := mapSet (fun _ => ⟨false, 0⟩) s.supply.limits p x }

/-- An output enters its current limit, which it must drive for, or leaves it; it has spent `elapsed` µs in it since the last such change
of this ball. -/
def currentLimitChange (p : Nat) (limited : Bool) (elapsed : Nat) (s : State) : State :=
  if limited && !s.ballDrives p then s
  else
    let x := s.ballLimit p
    s.setBallLimit p ⟨limited, if x.inLimit then x.spent + elapsed else x.spent⟩

/-- An output has spent 10 ms in its limit in all, `elapsed` µs of them since its last change: it is switched off. -/
def currentLimitTrip (p elapsed : Nat) (s : State) : State :=
  let x := s.ballLimit p
  if s.ballDrives p && x.inLimit && decide (10000 ≤ x.spent + elapsed) then
    let s := s.setBallLimit p ⟨false, 0⟩
    let s := s.setSupply { s.supply with ballsOff := s.supply.ballsOff ++ [p] }
    let s := if s.bit A.SUP_IO_FAULT F.SUP_IO_FAULT_VALID then s
      else (s.setBit A.SUP_IO_FAULT F.SUP_IO_FAULT_VALID).setFld A.SUP_IO_FAULT F.SUP_IO_FAULT_BALL p
    s.countSat A.SUP_IO_FAULT F.SUP_IO_FAULT_COUNT
  else s

/-- After 100 ms out of its limit an output's limit time clears; one that does not drive is out of it. -/
def limitTimeClear (p : Nat) (s : State) : State :=
  if (s.ballLimit p).inLimit && s.ballDrives p then s else s.setBallLimit p ⟨false, 0⟩

/-- SUP.IO_FAULT.VALID is cleared with the rest, and every ball that was switched off drives again (R43). -/
def ioFaultClear (s : State) : State :=
  (s.setReg A.SUP_IO_FAULT 0).setSupply { s.supply with ballsOff := [] }

/-! ### Power (R58, R453) -/

/-- A 1 ms average of VIN and of the input power completes. -/
def powerAverage (vin power : BitVec 12) (s : State) : State :=
  if s.alive then
    let s := s.setReg A.PM_POWER (fieldBits F.PM_POWER_VIN vin.toNat ||| fieldBits F.PM_POWER_P_IN power.toNat)
    let below := decide (vin.toNat < s.fld A.SUP_VIN_WARN F.SUP_VIN_WARN_THRESH)
    let was := s.supply.vinBelow
    let s := s.setSupply { s.supply with vinBelow := below, pBase := if s.testing = 0 then power.toNat else s.supply.pBase }
    s.setBitIf (below && !was) A.SUP_STATUS F.SUP_STATUS_VIN_WARN
  else s

/-! ### Power states (R51 to R57) -/

def PowerState.code : PowerState → Nat
  | .run => 0
  | .idle => 1
  | .hold => 2
  | .dormant => 3

/-- The exit latency of R51 in whole µs, rounded up. -/
def PowerState.exitMicros : PowerState → Nat
  | .run => 0
  | .idle => 1
  | .hold => 40
  | .dormant => 3000

/-- Core `c` lets the device leave RUN. -/
def State.coreSleeps (s : State) (c : Nat) : Bool :=
  let k := s.core (s.coreRecord c)
  !k.started || k.waiting || k.halted || decide (s.pairState (c / 2) = 4)

/-- The conditions of R53. -/
def State.maySleep (s : State) : Bool :=
  s.alive && s.bit A.PM_CTRL F.PM_CTRL_SLEEP_EN && (List.range 16).all s.coreSleeps && decide (s.testing = 0) &&
    !s.bootTesting

/-- State `p` fits WAKE_BUDGET, DEEPEST and the length of the Pattern. -/
def State.sleepFits (s : State) (p : PowerState) : Bool :=
  decide (p.exitMicros ≤ s.fld A.PM_CTRL F.PM_CTRL_WAKE_BUDGET) && decide (p.code ≤ s.fld A.PM_CTRL F.PM_CTRL_DEEPEST) &&
    !(decide (p = .dormant) && decide (0x400000 < s.supply.patternBytes))

/-- The state that R53 chooses now. -/
def State.sleepTarget (s : State) : PowerState :=
  if s.maySleep then [PowerState.idle, .hold, .dormant].foldl (fun t p => if s.sleepFits p then p else t) .run else .run

/-- Entry to DORMANT resumes a suspended erase once no flash command runs (R397). -/
def resumeForDormant (s : State) : State :=
  if s.flash.job.isNone && s.flash.suspended.isSome then acceptFlash 4 0 s else s

/-- The sources that are high as the cores' clocks stop (R324). -/
def State.highSources (s : State) : List Nat := (List.range 384).filter s.source

/-- The power manager chooses a state and begins to enter it; IDLE is entered at once. -/
def sleepEntry (s : State) : State :=
  if s.supply.power = .run ∧ s.supply.entering = none then
    match s.sleepTarget with
    | .run => s
    | .idle => s.setSupply { s.supply with power := .idle, highAtStop := s.highSources, risen := [] }
    | .hold => s.setSupply { s.supply with entering := some .hold }
    | .dormant => resumeForDormant (s.setSupply { s.supply with entering := some .dormant })
  else s

/-- No token is in flight in the Tundish (R54). -/
def State.tundishEmpty (s : State) : Bool := s.chans.all (fun p => p.2.queue.isEmpty)

/-- No Ladle engine is in the middle of a unit: it holds neither an accepted token that it has not yet written nor a payload read that it
has not yet issued (R353). -/
def State.unitsDone (s : State) : Bool := (List.range 8).all (fun n => !(s.ldBusy n && (s.ladle n).payload.isSome))

/-- No PWM group runs, is to start or has a stop pending. -/
def State.pgsStopped (s : State) : Bool :=
  (List.range 48).all (fun g => !s.pgRunning g && (s.pg g).next.isNone && !s.pgPending g)

/-- HOLD: the converters pause and the Runner stops (R54, R178). -/
def enterHold (s : State) : State :=
  let s := (List.range 8).foldl (fun s n => svHold n s) s
  s.setSupply { s.supply with power := .hold, entering := none, highAtStop := s.highSources, risen := [] }

/-- The registers that DORMANT keeps (R51, R63, R95). -/
def dormantRegs : List Nat :=
  [A.PM_CTRL, A.PM_STATUS, A.PM_ALARM, A.RST_CAUSE, A.RST_WDOG, A.IOMUX_BANK_LEVEL]

/-- The registers that hold a copy taken, a token held, or an address recorded, since the last full reset (R143, R335, R382, R398, R411). -/
def lastingRegs : List Nat :=
  [A.DEC_SNAP_SP_LO 0, A.DEC_SNAP_SD_LO 0, A.DEC_SNAP_FP_LO 0, A.DEC_SNAP_FD_LO 0, A.DEC_SNAP_S_HI 0, A.DEC_SNAP_F_HI 0,
   A.DEC_SNAP_LEVEL 0, A.MEM_FATAL_ADDR, A.FLASH_FATAL_ADDR, A.JRNL_FATAL_ADDR,
   A.TW_DEAD_INFO 0, A.TW_DEAD_LO 0, A.TW_DEAD_HI 0]

/-- The bits of register `a` that only a full reset clears, and what a pair that a detection has left checking, held or running alone
shows of it (R92, R137, R191, R203, R224, R247, R255, R335, R369, R373, R382, R392, R398, R417, R431; log entry 90). -/
def State.resetOnly (s : State) (a : Nat) : Word :=
  match regDefAt a with
  | none => 0
  | some d =>
    if lastingRegs.contains d.base then 0xFFFFFFFF
    else if d.base = A.RUN_AUDIT_CTRL then fieldMask F.RUN_AUDIT_CTRL_VALID
    else if d.base = A.PG_ACC_CTRL 0 then fieldMask F.PG_ACC_CTRL_VALID
    else if d.base = A.TW_AUDIT_CTRL 0 then fieldMask F.TW_AUDIT_CTRL_VALID
    else if d.base = A.DEC_STATUS 0 then fieldMask F.DEC_STATUS_CONS_FAULT
    else if d.base = A.TC_STATUS 0 then fieldMask F.TC_STATUS_CONS_FAULT
    else if d.base = A.RUN_STATUS then fieldMask F.RUN_STATUS_CONS_FAULT
    else if d.base = A.LT_STATUS then fieldMask F.LT_STATUS_ECC_FATAL
    else if d.base = A.PG_STATUS 0 then fieldMask F.PG_STATUS_CONS_FAULT
    else if d.base = A.MEM_STATUS then fieldMask F.MEM_STATUS_FATAL
    else if d.base = A.FLASH_STATUS then fieldMask F.FLASH_STATUS_FATAL ||| fieldMask F.FLASH_STATUS_UNLOCKED
    else if d.base = A.JRNL_STATUS then fieldMask F.JRNL_STATUS_FATAL
    else if d.base = A.TW_STATUS 0 then fieldMask F.TW_STATUS_CONS_FAULT
    else if d.base = A.BOOT_STATUS then fieldMask F.BOOT_STATUS_PAIR_HELD ||| fieldMask F.BOOT_STATUS_ASSAY_FAIL
    else if A.LOCK_CTRL 0 ≤ a ∧ a < A.LOCK_CTRL 8 ∧ s.decided ((a - A.LOCK_CTRL 0) / 0x40) = true then 0xFFFFFFFF
    else 0

/-- The cores that a second stack fault has halted (R318). -/
def State.haltedCores (s : State) : SMap Core :=
  (List.range 16).filterMap (fun c => if (s.core c).halted then some (c, { Core.reset with halted := true }) else none)

/-- What DORMANT leaves: the always-on domain, the journal and the flash's own contents, and what lasts until full reset: the audit
counters and their copies, what a link's counters count, the schedule last issued and adopted, the words that readers hold, and the
regions that have failed or that arbitration is to test (R137, R190, R192, R220, R247, R369, R417, R428, R457, R460). DESIGN CHOICE
(log entry 90): a region's failure at the last boot with Assay still refuses RELEASE after a DORMANT exit (R92). -/
def State.dormant (s : State) (power : PowerState) : State :=
  let x := { s.supply.unpowered .good with power := power, wdog := s.supply.wdog, patternBytes := s.supply.patternBytes }
  let t := { s.bare x with
    alarm := s.alarm, eccReported := s.eccReported, pairFault := s.pairFault, coreHalted := s.coreHalted, cores := s.haltedCores,
    decs := s.decs.map (fun p => (p.1, { swift := p.2.swift.kept, fine := p.2.fine.kept })),
    chans := s.chans.map (fun p => (p.1, p.2.kept)), audit := s.audit, outs := s.outs.map (fun p => (p.1, p.2.kept)),
    accs := s.accs, tw := s.tw.map (fun p => (p.1, p.2.kept)), readers := s.readers,
    twSys := { TwSystem.reset with epoch := s.twSys.epoch, issued := s.twSys.issued, adopted := s.twSys.adopted },
    assay := { AssayState.reset with arbitrations := s.assay.arbitrations, failed := s.assay.failed, lost := s.assay.lost },
    pairLock := s.pairLock &&& BitVec.ofNat 8 (((List.range 8).filter s.decided).map (2 ^ ·)).sum }
  let t := s.regs.foldl (fun t p => t.setReg p.1 (t.reg p.1 ||| (s.reg p.1 &&& s.resetOnly p.1))) t
  dormantRegs.foldl (fun t a => t.setReg a (s.reg a)) t

/-- Every core's accepted stores land, and the device enters DORMANT. -/
def enterDormant (s : State) : State := ((List.range 16).foldl (fun s c => s.landStores c) s).dormant .dormant

/-- The signal path has come to rest: the current heat has finished, every token is retired, and for HOLD the converters have
paused (R54, R178, R353). -/
def State.settled (s : State) : Bool :=
  s.alive && !s.heatRunning && s.tundishEmpty && s.unitsDone && (decide (s.supply.entering = some .dormant) || s.svQuiet)

/-- Entry goes on once the signal path has come to rest: each PWM group is to stop at its next boundary, and when none runs any more
the state is entered; for DORMANT the flash must be idle too (R54, R252, R397). -/
def entryComplete (s : State) : State :=
  if s.settled then
    match s.supply.entering with
    | some .hold =>
      let s := (List.range 48).foldl (fun s g => pgHold g s) s
      if s.pgsStopped then enterHold s else s
    | some .dormant =>
      let s := (List.range 48).foldl (fun s g => pgHold g s) (resumeForDormant s)
      if s.pgsStopped && s.flash.job.isNone then enterDormant s else s
    | _ => s
  else s

/-- PM.STATUS records an exit. -/
def noteExit (cause : Nat) (last : PowerState) (s : State) : State :=
  (s.setFld A.PM_STATUS F.PM_STATUS_WAKE_CAUSE cause).setFld A.PM_STATUS F.PM_STATUS_LAST_STATE last.code

/-- Controller `c` caught source `i`: WAKE_SRC names it, and WAKE_NONE is set if nothing is eligible, or pending for a
core in WAIT with IE at 0, when the clock returns (R324). -/
def wakeController (c i : Nat) (s : State) : State :=
  let k := s.core c
  let level := if k.waiting && !k.effective Psw.ie then 0 else k.rlevel.toNat
  let flags := (k.icFlags &&& ~~~0x01FF0000) ||| BitVec.ofNat 32 (i * 2 ^ 16)
  let flags := if (s.arbitrate c level).isNone then flags ||| 4 else flags
  s.setCore c { k with icFlags := flags }

/-- Every controller has caught the first of the sources `risen` that it watches (log entry 55). -/
def wakeControllers (risen : List Nat) (s : State) : State :=
  (List.range 16).foldl (fun s c =>
    if s.coreRecord c = c then
      match risen.find? (fun i => s.watched c i) with
      | none => s
      | some i => wakeController c i s
    else s) s

/-- The converters that HOLD paused resume (R178). -/
def resumeSurvey (s : State) : State := (List.range 8).foldl (fun s n => svResume n s) s

/-- The PWM groups restart and the converters resume when HOLD ends or an entry is abandoned. -/
def leaveHold (s : State) : State :=
  resumeSurvey ((List.range 48).foldl (fun s g => pgResume g s) s)

/-- An entry is abandoned: the groups and converters that it stopped go on (R55, R178, R252). -/
def abandonEntry (s : State) : State :=
  if s.supply.entering = none then s else leaveHold (s.setSupply { s.supply with entering := none })

/-- IDLE or HOLD ends (R52, R324). -/
def State.clocksBack (s : State) : State := s.setSupply { s.supply with power := .run, highAtStop := [], risen := [] }

/-- Source `i` rises at controller `c`, or has risen there: an entry is abandoned, IDLE or HOLD ends (R55, R56). A level that was high
when the clocks stopped and has not fallen since is no rise, and a rise wakes although its level has fallen again (R324). DESIGN
CHOICE (log entry 83): entry to DORMANT is abandoned too, although no interrupt ends DORMANT itself. -/
def interruptWake (c i : Nat) (s : State) : State :=
  let s := s.stillHigh
  let caught := s.supply.risen
  if s.alive && s.watched c i && (if s.clocksStand then caught.contains i else s.source i) then
    match s.supply.power with
    | .idle => wakeControllers caught (noteExit 1 .idle s.clocksBack)
    | .hold => wakeControllers caught (leaveHold (noteExit 1 .hold s.clocksBack))
    | _ => abandonEntry s
  else s

/-- A DORMANT exit: the rails return, SUP.IO_FAULT with them, and boot runs, without Assay (R93). -/
def dormantExit (cause : Nat) (report : BootReport) (s : State) : State :=
  let s := noteExit cause .dormant (s.dormant .run)
  boot report false (s.setSupply { s.supply with ballsOff := [] })

/-- PM.ALARM after a DORMANT exit that it did not cause: the µs that have passed are open, so it is a free value of at
least 1 and at most what it was (log entry 2). -/
def alarmRemains (s : State) : State :=
  let n := (s.reg A.PM_ALARM).toNat
  if n = 0 then s else s.spent.setReg A.PM_ALARM (BitVec.ofNat 32 (1 + s.free.toNat % n))

/-- The WAKE ball rises: it ends DORMANT, or abandons its entry. -/
def ballWake (report : BootReport) (s : State) : State :=
  if s.supply.phase = .good then
    match s.supply.power, s.supply.entering with
    | .dormant, _ => dormantExit 2 report (alarmRemains s)
    | _, some .dormant => abandonEntry s
    | _, _ => s
  else s

/-- PM.ALARM reaches zero in DORMANT (R58). -/
def alarmExpiry (report : BootReport) (s : State) : State :=
  if s.supply.phase = .good ∧ s.supply.power = .dormant ∧ s.reg A.PM_ALARM ≠ 0 then
    dormantExit 3 report (s.setReg A.PM_ALARM 0)
  else s

/-- A wake event (R56). -/
def wakeEvent (cause : WakeCause) (report : BootReport) (s : State) : State :=
  match cause with
  | .interrupt c i => interruptWake c i s
  | .ball => ballWake report s
  | .alarm => alarmExpiry report s

end Sys2Proof.Machine
end

