-- ==== Sys2Proof/Machine/View.lean ====
section
/-! DEFINITION. What a read of each register returns: the stored word, the fields that follow the block's live state, and the
words that a read captures for its reader (R12, R15, R192, R197 to R199, R220, R225, R330, R465). -/

namespace Sys2Proof.Machine

/-- The index of address `a` among `count` registers from `base`, `stride` apart. -/
def place (base stride count a : Nat) : Option Nat :=
  if base ≤ a ∧ (a - base) % stride = 0 ∧ (a - base) / stride < count then some ((a - base) / stride) else none

/-- The index of a requester among the readers of R465: cores, then management ports, then Ladle engines. -/
def State.readerOf (s : State) : Requester → Nat
  | .core c _ => s.coreRecord c
  | .port p => 16 + p
  | .ladle n => 24 + n

/-! ### Chapters 2 to 8 -/

def viewSupply (s : State) (a : Nat) (w : Word) : Word :=
  if a = A.PM_STATUS then putField w F.PM_STATUS_CHOSEN s.sleepTarget.code
  else if a = A.SUP_STATUS then
    putField (putField w F.SUP_STATUS_ASSAY_DEFERRED (bit01 s.assayDeferred)) F.SUP_STATUS_IO_FAULT_ANY
      (s.fld A.SUP_IO_FAULT F.SUP_IO_FAULT_VALID)
  else if a = A.CLK_STATUS then putField w F.CLK_STATUS_PCIE_REF_OK (bit01 s.host.pcieRef)
  else
    match place (A.IOMUX_CFG 0) 4 114 a with
    | some n => putField w F.IOMUX_CFG_IN (bit01 (s.ballIn n))
    | none => w

def viewConverters (s : State) (a : Nat) (w : Word) : Word :=
  match place (A.CONV_FIR_COEF 0) 4 32 a with
  | some k => (firCoef k).setWidth 32
  | none =>
  match place (A.DEC_STATUS 0) 0x80 160 a with
  | some n =>
    putField (putField w F.DEC_STATUS_FINE_LEVEL (s.dec n).fine.buf.length) F.DEC_STATUS_SWIFT_LEVEL (s.dec n).swift.buf.length
  | none =>
  match place (A.WC_STATUS 0) 0x10 96 a with
  | some n =>
    let ready := s.bit (A.WC_CTRL n) F.WC_CTRL_EN && s.bit (A.WC_STATUS n) F.WC_STATUS_READY
    putField (putField w F.WC_STATUS_BELOW (bit01 (ready && (s.wc n).below))) F.WC_STATUS_ABOVE (bit01 (ready && (s.wc n).above))
  | none =>
  match place (A.SV_STATUS 0) 0x400 8 a with
  | some n => putField w F.SV_STATUS_OVERRUN_ANY (bit01 (decide (s.reg (A.SV_OVERRUN n) ≠ 0)))
  | none => w

def viewQuench (s : State) (a : Nat) (w : Word) : Word :=
  if a = A.QUENCH_STATUS then putField w F.QUENCH_STATUS_TRIPPED s.tripped
  else
    match place (A.QUENCH_REQ 0) 4 5 a with
    | some k => s.quenchReq k
    | none =>
      match place (A.QUENCH_FORCED 0) 4 6 a with
      | some k => s.forcedBits k
      | none => w

/-! ### The Runner (R185, R192, R198, R199) -/

/-- The audit copy that AUDIT_CTRL.SEL selects. -/
def State.auditShown (s : State) : ChannelCopy := s.auditCopy (s.fld A.RUN_AUDIT_CTRL F.RUN_AUDIT_CTRL_SEL)

def viewRunner (s : State) (r a : Nat) (w : Word) : Word :=
  let x := s.auditShown
  if a = A.RUN_STATUS then putField w F.RUN_STATUS_RISER_FREE s.riserFree
  else if a = A.RUN_TIME_LO then s.timeBase.setWidth 32
  else if a = A.RUN_TIME_HI then (s.reader r).timeHi
  else if a = A.RUN_AUDIT_ISSUED_LO then x.issued.setWidth 32
  else if a = A.RUN_AUDIT_RETIRED_LO then x.retired.setWidth 32
  else if a = A.RUN_AUDIT_RETURNED_LO then x.returned.setWidth 32
  else if a = A.RUN_AUDIT_HI_A then (x.retired >>> 32).setWidth 16 ++ (x.issued >>> 32).setWidth 16
  else if a = A.RUN_AUDIT_HI_B then
    fieldBits F.RUN_AUDIT_HI_B_RISER x.riser ||| fieldBits F.RUN_AUDIT_HI_B_RETURNED_HI (x.returned >>> 32).toNat
  else if a = A.RUN_AUDIT_LEVEL then
    fieldBits F.RUN_AUDIT_LEVEL_INFLIGHT x.inflight ||| fieldBits F.RUN_AUDIT_LEVEL_FREE x.free
  else if a = A.RUN_PUSH_STATUS then
    fieldBits F.RUN_PUSH_STATUS_REFUSED (bit01 (s.push r).refused) ||| fieldBits F.RUN_PUSH_STATUS_SPACE (8 - (s.push r).buf.length)
  else
    match place (A.TC_STATUS 0) 0x20 256 a with
    | some n => putField (putField w F.TC_STATUS_INFLIGHT (s.chan n).inflight) F.TC_STATUS_FREE (s.chan n).free
    | none => w

/-- A snapshot register: the payload now, or the words last captured by reader `r`. -/
def viewSnap (s : State) (r a : Nat) : Word :=
  let k := (a - A.RUN_SNAP_LO 0) / 0x10
  match (a - A.RUN_SNAP_LO 0) % 0x10 with
  | 0 => (s.snapFor r k).payload.setWidth 32
  | 4 => (s.snapCaptured r k).1
  | 8 => (s.snapCaptured r k).2
  | _ => 0

/-! ### Law engines and PWM (R220, R247) -/

def viewLaw (s : State) (r a : Nat) (w : Word) : Word :=
  let n := (a - A.LE_CTRL 0) / 0x4000
  let x := (a - A.LE_CTRL 0) % 0x4000
  if 0x2000 ≤ x then
    let op := s.lawOp n ((x - 0x2000) / 8)
    if x % 8 = 0 then op.setWidth 32 else (op >>> 32).setWidth 32
  else if 0x800 ≤ x ∧ x < 0x1000 then
    if x % 8 = 0 then (s.lawWord n ((x - 0x800) / 8)).setWidth 32 else (s.reader r).stateHi.setWidth 32
  else w

def viewPg (s : State) (a : Nat) (w : Word) : Word :=
  let g := (a - A.PG_CTRL 0) / 0x80
  let x := s.acc (4 * g + s.fld (A.PG_ACC_CTRL g) F.PG_ACC_CTRL_SEL)
  match (a - A.PG_CTRL 0) % 0x80 with
  | 0x64 => x.commanded.setWidth 32
  | 0x68 => x.emitted.setWidth 32
  | 0x6C => x.suppressed.setWidth 32
  | 0x70 => (x.emitted >>> 32).setWidth 16 ++ (x.commanded >>> 32).setWidth 16
  | 0x74 => fieldBits F.PG_ACC_HI_B_IN_PROGRESS (bit01 x.inProgress) ||| (x.suppressed >>> 32).setWidth 32
  | _ => w

/-! ### Interrupt controllers, memory, flash, Twiast, Assay -/

/-- IC_c.STATUS (R328). -/
def Core.icStatus (k : Core) : Word :=
  fieldBits F.IC_STATUS_HALTED (bit01 k.halted) ||| fieldBits F.IC_STATUS_WAITING (bit01 k.waiting) |||
    fieldBits F.IC_STATUS_EMERG (bit01 k.emerg) ||| fieldBits F.IC_STATUS_SHADOW_VALID (bit01 k.shadowValid) |||
    fieldBits F.IC_STATUS_RLEVEL k.rlevel.toNat ||| fieldBits F.IC_STATUS_CLAIM k.icClaim.toNat

/-- The registers of IC_c; the controller of a checker is idle, and shows the sources' levels alone (R362). -/
def viewIc (s : State) (a : Nat) (w : Word) : Word :=
  let c := (a - A.IC_SRC 0 0) / 0x1000
  let k := s.core c
  let x := (a - A.IC_SRC 0 0) % 0x1000
  if 0x800 ≤ x ∧ x < 0x830 then bits32 s.source ((x - 0x800) / 4)
  else if s.coreRecord c ≠ c then w
  else if x < 0x600 then putField w F.IC_SRC_EN (bit01 (k.enabled (x / 4)))
  else if 0x840 ≤ x ∧ x < 0x870 then bits32 (s.pendingAt c) ((x - 0x840) / 4)
  else if x = 0x880 then k.icStatus
  else w

/-- IC.SWI_SET_k and IC.SWI_CLR_k read the same bits (R325). -/
def State.swiWord (s : State) (k : Nat) : Word := (s.swi >>> (32 * k)).setWidth 32

def viewLadle (s : State) (a : Nat) (w : Word) : Word :=
  match place (A.LD_IDX 0) 0x100 8 a with
  | some n => putField w F.LD_IDX_WR_IDX (s.ldWr n)
  | none => w

/-- The four links' audit copies (R431), and LOCKED of the grand master (R423). -/
def viewTwiast (s : State) (a : Nat) (w : Word) : Word :=
  if a = A.TW_SYS_STATUS then s.sysStatus
  else if A.TW_CTRL 0 ≤ a then
    let p := (a - A.TW_CTRL 0) / 0x400
    let x := (a - A.TW_CTRL 0) % 0x400
    if 0x44 ≤ x ∧ x < 0x7C then
      let v := mapGet (fun _ => 0) (s.port p).copy ((x - 0x44) / 8)
      if (x - 0x44) % 8 = 0 then v.setWidth 32 else (v >>> 32).setWidth 32
    else w
  else w

def viewAssay (s : State) (a : Nat) (w : Word) : Word :=
  if a = A.ASSAY_STATUS then
    putField (putField (putField w F.ASSAY_STATUS_WAITING (bit01 s.assayWaiting)) F.ASSAY_STATUS_LANE1 (s.assay.lane1.getD 127))
      F.ASSAY_STATUS_LANE0 (s.assay.lane0.getD 127)
  else w

/-! ### A read -/

/-- The fields of `d` whose access code is `p`, as a mask. -/
def RegDef.mask (d : RegDef) (p : Access) : Word :=
  d.fields.foldl (fun m f => if f.acc = p then m ||| fieldMask ⟨f.hi, f.lo⟩ else m) 0

/-- What the register at `a` shows to reader `r`. -/
def State.shown (s : State) (r a : Nat) : Word :=
  let w := s.reg a
  if a < 0x80010000 then viewSupply s a w
  else if a < 0x80031000 then viewConverters s a w
  else if a < 0x80038000 then viewQuench s a w
  else if a < 0x80040000 then viewConverters s a w
  else if a < 0x80048000 then viewRunner s r a w
  else if a < 0x80049000 then viewSnap s r a
  else if a < 0x80050000 then viewRunner s r a w
  else if a < 0x800D0000 then viewLaw s r a w
  else if a < 0x800E0000 then w
  else if a < 0x800E2000 then viewPg s a w
  else if a < 0x80100000 then w
  else if a < 0x80110000 then viewIc s a w
  else if a < 0x80120000 then s.swiWord ((a - A.IC_SWI_SET 0) / 4 % 4)
  else if a < 0x80128000 then viewLadle s a w
  else if a = A.FLASH_REMAP_ENTRY then s.remapEntry
  else if a < 0x80150000 then w
  else if a < 0x80160000 then viewTwiast s a w
  else viewAssay s a w

/-- What a read does beside returning its word: the captures of R197, R199 and R220. -/
def readEffect (r a : Nat) (s : State) : State :=
  if a = A.RUN_TIME_LO then (timeLoRead r s).2
  else
    match place (A.RUN_SNAP_LO 0) 0x10 128 a with
    | some k => (snapLoRead r k s).2
    | none =>
      match stateWordAt a with
      | some (n, w, false) => (stateLoRead r n w s).2
      | _ => s

/-- What the snapshot crossing has delivered by the time a core's read of a SNAP_k_LO arrives (R199, R200). -/
def readArrival (r a : Nat) (s : State) : State :=
  if decide (r < 16) && (place (A.RUN_SNAP_LO 0) 0x10 128 a).isSome then crossSnaps s else s

/-- A read of the block register at `a`: an offset that no chapter lists reads as zero, and so does a WO field (R12, R15). -/
def readReg (who : Requester) (a : Nat) (s : State) : Word × State :=
  match regDefAt a with
  | none => (0, s)
  | some d =>
    let r := s.readerOf who
    let s := readArrival r a s
    (s.shown r a &&& ~~~ d.mask .wo, readEffect r a s)

end Sys2Proof.Machine
end

