-- ==== Sys2Proof/Machine/Bus.lean ====
section
/-! DEFINITION. A write of a device register: what each field takes by its access code, level and encodings, what the
chapters refuse beside that, and what the write starts (R12 to R16, R28, R463, R464). -/

namespace Sys2Proof.Machine

/-! ### The requester -/

/-- The write comes from a core in user mode. -/
def byUser : Requester → Bool
  | .core _ u => u
  | _ => false

/-- The core that writes, if one does. -/
def byCore : Requester → Option Nat
  | .core c _ => some c
  | _ => none

/-- The requester can make a write now: a core that runs, at its privilege; a port with an open session; a Ladle engine that
copies (R51, R351, R441). -/
def State.mayWrite (s : State) : Requester → Bool
  | .core c u => s.runnerOn && s.coreOn c && decide ((s.core c).user = u)
  | .port p => s.runnerOn && s.sessionOpen p
  | .ladle n => s.ldRuns n 0

/-! ### CFG_REJECT (R463) -/

/-- The CFG_REJECT flag of the block that holds address `a` is set. -/
def State.refuse (s : State) (a : Nat) : State :=
  match blockAt a with
  | none => s
  | some b =>
    match b.reject with
    | .none => s
    | .at x i => s.setFld x ⟨i, i⟩ 1
    | .inst x stride i => s.setFld (x + (a - b.base) / stride * stride) ⟨i, i⟩ 1
    | .core =>
      let c := s.coreRecord ((a - b.base) / 0x1000)
      s.setCore c { s.core c with icFlags := (s.core c).icFlags ||| 1 }

/-! ### Levels (R28, R111) -/

/-- The function that holds address `a` runs at the basic level. -/
def State.basicAt (s : State) (a : Nat) : Bool :=
  match blockAt a with
  | none => false
  | some b => decide (b.fn < 11) && (s.fld A.PAT_LEVEL F.PAT_LEVEL_BASIC).testBit b.fn

/-- Field `f` of the register at `a` is exposed. -/
def State.exposedField (s : State) (a : Nat) (f : FieldDef) : Bool :=
  let m := fieldMask ⟨f.hi, f.lo⟩
  decide (mapGet (fun _ => 0) s.exposed a &&& m = m)

/-- A write never changes field `f`: it is PT, or RW at the basic level and not exposed. -/
def State.fixedField (s : State) (a : Nat) (f : FieldDef) : Bool :=
  decide (f.acc = .pt) || (decide (f.acc = .rw) && s.basicAt a && !s.exposedField a f)

/-! ### What the chapters refuse -/

/-- The bits that a write of `w` may not change as the block now stands (R123, R141, R353, R452). -/
def State.guarded (s : State) (a : Nat) (w : Word) : Word :=
  match place (A.XB_CTRL 0) 0x10 64 a with
  | some n => if s.bit (A.XB_CTRL n) F.XB_CTRL_EN then fieldMask F.XB_CTRL_DIV ||| fieldMask F.XB_CTRL_DLY else 0
  | none =>
  match place (A.DEC_CFG 0) 0x80 160 a with
  | some n =>
    let swift := s.bit (A.DEC_STATUS n) F.DEC_STATUS_SWIFT_DISABLED
    let fine := s.bit (A.DEC_STATUS n) F.DEC_STATUS_FINE_DISABLED
    (if swift then 0 else fieldMask F.DEC_CFG_SWIFT_OSR) ||| (if fine then 0 else fieldMask F.DEC_CFG_FINE_OSR) |||
      (if swift && fine then 0 else fieldMask F.DEC_CFG_START_DLY)
  | none =>
  match place (A.DEC_FINE_OFFSET 0) 0x80 160 a with
  | some n => if s.bit (A.DEC_STATUS n) F.DEC_STATUS_FINE_DISABLED then 0 else 0xFFFFFFFF
  | none =>
  match place (A.DEC_FINE_GAIN 0) 0x80 160 a with
  | some n => if s.bit (A.DEC_STATUS n) F.DEC_STATUS_FINE_DISABLED then 0 else 0xFFFFFFFF
  | none =>
  match place (A.TC_CTRL 0) 0x20 256 a with
  | some _ => if w.getLsbD 0 && s.testBlocks channelRegions then 1 else 0
  | none =>
  match place (A.LE_CTRL 0) 0x4000 32 a with
  | some n => if w.getLsbD 0 && s.testBlocks (lawRegions n) then 1 else 0
  | none =>
  match place (A.PG_CTRL 0) 0x80 48 a with
  | some g => if w.getLsbD 0 && s.testBlocks (s.pgRegions g) then 1 else 0
  | none =>
  match place (A.LD_CTRL 0) 0x100 8 a with
  | some n => if s.ldDisabled n then 0 else fieldMask F.LD_CTRL_MODE
  | none => 0

/-- The fields of the register at `a` in which a write of `w` is refused as the block now stands, even where it carries their present
value (R136, R194, R244, R353, R374, R418). -/
def State.forbidden (s : State) (a : Nat) (w : Word) : Word :=
  match place (A.LOCK_CTRL 0) 0x40 8 a with
  | some p => if s.fld (A.LOCK_STATUS p) F.LOCK_STATUS_CAUSE ≠ 0 then fieldMask F.LOCK_CTRL_LIMP_EN else 0
  | none =>
  match place (A.DEC_CTRL 0) 0x80 160 a with
  | some n =>
    (if (s.producerChannel (epSwift n)).isNone && w.getLsbD 0 then 1 else 0) |||
      (if (s.producerChannel (epFine n)).isNone && w.getLsbD 1 then 2 else 0)
  | none =>
  match place (A.TC_CTRL 0) 0x20 256 a with
  | some n => if w.getLsbD 0 && decide (s.producerOf n = 0x3FF) then 1 else 0
  | none =>
  match place (A.PG_CTRL 0) 0x80 48 a with
  | some g => if w.getLsbD 1 && (s.producerChannel (epPeriod g)).isNone then 2 else 0
  | none =>
  match place (A.LD_CTRL 0) 0x100 8 a with
  | some n => if s.ldFault n && w.getLsbD 0 then 1 else 0
  | none =>
  match place (A.TW_CTRL 0) 0x400 4 a with
  | some p => if 2 ≤ p ∧ s.bridge = false ∧ w.getLsbD 0 = true then 1 else 0
  | none => 0

/-- A write changes nothing of the register at `a`: its fields are PT, RO, or RW ones that R28 fixes. -/
def State.fixedReg (s : State) (a : Nat) : Bool :=
  match regDefAt a with
  | none => false
  | some d => d.fields.all (fun f => decide (f.acc = .ro) || s.fixedField a f)

/-- Every Twiast port is DISABLED. -/
def State.portsDisabled (s : State) : Bool := (List.range 4).all (fun p => s.bit (A.TW_STATUS p) F.TW_STATUS_DISABLED)

/-- A write of `w` by `who` that is refused as a whole (R160, R174, R176, R241, R353, R374, R431, R462). A register that R28 fixes as a
whole is judged by R464 alone, but for a refusal of the one who writes. -/
def State.refusedWhole (s : State) (who : Requester) (a : Nat) (w : Word) : Bool :=
  if a = A.QUENCH_CTRL ∨ a = A.QUENCH_RELEASE then byUser who
  else if A.ASSAY_CTRL ≤ a then byUser who
  else if a = A.TW_NODE then !s.fixedReg a && !s.portsDisabled
  else if A.LOCK_CTRL 0 ≤ a ∧ a < A.LOCK_CTRL 8 then
    let p := (a - A.LOCK_CTRL 0) / 0x40
    (decide (a = A.LOCK_LIMP_PC p) && decide (s.fld (A.LOCK_STATUS p) F.LOCK_STATUS_CAUSE ≠ 0)) ||
      (decide (s.pairState p = 3) && (match byCore who with | some c => decide (c / 2 = p) | none => false))
  else if A.LD_CTRL 0 ≤ a ∧ a < A.LD_CTRL 8 then
    let n := (a - A.LD_CTRL 0) / 0x100
    !s.fixedReg a && decide (4 ≤ (a - A.LD_CTRL 0) % 0x100) && decide ((a - A.LD_CTRL 0) % 0x100 ≤ 0x10) && !s.ldDisabled n
  else if A.PG_CTRL 0 ≤ a ∧ a < A.PG_CTRL 48 then
    let g := (a - A.PG_CTRL 0) / 0x80
    !s.fixedReg a && (List.range 6).any (fun r => decide (a = aShadow g r) && s.lawTargets g r)
  else if A.SV_CTRL 0 ≤ a ∧ a < A.SV_CTRL 8 then
    let n := (a - A.SV_CTRL 0) / 0x400
    let x := (a - A.SV_CTRL 0) % 0x400
    !s.fixedReg a && (decide (x = 8) || (decide (0x100 ≤ x) && decide (x < 0x180))) && w.getLsbD 12 && (s.producerChannel (epSurvey n)).isNone
  else false

/-! ### The fields (R12, R16, R464) -/

/-- The value that the register at `a` holds for its RW and PT fields; a state word stands outside the registers (R220). -/
def State.heldAt (s : State) (a : Nat) : Word :=
  match stateWordAt a with
  | some (n, w, hi) => if hi then (s.lawWord n w >>> 32).setWidth 32 else (s.lawWord n w).setWidth 32
  | none => s.reg a

/-- A write of `w` leaves RW or PT field `f` as it is and is refused there: it carries another value for a field that is
fixed or guarded, or, where the field is not fixed, an encoding that is reserved. -/
def State.fieldRefused (s : State) (a : Nat) (guard w : Word) (f : FieldDef) : Bool :=
  let p : Fld := ⟨f.hi, f.lo⟩
  let differs := decide (fieldOf w p ≠ fieldOf (s.heldAt a) p)
  match f.acc with
  | .pt => differs
  | .rw =>
    if s.fixedField a f then differs
    else (differs && decide (guard &&& fieldMask p ≠ 0)) || decide (s.forbidden a w &&& fieldMask p ≠ 0) || !f.legal w
  | _ => false

/-- The word that takes effect: each refused field carries its present value. -/
def State.taken (s : State) (a : Nat) (d : RegDef) (guard w : Word) : Word :=
  d.fields.foldl (fun v f =>
    if s.fieldRefused a guard w f then putField v ⟨f.hi, f.lo⟩ (s.fld a ⟨f.hi, f.lo⟩) else v) w

/-- The register after the write: RW fields take their value, W1C bits clear and W1S bits set. -/
def State.storeFields (s : State) (a : Nat) (d : RegDef) (v : Word) : State :=
  let old := s.reg a
  s.setReg a ((old &&& ~~~(d.mask .rw) &&& ~~~(v &&& d.mask .w1c)) ||| (v &&& d.mask .rw) ||| (v &&& d.mask .w1s))

/-! ### What a write starts -/

/-- A bit of a word changes from its stored value: some true when it is set, some false when it is cleared. -/
def edge (old v : Word) (i : Nat) : Option Bool :=
  if old.getLsbD i = v.getLsbD i then none else some (v.getLsbD i)

/-- Bit `i` of CTRL starts or stops something: the stored bit follows from `on` and `off`. -/
def onEdge (old v : Word) (i : Nat) (on off : State → State) (s : State) : State :=
  match edge old v i with
  | some true => on s
  | some false => off s
  | none => s

/-- CTRL is stored but for the bits of `m`, which stay as they are. -/
def storeBut (m : Word) (a : Nat) (d : RegDef) (v : Word) (s : State) : State :=
  s.storeFields a d ((v &&& ~~~m) ||| (s.reg a &&& m))

/-- Writes of chapters 2 to 5. -/
def writeSupply (who : Requester) (a : Nat) (d : RegDef) (v : Word) (s : State) : State :=
  if a = A.RST_CTRL then resetCommand v s
  else if a = A.RST_WDOG then wdogWrite (v.getLsbD 31) (fieldOf v F.RST_WDOG_TIMEOUT) s
  else if a = A.RST_WDOG_KICK then (if fieldOf v F.RST_WDOG_KICK_KICK = 0x5A3C then wdogKick s else s)
  else if a = A.BOOT_CTRL then
    let s := if v.getLsbD 16 then outputRelease (byUser who) s else s
    coreStart (v.setWidth 16) s
  else if a = A.SUP_IO_FAULT then (if v.getLsbD 31 then ioFaultClear s else s)
  else s.storeFields a d v

/-- Writes of chapters 6 to 8. -/
def writeConverters (a : Nat) (d : RegDef) (v : Word) (s : State) : State :=
  let old := s.reg a
  if a = A.WC_RB_SEL then rbSelWrite v s
  else
  match place (A.MD_CTRL 0) 0x10 96 a with
  | some n => onEdge old v 0 id (modulatorStopped n) (s.storeFields a d v)
  | none =>
  match place (A.XB_CTRL 0) 0x10 64 a with
  | some n => onEdge old v 0 id (xbStopped n) (s.storeFields a d v)
  | none =>
  match place (A.DEC_CTRL 0) 0x80 160 a with
  | some n =>
    let s := storeBut 3 a d v s
    let s := onEdge old v 0 (pathStart n false) (pathDisable n false) s
    let s := onEdge old v 1 (pathStart n true) (pathDisable n true) s
    if v.getLsbD 2 then decSnap n s else s
  | none =>
  match place (A.WC_THR 0) 0x10 96 a with
  | some n => thresholdWrite n v s
  | none =>
  match place (A.SV_CTRL 0) 0x400 8 a with
  | some n =>
    let s := onEdge old v 0 (surveyEnable n) (surveyDisable n) (storeBut 1 a d v s)
    if v.getLsbD 3 then surveyStart n s else s
  | none =>
  match place (A.SV_URGENT 0) 0x400 8 a with
  | some n => if v.getLsbD 31 then urgentRequest n v s else s.storeFields a d v
  | none => s.storeFields a d v

/-- Writes of Quench. -/
def writeQuench (a : Nat) (d : RegDef) (v : Word) (s : State) : State :=
  if a = A.QUENCH_CTRL then swReq (v.getLsbD 0) s
  else if a = A.QUENCH_RELEASE then quenchRelease (v.setWidth 16) s
  else s.storeFields a d v

/-- Writes of the Runner and the Tundish; the push registers belong to cores alone (R198, R465). -/
def writeRunner (who : Requester) (a : Nat) (d : RegDef) (v : Word) (s : State) : State :=
  match place (A.TC_CTRL 0) 0x20 256 a with
  | some n => onEdge (s.reg a) v 0 (channelEnable n) (channelDisable n) (storeBut 1 a d v s)
  | none =>
    if a = A.RUN_AUDIT_CTRL then
      let s := s.storeFields a d v
      let s := if v.getLsbD 0 then auditSnap s else s
      if v.getLsbD 1 then hwmClear s else s
    else if A.RUN_PUSH_LO ≤ a then
      match byCore who with
      | none => s
      | some c =>
        let c := s.coreRecord c
        if a = A.RUN_PUSH_LO then pushLo c v s
        else if a = A.RUN_PUSH_STATUS then (if v.getLsbD 8 then s.setPush c { s.push c with refused := false } else s)
        else pushHi c ((a - A.RUN_PUSH_HI 0) / 4) v s
    else s.storeFields a d v

/-- A store to the STATE_w_HI at `a` by reader `r`: a half of the word that R28 fixes keeps its value, and the write is refused when it
carries another one for it. -/
def stateWordWrite (r a n w : Nat) (v : Word) (s : State) : State :=
  if s.fixedReg a || s.fixedReg (a - 4) then
    let x := s.lawWord n w
    let hi : Byte := if s.fixedReg a then (x >>> 32).setWidth 8 else v.setWidth 8
    let lo : Word := if s.fixedReg (a - 4) then x.setWidth 32 else (s.reader r).stateLo
    let t := s.setLawWord n w (hi ++ lo)
    if hi = v.setWidth 8 ∧ lo = (s.reader r).stateLo then t else t.refuse a
  else stateHiWrite r n w v s

/-- Writes of the law engines and the Law Table's registers; clearing LIMIT clears LIMIT_INFO (R219). -/
def writeLaw (who : Requester) (a : Nat) (d : RegDef) (v : Word) (s : State) : State :=
  match stateWordAt a with
  | some (n, w, hi) => if hi then stateWordWrite (s.readerOf who) a n w v s else stateLoWrite (s.readerOf who) v s
  | none =>
  match place (A.LE_CTRL 0) 0x4000 32 a with
  | some n => onEdge (s.reg a) v 0 (lawEnable n) (lawDisable n) (storeBut 1 a d v s)
  | none =>
  match place (A.LE_STATUS 0) 0x4000 32 a with
  | some n =>
    let s := s.storeFields a d v
    if v.getLsbD 3 then s.setReg (A.LE_LIMIT_INFO n) 0 else s
  | none => s.storeFields a d v

/-- Writes of the PWM groups. -/
def writePg (a : Nat) (d : RegDef) (v : Word) (s : State) : State :=
  match place (A.PG_CTRL 0) 0x80 48 a with
  | some g => onEdge (s.reg a) v 0 (pgEnable g) (pgDisable g) (storeBut 1 a d v s)
  | none =>
  match place (A.PG_ACC_CTRL 0) 0x80 48 a with
  | some g =>
    let s := s.storeFields a d v
    if v.getLsbD 0 then accSnap g s else s
  | none => s.storeFields a d v

/-- Software sources are set or cleared (R325). -/
def swiWrite (set : Bool) (k : Nat) (bits : Word) (s : State) : State :=
  let m : BitVec 128 := bits.setWidth 128 <<< (32 * k)
  { s with swi := if set then s.swi ||| m else s.swi &&& ~~~m }

/-- Writes of the software sources, the Ladle, the memories' registers and the pairs (R325, R351 to R354). -/
def writeSystem (who : Requester) (a : Nat) (d : RegDef) (v : Word) (s : State) : State :=
  if A.IC_SWI_SET 0 ≤ a ∧ a < A.IC_SWI_SET 0 + 0x20 then
    swiWrite (decide (a < A.IC_SWI_CLR 0)) ((a - A.IC_SWI_SET 0) / 4 % 4) v s
  else
  match place (A.LD_CTRL 0) 0x100 8 a with
  | some n =>
    let off := s.ldDisabled n
    let s := onEdge (s.reg a) v 0 (ladleEnable n) (ladleDisable n) (storeBut 1 a d v s)
    if v.getLsbD 1 then (if off then ladleReject n s else ladleGo (byCore who) n s) else s
  | none =>
  match place (A.LD_STATUS 0) 0x100 8 a with
  | some n =>
    let s := if v.getLsbD 3 then ladleFaultClear n s else s
    s.storeFields a d v
  | none => s.storeFields a d v

/-- Writes of the flash controller and the journal (R385, R402). -/
def writeFlash (who : Requester) (a : Nat) (d : RegDef) (v : Word) (s : State) : State :=
  if a = A.FLASH_CMD then flashCommand (byUser who) (fieldOf v F.FLASH_CMD_CODE) (fieldOf v F.FLASH_CMD_OFFSET) s
  else if a = A.FLASH_INTERRUPTED then (if v.getLsbD 31 then interruptedClear s else s)
  else if A.FLASH_PWD 0 ≤ a ∧ a ≤ A.FLASH_PWD 3 then s.setReg a v
  else s.storeFields a d v

/-- Writes of Twiast (R411, R418, R421, R427, R428, R431). -/
def writeTwiast (a : Nat) (d : RegDef) (v : Word) (s : State) : State :=
  if a = A.TW_SYS_CTRL then
    let s := s.storeFields a d v
    let s := if v.getLsbD 1 then heatForget s else s
    if v.getLsbD 0 then (if s.issueBlocked then s.refuse a else heatIssue s) else s
  else
  match place (A.TW_CTRL 0) 0x400 4 a with
  | some p => onEdge (s.reg a) v 0 (portEnable p) (portDisable p) (storeBut 1 a d v s)
  | none =>
  match place (A.TW_AUDIT_CTRL 0) 0x400 4 a with
  | some p => if v.getLsbD 0 then twAuditSnap p s else s
  | none =>
  match place (A.TW_DEAD_INFO 0) 0x400 4 a with
  | some p => if v.getLsbD 31 then deadClear p s else s
  | none => s.storeFields a d v

/-- Writes of the host ports, the sessions and Assay (R435, R436, R442, R462). -/
def writeHost (a : Nat) (d : RegDef) (v : Word) (s : State) : State :=
  if a = A.HOST_LINK then hostLinkWrite v s
  else if a = A.SESSION_REPLY_CTRL then
    let s := s.storeFields a d v
    if v.getLsbD 31 then replyGo s else s
  else
  match place (A.ASSAY_REQ 0) 4 3 a with
  | some k => assayRequest k v s
  | none =>
  match place (A.ASSAY_CANCEL 0) 4 3 a with
  | some k => assayCancel k v s
  | none =>
    let n := (a - A.ETH_MGMT_CTRL 0) / 0x1000
    if A.ETH_MGMT_CTRL 0 ≤ a ∧ a < A.SESSION_CTRL then
      match (a - A.ETH_MGMT_CTRL 0) % 0x1000 with
      | 0 => mgmtRegWrite n .ctrl v s
      | 4 => mgmtRegWrite n .ipv4 v s
      | 0x20 => mgmtRegWrite n .macLo v s
      | 0x24 => mgmtRegWrite n .macHi v s
      | x => mgmtRegWrite n (.ipv6 (BitVec.ofNat 2 (x / 4)).toFin) v s
    else s.storeFields a d v

/-- The effect of a write whose refused fields already carry their present values. -/
def writeEffect (who : Requester) (a : Nat) (d : RegDef) (v : Word) (s : State) : State :=
  if a < 0x80010000 then writeSupply who a d v s
  else if a < 0x80031000 then writeConverters a d v s
  else if a < 0x80038000 then writeQuench a d v s
  else if a < 0x80040000 then writeConverters a d v s
  else if a < 0x80050000 then writeRunner who a d v s
  else if a < 0x800E0000 then writeLaw who a d v s
  else if a < 0x80100000 then writePg a d v s
  else if a < 0x80140000 then writeSystem who a d v s
  else if a < 0x80150000 then writeFlash who a d v s
  else if a < 0x80160000 then writeTwiast a d v s
  else writeHost a d v s

/-- A write of a block register. An offset that no chapter lists ignores it (R15, R330). A flag that the write itself raises
stands, whatever the write clears (R13). -/
def writeReg (who : Requester) (a : Nat) (w : Word) (s : State) : State :=
  match regDefAt a with
  | none => s
  | some d =>
    if s.refusedWhole who a w then s.refuse a
    else
      let guard := s.guarded a w
      let refused := d.fields.any (s.fieldRefused a guard w)
      match stateWordAt a with
      | some (_, _, true) => writeLaw who a d w s
      | some (_, _, false) => if refused then s.refuse a else writeLaw who a d w s
      | none =>
        let s' := if s.fixedReg a then s else writeEffect who a d (s.taken a d guard w) s
        if refused then s'.refuse a else s'

/-- A write of the present value with one field replaced, as software that commands one thing makes it: the fields of the
register that commands or clear something carry 0. -/
def writeField (who : Requester) (a : Nat) (f : Fld) (v : Nat) (s : State) : State :=
  let base := match regDefAt a with
    | none => 0
    | some d => s.reg a &&& d.mask .rw ||| s.reg a &&& d.mask .pt
  writeReg who a (putField base f v) s

end Sys2Proof.Machine
end

