-- ==== Sys2Proof/Machine/CoreLoad.lean ====
section
/-! DEFINITION. 32-bit words at physical addresses as a requester reads and writes them, and the load and store instructions
of a core (R225, R274, R276, R277, R295 to R297, R329 to R332, R336). -/

namespace Sys2Proof.Machine

/-! ### Words at physical addresses (R329 to R332, R225) -/

/-- Address `a` is a register of a block, not the TCM window. -/
def isRegister (a : Nat) : Bool := decide (regionOf a = .device) && !inTcmWindow a

/-- Address `a` is the low word of a state word, or a word of a program slot, of a law engine (R220, R224). -/
def isLawStore (a : Nat) : Bool :=
  let x := (a - A.LE_CTRL 0) % 0x4000
  decide (A.LE_CTRL 0 ≤ a) && decide (a < A.LE_CTRL 32) &&
    (decide (0x2000 ≤ x) || (decide (0x800 ≤ x) && decide (x < 0x1000) && decide (x % 8 = 0)))

/-- Read the word at `a`: the word, whether it is good, and the state after the read. DESIGN CHOICE (log entry 91): the uncorrectable
error of a Law Table entry, a state word or a program slot is one of the word read. -/
def wordRead (who : Requester) (a : Nat) (ecc : WordEcc) (s : State) : (Word × Bool) × State :=
  if isRegister a then
    let e := if isLawStore a then lawStoreRead none ecc s else (true, s)
    let r := readReg who a e.2
    ((r.1, e.1), r.2)
  else if regionOf a = .lawTable then
    let r := s.readerOf who
    let i := (a - 0x20000000) / 8
    if a % 8 = 0 then
      let x := tableLoRead r i s
      let e := lawStoreRead (some i) ecc x.2
      ((x.1, e.1), e.2)
    else (((s.reader r).tableHi.setWidth 32, true), s)
  else
    let x := s.windowAddr a
    let r := s.eccRead x ecc
    ((BitVec.ofNat 32 (leNat (r.1.bytesAt x 4)), r.2), r.1)

/-- A write of one word at `a` meets an uncorrectable error in the word of memory that it changes a part of (R336, R352). -/
def State.spoilt (s : State) (a : Nat) : Bool :=
  let x := s.windowAddr a
  !isRegister a && decide (regionOf a ≠ .lawTable) && !s.blankAt x && (s.poisoned x || decide (s.upset x = .uncorrectable))

/-- Write the word at `a`. -/
def wordWrite (who : Requester) (a : Nat) (w : Word) (ecc : WordEcc) (s : State) : State :=
  if isRegister a then writeReg who a w s
  else if regionOf a = .lawTable then
    let r := s.readerOf who
    if a % 8 = 0 then tableLoWrite r w s else tableHiWrite r ((a - 0x20000000) / 8) w s
  else s.landWindow a (leBytes 4 w.toNat) ecc

/-! ### Addresses of a load or store (R296, R297) -/

/-- One half of an access. -/
def State.halfAt (s : State) (c va size : Nat) (write aligned : Bool) : Access' :=
  { va := va % 2 ^ 32, size := size, write := write, fetch := false, user := (s.core c).user, word := aligned && decide (size = 4) }

/-- A fault of the second half of an access, which records `prg`. -/
def second {α : Type} (prg : Cell) (t : Try α) : Try α :=
  match t with
  | .exc e s => .exc { e with half2 := true, prg := prg } s
  | r => r

/-- Where the bytes of an access lie: the physical address of each half. Both halves are translated and checked, but the region of
a store's second half is judged when that half is performed, unless it is the Law Table window, which takes no part of a split
access (R296, R297, R305). -/
def dataAccess (c va size : Nat) (write : Bool) (s : State) : Try (Nat × Nat) :=
  let h := halves va size
  let alignment : Exc :=
    { no := 5, detail := 0, addr := va, write := write, fetch := false, half2 := false, prg := 0 }
  if h.2 = 0 then (translate c (s.halfAt c va size write true) s).bind fun p s => .ok (p, 0) s
  else if size = 8 ∨ s.deviceAt c va = true ∨ s.deviceAt c ((va + h.1) % 2 ^ 32) = true then .exc alignment s
  else
    let b := s.halfAt c (va + h.1) size write false
    (translate c (s.halfAt c va size write false) s).bind fun p s =>
    (second 0 (mapAddr c b s)).bind fun q s =>
    if write ∧ s.regionCause b q ≠ 4 then .ok (p, q) s
    else (second 0 (regionCheck b q s)).bind fun q s => .ok (p, q) s

/-! ### Loads (R276, R277, R295) -/

/-- The cell that the loaded bytes make. -/
def LoadKind.value (k : LoadKind) (bs : List Byte) : Cell :=
  let n := leNat bs
  match k with
  | .ld => BitVec.ofInt 40 (signedOf 32 n)
  | .ldh => BitVec.ofInt 40 (signedOf 16 n)
  | .ldqh => BitVec.ofInt 40 (signedOf 16 n * 65536)
  | .ldb => BitVec.ofNat 40 n
  | .ldbs => BitVec.ofInt 40 (signedOf 8 n)
  | .ldx => BitVec.ofNat 40 n

/-- Where a load of core `c` reads physical address `p`. In the step of a checker (`chk`), its primary's TCMs stand in the window of the
checker: either window of the pair reads the primary's copy, and the data reaches the checker from there (R360, R361). -/
def State.loadAddr (s : State) (c p : Nat) (chk : Bool) : Nat :=
  if inTcmWindow p then
    (if chk && decide (windowCore (s.windowAddr p) = c) then s.windowAddr p + 0x40000 else s.windowAddr p)
  else p

/-- The data of a load of core `c` whose halves lie at `p`. -/
def loadBytes (c : Nat) (kind : LoadKind) (va : Nat) (p : Nat × Nat) (ecc : WordEcc) (chk : Bool) (s : State) : Try (List Byte) :=
  let h := halves va kind.size
  let a : Access' := { va := va, size := kind.size, write := false, fetch := false, user := (s.core c).user, word := false }
  if isRegister p.1 || decide (regionOf p.1 = .lawTable) then
    let r := wordRead (.core (BitVec.ofNat 4 c).toFin (s.core c).user) p.1 ecc (s.landStores c)
    if r.1.2 then .ok (leBytes 4 r.1.1.toNat) r.2 else .exc (a.fault 6 2) r.2
  else
    (readBytes c a (s.loadAddr c p.1 chk) h.1 ecc s).bind fun bs s =>
    if h.2 = 0 then .ok bs s
    else
      (second 0 (readBytes c { a with va := (va + h.1) % 2 ^ 32 } p.2 h.2 .none s)).bind fun bs' s => .ok (bs ++ bs') s

/-- The load has its data: its shadow begins (R276). -/
def beginShadow (c : Nat) (kind : LoadKind) (bs : List Byte) (s : State) : State :=
  let k := s.core c
  s.setCore c { k with shadow := some { stack := k.dataId, cell := (k.stack k.dataId).ptr.toNat, value := kind.value bs } }

/-- A load: at once from the core's own TCMs, and otherwise it waits for its data (R277). -/
def loadBody (c : Nat) (kind : LoadKind) (ecc : WordEcc) (s : State) : Try Flow :=
  let i := (s.core c).dataId
  (prepare c i (s.core c).user 1 1 s).bind fun _ s =>
  let va := (arg ((s.stack c i).args 1) 0).toNat % 2 ^ 32
  (dataAccess c va kind.size false s).bind fun p s =>
  if p.1 < 0x40000 ∧ p.2 < 0x40000 then
    (loadBytes c kind va p ecc false s).bind fun bs s => .ok .next (beginShadow c kind bs s)
  else .ok .stay (s.setCore c { s.core c with loadWait := some { kind := kind, va := va, bytes := [p.1, p.2] } })

/-- A load, whose ECC report is that of the primary's own TCM; `cmp` is what a fault makes of its comparison (R361, R364). -/
def load (c : Nat) (kind : LoadKind) (ecc : WordEcc) (cmp : CmpReport) (s : State) : State :=
  paired c (s.mayRun c 0) cmp (fun chk => coreRun c 1 0 (fun _ => loadBody c kind (if chk then .none else ecc))) s

/-- The bits of the register at `a` that each core of a locked pair samples for itself (R366). -/
def perCoreMask (a : Nat) : Word :=
  match regDefAt a with
  | none => 0
  | some d =>
    if d.base = A.IOMUX_CFG 0 then fieldMask F.IOMUX_CFG_IN
    else if d.base = A.WC_STATUS 0 then fieldMask F.WC_STATUS_ABOVE ||| fieldMask F.WC_STATUS_BELOW
    else if d.base = A.QUENCH_REQ 0 ∨ d.base = A.DEC_SWIFT_LAST 0 ∨ d.base = A.DEC_FINE_LAST 0 ∨ d.base = A.SV_RESULT 0 0 ∨
        d.base = A.SV_URGENT_RESULT 0 ∨ d.base = A.PG_ACTIVE 0 0 ∨ d.base = A.PG_STATUS 0 then definedMask a
    else 0

/-- A value that the field of a comparator's STATUS can take: ABOVE and BELOW are never 1 together (R145). -/
def possible (a : Nat) (w : Word) : Word :=
  match regDefAt a with
  | none => w
  | some d =>
    if d.base = A.WC_STATUS 0 ∧ fieldOf w F.WC_STATUS_ABOVE = 1 then w &&& ~~~fieldMask F.WC_STATUS_BELOW else w

/-- Load data of the register at `p` as a checker gets it: the primary's, but for the bits that the checker samples itself, 2 cc later
and through its own synchroniser, so that the value comes with the command (R366, R367; log entry 65). -/
def sampled (p : Nat) (sample : Option Word) (bs : List Byte) : List Byte :=
  match sample with
  | none => bs
  | some w =>
    let m := perCoreMask p
    if m = 0 then bs else leBytes 4 ((BitVec.ofNat 32 (leNat bs) &&& ~~~m) ||| (possible p w &&& m)).toNat

/-- The data of a waiting load arrives and the load completes; an uncorrectable error raises ACCESS. -/
def dataReturn (c : Nat) (ecc : WordEcc) (sample : Option Word) (chk : Bool) (s : State) : State :=
  let k := s.core c
  match k.loadWait with
  | none => s
  | some w =>
    if !s.coreOn c then s
    else
      let land := landCell c k.shadow
      let s1 := s.setCore c { k with shadow := none }
      let p := w.bytes.headD 0
      match loadBytes c w.kind w.va (p, (w.bytes.drop 1).headD 0) ecc chk s1 with
      | .wait => s
      | .exc e s2 => (takeException c e (land s2)).getD s
      | .ok bs s2 =>
        let s3 := beginShadow c w.kind (sampled p sample bs) s2
        land (s3.setCore c ((s3.core c).complete 1 .next))

/-- The data reaches the primary, and its checker through the delay registers, but for what `sample` says the checker samples
itself (R360, R366). -/
def loadDataReturn (c : Nat) (ecc : WordEcc) (sample : Option Word) (s : State) : State :=
  paired c (s.coreOn c && (s.core c).loadWait.isSome) noFault (fun chk => dataReturn c ecc (if chk then sample else none) chk) s

/-! ### Stores (R274, R295, R296) -/

/-- The store instructions of R295. -/
inductive StoreKind where
  | st | sth | stqh | stb | stx
deriving DecidableEq, Repr

def StoreKind.size : StoreKind → Nat
  | .st => 4
  | .stb => 1
  | .stx => 8
  | _ => 2

/-- The number that a store writes, before its low bits are taken, and whether SAT changed it (R274). -/
def StoreKind.stored (t : StoreKind) (k : Core) (v : Cell) : Int × Bool :=
  let clamp := fun (w : Nat) (x : Int) =>
    let y := if k.effective Psw.sat then clampInt (-(2 ^ (w - 1))) (2 ^ (w - 1) - 1) x else x
    (y, decide (y ≠ x))
  match t with
  | .st => clamp 32 v.toInt
  | .sth => clamp 16 v.toInt
  | .stqh => clamp 16 (roundShift k.rnd v.toInt 16)
  | _ => (v.toInt, false)

/-- The bytes that a store writes. -/
def StoreKind.bytes (t : StoreKind) (k : Core) (v : Cell) : List Byte :=
  leBytes t.size ((t.stored k v).1 % 2 ^ (8 * t.size)).toNat

/-- The access `a` writes bytes at physical address `p`, and marks its page as written: to the core's own TCM, or among its
accepted stores; those to a register, the TCM window or the Law Table are performed as the instruction completes. -/
def storeHalf (c : Nat) (a : Access') (p : Nat) (bs : List Byte) (s : State) : Try Unit :=
  writeStore c a p bs (setDirty c a.va s)

/-- The second half of a split store: a fault of it records STORE2 (R296). -/
def storeSecond (c : Nat) (a : Access') (p : Nat) (bs : List Byte) (s : State) : Try Unit :=
  second (prgOf 5 0 0) ((regionCheck a p s).bind fun p s => storeHalf c a p bs s)

/-- The KIND of PRG with which a store may resume: STB and STX are never split (R301). -/
def StoreKind.kind : StoreKind → Nat
  | .stb => 0
  | .stx => 0
  | _ => 5

/-- The instruction completes: its operands are popped, and SV is set if SAT changed the value (R274; R275 says that stores never
change SV: log entry 82). -/
def storeDone (c : Nat) (t : StoreKind) (v : Cell) (s : State) : State :=
  let k := s.core c
  let k := if (t.stored k v).2 then k.setPsw Psw.sv true else k
  s.setCore c (k.setStack k.dataId ((k.stack k.dataId).drop 2))

/-- A store with progress `p`: 0, or STORE2, when only the second half remains. `pause` stops it between its halves. -/
def storeBody (c : Nat) (t : StoreKind) (pause : Bool) (p : Cell) (s : State) : Try Flow :=
  let i := (s.core c).dataId
  (prepare c i (s.core c).user 2 0 s).bind fun _ s =>
  let l := (s.stack c i).args 2
  let va := (arg l 0).toNat % 2 ^ 32
  let v := arg l 1
  let h := halves va t.size
  let bs := t.bytes (s.core c) v
  let b := s.halfAt c (va + h.1) t.size true false
  let finish := fun (s : State) => Try.ok Flow.next (storeDone c t v s)
  if p ≠ 0 then
    if p ≠ prgOf 5 0 0 ∨ h.2 = 0 ∨ t.size = 8 ∨ s.deviceAt c va = true ∨ s.deviceAt c ((va + h.1) % 2 ^ 32) = true then
      .exc (mismatchExc p) s
    else
      (second (prgOf 5 0 0) (mapAddr c b s)).bind fun q s =>
      (storeSecond c b q (bs.drop h.1) s).bind fun _ s => finish s
  else
    let a := s.halfAt c va t.size true (decide (h.2 = 0))
    (dataAccess c va t.size true s).bind fun q s =>
    (storeHalf c a q.1 (bs.take h.1) s).bind fun _ s =>
    if h.2 = 0 then finish s
    else if pause then .ok .stay (s.setCore c { s.core c with job := some (prgOf 5 0 0) })
    else (storeSecond c b q.2 (bs.drop h.1) s).bind fun _ s => finish s

/-- A store among those accepted is to a register, the TCM window or the Law Table. -/
def Store.toDevice (t : Store) : Bool := decide (regionOf t.addr = .device) || decide (regionOf t.addr = .lawTable)

/-- Such a store is performed at once, and leaves the accepted stores (R332). -/
def performDevice (c : Nat) (s : State) : State :=
  let k := s.core c
  match k.stores.find? Store.toDevice with
  | none => s
  | some t =>
    wordWrite (.core (BitVec.ofNat 4 c).toFin k.user) t.addr (BitVec.ofNat 32 (leNat t.bytes)) .none
      (s.setCore c { k with stores := k.stores.filter (fun t => !t.toDevice) })

def store (c : Nat) (t : StoreKind) (pause : Bool) (cmp : CmpReport) (s : State) : State :=
  if s.mayRun c t.kind then performDevice c (paired c true cmp (fun _ => coreRun c 1 t.kind (storeBody c t pause)) s) else s

/-- The oldest accepted store of core `c` lands in memory (R336). -/
def storeLand (c : Nat) (ecc : WordEcc) (s : State) : State :=
  match (s.core c).stores with
  | [] => s
  | t :: rest =>
    if s.alive && !s.memoryWaits t.addr then
      (s.setCore c { s.core c with stores := rest }).landBytes t.addr t.bytes ecc
    else s

/-! ### The commands -/

def execLd (c : Fin 16) (ecc : WordEcc) (cmp : Option CmpReport) (s : State) : Host.Outcome State Fault Refusal :=
  .next (load c .ld ecc (cmp.getD noFault) s)
def execLdh (c : Fin 16) (ecc : WordEcc) (s : State) : Host.Outcome State Fault Refusal := .next (load c .ldh ecc noFault s)
def execLdqh (c : Fin 16) (ecc : WordEcc) (s : State) : Host.Outcome State Fault Refusal := .next (load c .ldqh ecc noFault s)
def execLdb (c : Fin 16) (ecc : WordEcc) (s : State) : Host.Outcome State Fault Refusal := .next (load c .ldb ecc noFault s)
def execLdbs (c : Fin 16) (ecc : WordEcc) (s : State) : Host.Outcome State Fault Refusal := .next (load c .ldbs ecc noFault s)
def execLdx (c : Fin 16) (ecc : WordEcc) (s : State) : Host.Outcome State Fault Refusal := .next (load c .ldx ecc noFault s)
def execSt (c : Fin 16) (pause : Bool) (cmp : Option CmpReport) (s : State) : Host.Outcome State Fault Refusal :=
  .next (store c .st pause (cmp.getD noFault) s)
def execSth (c : Fin 16) (pause : Bool) (s : State) : Host.Outcome State Fault Refusal := .next (store c .sth pause noFault s)
def execStqh (c : Fin 16) (pause : Bool) (s : State) : Host.Outcome State Fault Refusal := .next (store c .stqh pause noFault s)
def execStb (c : Fin 16) (s : State) : Host.Outcome State Fault Refusal := .next (store c .stb false noFault s)
def execStx (c : Fin 16) (s : State) : Host.Outcome State Fault Refusal := .next (store c .stx false noFault s)
def execLoadDataReturn (c : Fin 16) (report : LoadReport) (s : State) : Host.Outcome State Fault Refusal :=
  .next (loadDataReturn c report.ecc report.sample s)
def execStoreLand (c : Fin 16) (ecc : WordEcc) (s : State) : Host.Outcome State Fault Refusal := .next (storeLand c ecc s)

end Sys2Proof.Machine
end

