-- ==== Sys2Proof/Machine/Manage.lean ====
section
/-! DEFINITION. The accesses that come from outside the cores: Ladle units, management READ, WRITE, STATUS and RESET, the
debug port, the scrubber, and the levels of the multiplexed balls (R335, R337, R351, R352, R375, R440, R441, R448, R465). -/

namespace Sys2Proof.Machine

/-! ### Ladle units (R351, R352) -/

/-- A COPY moves its next word: the source is read before the destination is checked; a destination word that is uncorrectable stops
the engine too. -/
def copyUnit (n : Fin 8) (ecc : WordEcc) (s : State) : State :=
  let src := s.ldSrc n + 4 * (s.ladle n).units
  let dst := s.ldDst n + 4 * (s.ladle n).units
  if s.ladleCause 0 src false ≠ 0 then ladleFail n (s.ladleCause 0 src false) src s
  else if s.memoryWaits src || s.memoryWaits dst then s
  else
    let r := wordRead (.ladle n) src ecc s
    if !r.1.2 then ladleFail n 2 src r.2
    else if r.2.ladleCause 0 dst true ≠ 0 then ladleFail n (r.2.ladleCause 0 dst true) dst r.2
    else
      let t := wordWrite (.ladle n) dst r.1.1 .none r.2
      if r.2.spoilt dst then ladleFail n 2 dst t else ladleUnitEnd n t

/-- A SINK writes the payload it has accepted into its ring. -/
def sinkUnit (n : Nat) (s : State) : State :=
  match (s.ladle n).payload with
  | none => s
  | some p =>
    let a := s.ldDst n + 8 * s.ldWr n
    if s.ladleCause 1 a true ≠ 0 then ladleFail n (s.ladleCause 1 a true) a s
    else if s.memoryWaits a then s
    else ladleUnitEnd n (s.landBytes a (leBytes 8 p.toNat) .none)

/-- A SOURCE reads its next payload, and offers it to its channel. -/
def sourceUnit (n : Nat) (ecc : WordEcc) (s : State) : State :=
  match (s.ladle n).payload with
  | some _ => issueLadle n s
  | none =>
    let a := s.ldSrc n + 8 * (s.ladle n).units
    if s.ladleCause 2 a false ≠ 0 then ladleFail n (s.ladleCause 2 a false) a s
    else if s.memoryWaits a then s
    else
      let r := s.eccRead a ecc
      if r.2 then issueLadle n (r.1.setLadle n { r.1.ladle n with payload := some (BitVec.ofNat 64 (leNat (r.1.bytesAt a 8))) })
      else ladleFail n 2 a r.1

/-- A running engine does its next unit. -/
def ladleUnit (n : Fin 8) (ecc : WordEcc) (s : State) : State :=
  if s.ldRuns n 0 then s.latching (copyUnit n ecc)
  else if s.ldRuns n 1 then sinkUnit n s
  else if s.ldRuns n 2 then sourceUnit n ecc s
  else s

/-! ### Management READ and WRITE (R441, R465) -/

/-- The cause with which a management access at `a` is refused, or 0. -/
def State.mgmtCause (s : State) (a : Nat) (write : Bool) : Nat :=
  if a < 0x40000 ∨ (0x80049000 ≤ a ∧ a < 0x80049020) then 1
  else
    match regionOf a with
    | .hole => 1
    | .device => if inSpan a then 0 else 1
    | .flash => if write then 1 else if s.flashRefused a then 3 else 0
    | _ => 0

/-- The result of the accesses made so far: the words read, newest first, how many were done, and the cause that stopped
them, or 0. -/
structure MgmtRun where
  words : List Word
  done : Nat
  cause : Nat
deriving DecidableEq, Repr

/-- READ of `k` words from `a`, of which the ECC reports as `ecc` says; none while a memory on the way does not answer. -/
def mgmtReads (p : Fin 5) : Nat → List WordEcc → Nat → MgmtRun → State → Option (MgmtRun × State)
  | 0, _, _, m, s => some (m, s)
  | k + 1, ecc, a, m, s =>
    if s.mgmtCause a false ≠ 0 then some ({ m with cause := s.mgmtCause a false }, s)
    else if s.memoryWaits a then none
    else
      let r := wordRead (.port p) a (ecc.head?.getD .none) s
      if r.1.2 then mgmtReads p k ecc.tail (a + 4) { m with words := r.1.1 :: m.words, done := m.done + 1 } r.2
      else some ({ m with cause := 2 }, r.2)

/-- WRITE of words from `a` upward. -/
def mgmtWrites (p : Fin 5) : List Word → Nat → MgmtRun → State → Option (MgmtRun × State)
  | [], _, m, s => some (m, s)
  | w :: ws, a, m, s =>
    if s.mgmtCause a true ≠ 0 then some ({ m with cause := s.mgmtCause a true }, s)
    else if s.memoryWaits a then none
    else mgmtWrites p ws (a + 4) { m with done := m.done + 1 } (wordWrite (.port p) a w .none s)

/-- The bytes of the words read, oldest first. -/
def MgmtRun.data (m : MgmtRun) : List Byte := (m.words.reverse.map (fun w => leBytes 4 w.toNat)).flatten

/-- The payload of a response with RESULT ACCESS: the cause, the words done, and the words read (log entry 60). -/
def MgmtRun.faulted (m : MgmtRun) : List Byte := leBytes 4 m.cause ++ leBytes 4 m.done ++ m.data

/-- Run the accesses of a READ or WRITE and answer it; while a memory on the way does not answer, the request is served no further, and
it is the next one. -/
def mgmtAnswer (p : Fin 5) (code : Nat) (req : MgmtReq) (run : Nat → MgmtRun → State → Option (MgmtRun × State)) (s : State) :
    State :=
  let a := leNat (req.payload.take 8)
  let m : MgmtRun := { words := [], done := 0, cause := 0 }
  let r := if a % 4 ≠ 0 then some ({ m with cause := 4 }, s) else run a m s.stillHigh
  match r with
  | none => s.setHost { s.host with
      waiting := mapInsert s.host.waiting p ((BitVec.ofNat 8 code, req) :: s.waitingAt p), lastPort := (p + 4) % 5 }
  | some (m, s) =>
    let s := s.stillHigh
    if m.cause = 0 then respond p code req Result.ok m.data s else respond p code req Result.access m.faulted s

/-- COUNT of a READ. -/
def readCount (req : MgmtReq) : Nat := leNat ((req.payload.drop 8).take 4)

def readNow (p : Fin 5) (req : MgmtReq) (s : State) : State :=
  serveNow p 4 req (decide (req.payload.length = 12) && decide (1 ≤ readCount req) && decide (readCount req ≤ 64))
    (mgmtAnswer p 4 req (mgmtReads p (readCount req) req.ecc)) s

def writeRequestNow (p : Fin 5) (req : MgmtReq) (s : State) : State :=
  let n := req.payload.length
  serveNow p 5 req (decide (n % 4 = 0) && decide (12 ≤ n) && decide (n ≤ 264))
    (mgmtAnswer p 5 req (fun a m s => mgmtWrites p ((List.range (n / 4 - 2)).map (fun k => wordOf req.payload (k + 2))) a m s)) s

/-- The words of STATUS (R440). -/
def State.statusWords (s : State) : List Word :=
  [A.BOOT_STATUS, A.RST_CAUSE, A.PAT_STATUS, A.PAT_LEVEL, A.QUENCH_STATUS, A.SUP_STATUS, A.PM_POWER, A.FLASH_STATUS].map
    (fun a => s.shown 0 a)

def statusNow (p : Fin 5) (req : MgmtReq) (s : State) : State :=
  serveNow p 3 req (decide (req.payload = []))
    (fun s => respond p 3 req Result.ok ((s.statusWords.map (fun w => leBytes 4 w.toNat)).flatten) s) s

/-- RESET: the response goes out, then the full reset starts. -/
def resetNow (p : Fin 5) (req : MgmtReq) (s : State) : State :=
  serveNow p 6 req (decide (req.payload = [])) (fun s => fullReset 6 (respond p 6 req Result.ok [] s)) s

def mgmtRead (p : Fin 5) (req : MgmtReq) (s : State) : State := arrive p 4 req (readNow p req) s
def mgmtWrite (p : Fin 5) (req : MgmtReq) (s : State) : State := arrive p 5 req (writeRequestNow p req) s
def mgmtStatus (p : Fin 5) (req : MgmtReq) (s : State) : State := arrive p 3 req (statusNow p req) s
def mgmtReset (p : Fin 5) (req : MgmtReq) (s : State) : State := arrive p 6 req (resetNow p req) s

/-- The request with CODE `code` is served. -/
def mgmtServe (p : Fin 5) (code : Byte) (req : MgmtReq) (s : State) : State :=
  match code.toNat with
  | 1 => openNow p req s
  | 2 => closeNow p req s
  | 3 => statusNow p req s
  | 4 => readNow p req s
  | 5 => writeRequestNow p req s
  | 6 => resetNow p req s
  | 7 => setKeyNow p req s
  | 8 => forwardNow p req s
  | c => badCodeNow p c req s

/-- The port that the engine serves next: the first with a waiting request, in round-robin order after the last one (R443). -/
def State.nextPort (s : State) : Option (Fin 5) :=
  ((List.range 5).map (fun k => Fin.ofNat 5 (s.host.lastPort + 1 + k))).find? (fun p => decide (s.waitingAt p ≠ []))

/-- The waiting requests, `k` of them at most, are served in turn, until one is not answered at once (R443, R444). -/
def serveQueued : Nat → State → State
  | 0, s => s
  | k + 1, s =>
    if s.host.keyReply.isSome then s
    else
      match s.nextPort with
      | none => s
      | some p =>
        match s.waitingAt p with
        | [] => s
        | q :: rest =>
          let t := s.setHost { s.host with waiting := mapInsert s.host.waiting p rest }
          let t := if s.portUp p then mgmtServe p q.1 q.2 (takeRequest p t) else t
          if t.waitingAt p = q :: rest then t else serveQueued k t

/-- The engine goes on to the requests that wait, after an event that may let it: the end of a flash command, which answers the SET_KEY
that it served, of the fill of a memory, or of the test of an SRAM bank (R337, R383, R444, R451). -/
def engineGoesOn (s : State) : State :=
  serveQueued ((s.host.waiting.map (fun p => p.2.length)).sum) (keyReplyEnd s)

/-! ### The debug port (R375, R448) -/

/-- The debug port may act: its session is open. -/
def State.debugOpen (s : State) : Bool := s.hostOn && s.sessionOpen 4

/-- What the debug port does to core `c`: a locked pair is one core to it, so that both of its cores take it at the same boundary
(R375). -/
def debugBoth (c : Nat) (f : Core → Core) (s : State) : State :=
  let r := s.coreRecord c
  let s := s.setCore r (f (s.core r))
  if s.lockedMode (r / 2) then s.setCore (r + 1) (f (s.core (r + 1))).asChecker else s

/-- Core `c` is halted at its next instruction boundary: an instruction in progress ends first. -/
def debugHalt (c : Nat) (s : State) : State :=
  if s.debugOpen then
    debugBoth c (fun k => { k with debugHalt := true, debugStep := k.job.isSome || k.loadWait.isSome }) s
  else s

/-- A halted core executes one instruction. -/
def debugStep (c : Nat) (s : State) : State :=
  if s.debugOpen && (s.core (s.coreRecord c)).debugHalt then debugBoth c (fun k => { k with debugStep := true }) s else s

/-- A halted core runs on. -/
def debugResume (c : Nat) (s : State) : State :=
  if s.debugOpen then s.latching (debugBoth c (fun k => { k with debugHalt := false, debugStep := false })) else s

/-- A core with a register written from outside. -/
def Core.debugWrite (k : Core) (reg : DebugReg) (v : Cell) : Core :=
  match reg with
  | .control n => if crAssigned n.toNat then k.writeCr n.toNat v else k
  | .pc => { k with pc := v.setWidth 32 }
  | .frame r => k.setFrame r v

/-- A register of a core that stands at its halt boundary is written. -/
def debugRegisterWrite (c : Nat) (reg : DebugReg) (v : Cell) (s : State) : State :=
  let k := s.core (s.coreRecord c)
  if s.debugOpen && k.debugHalt && !k.debugStep then debugBoth c (fun k => k.debugWrite reg v) s else s

/-! ### Memories and balls (R64, R335, R337) -/

/-- The scrubber reads the aligned 8-byte word at `a` of the shared SRAM or the DRAM. -/
def scrubWord (a : Nat) (ecc : WordEcc) (s : State) : State :=
  if s.runnerOn && (decide (regionOf a = .sram) || decide (regionOf a = .dram)) && !s.memoryWaits a then
    (s.eccRead (a / 8 * 8) ecc).1
  else s

/-- The scrubber's command: it reads a word, or the sender tells of an error that has struck a word of a powered memory
(R335; log entry 104). -/
def scrub (a : Nat) (report : ScrubReport) (s : State) : State :=
  match report with
  | .none => scrubWord a .none s
  | .corrected => scrubWord a .corrected s
  | .uncorrectable => scrubWord a .uncorrectable s
  | .struck e => if s.powered then s.strike a e else s

/-- The zero fill of a memory completes. -/
def memoryFillDone (dram : Bool) (s : State) : State :=
  if s.supply.phase = .good ∧ s.supply.power ≠ .dormant then
    engineGoesOn (s.setBit A.MEM_STATUS (if dram then F.MEM_STATUS_DRAM_READY else F.MEM_STATUS_SRAM_READY))
  else s

/-- The level at a multiplexed ball changes, and with it what the sources show since the clocks stopped (R64, R324). -/
def gpioLevelChange (n : Nat) (change : BallChange) (s : State) : State :=
  s.latching (fun s =>
    let s := gpioLevel n change.high change.events s
    match change.received with
    | none => s
    | some w => receiveAt n w s)

/-! ### Commands that are writes or reads of a register (R464) -/

/-- A requester that may write now writes the register at `a`. -/
def commandWrite (who : Requester) (a : Nat) (w : Word) (s : State) : State :=
  if s.mayWrite who then writeReg who a w s else s

/-- The same for one field of the register. -/
def commandField (who : Requester) (a : Nat) (f : Fld) (v : Nat) (s : State) : State :=
  if s.mayWrite who then writeField who a f v s else s

/-- A write by software whose requester makes no difference: a core in supervisor mode stands for it. -/
def softwareWrite (a : Nat) (w : Word) (s : State) : State := if s.runnerOn then writeReg (.core 0 false) a w s else s
def softwareField (a : Nat) (f : Fld) (v : Nat) (s : State) : State :=
  if s.runnerOn then writeField (.core 0 false) a f v s else s

/-- Core `c` writes a register of its own, at its present privilege. -/
def coreWrite (c : Fin 16) (a : Nat) (w : Word) (s : State) : State := commandWrite (.core c (s.core c).user) a w s

/-- A requester that may read now reads the register at `a`; the word stands in the model's own record. -/
def commandRead (who : Requester) (a : Nat) (s : State) : State :=
  if s.mayWrite who then
    let r := readReg who a s
    r.2.setHost { r.2.host with readData := r.1 }
  else s

end Sys2Proof.Machine
end

