-- ==== Sys2Proof/Machine/ExecConverters.lean ====
section
/-! DEFINITION. The commands of the converters, the window comparators, Quench and the PWM outputs' safe states
(R115 to R180, R467). -/

namespace Sys2Proof.Machine

/-! ### Modulators, bitstream inputs and decimators (R115 to R143) -/

def execModulatorRunning (n : Fin 96) (s : State) : Host.Outcome State Fault Refusal := .next (modulatorRunning n s)
def execOverload (n : Fin 96) (s : State) : Host.Outcome State Fault Refusal := .next (overload n s)
def execStuck (arrival : InputCells) (s : State) : Host.Outcome State Fault Refusal :=
  .next (stuck arrival.input arrival.cells s)
def execXbRunning (n : Fin 64) (s : State) : Host.Outcome State Fault Refusal := .next (xbRunning n s)
def execSwiftResult (n : Fin 160) (cells later : List StreamCell) (s : State) : Host.Outcome State Fault Refusal :=
  .next (pathResult n false (cells ++ later) s)
def execFineResult (n : Fin 160) (cells later : List StreamCell) (s : State) : Host.Outcome State Fault Refusal :=
  .next (pathResult n true (cells ++ later) s)
def execPathStart (n : Fin 160) (fine : Bool) (s : State) : Host.Outcome State Fault Refusal :=
  .next (softwareField (A.DEC_CTRL n) (fEnable fine) 1 s)
def execPathDisable (n : Fin 160) (fine : Bool) (s : State) : Host.Outcome State Fault Refusal :=
  .next (softwareField (A.DEC_CTRL n) (fEnable fine) 0 s)
def execPathDisabled (n : Fin 160) (fine : Bool) (s : State) : Host.Outcome State Fault Refusal :=
  .next (pathDisabled n fine s)
def execDecSnap (n : Fin 160) (s : State) : Host.Outcome State Fault Refusal :=
  .next (softwareField (A.DEC_CTRL n) F.DEC_CTRL_SNAP 1 s)

/-! ### Window comparators (R144 to R152) -/

def execComparatorCrossing (n : Fin 96) (above : Bool) (below : Bool) (s : State) : Host.Outcome State Fault Refusal :=
  .next (comparatorCrossing n above below s)
def execComparatorReady (n : Fin 96) (s : State) : Host.Outcome State Fault Refusal := .next (comparatorReady n s)
def execThresholdWrite (n : Fin 96) (value : Word) (s : State) : Host.Outcome State Fault Refusal :=
  .next (softwareWrite (A.WC_THR n) value s)
def execRbSelWrite (value : Word) (s : State) : Host.Outcome State Fault Refusal := .next (softwareWrite A.WC_RB_SEL value s)
def execRbSettled (s : State) : Host.Outcome State Fault Refusal := .next (rbSettled s)

/-! ### Quench and the outputs (R153 to R166, R467) -/

def execQuenchRequest (i : Fin 160) (s : State) : Host.Outcome State Fault Refusal := .next (quenchRequest i s)
def execSafeHighDeadTime (o : Fin 192) (s : State) : Host.Outcome State Fault Refusal := .next (safeHighDeadTime o s)
def execSafeHighForceDelay (o : Fin 192) (s : State) : Host.Outcome State Fault Refusal := .next (safeHighForceDelay o s)
def execForceHoldExpiry (o : Fin 192) (s : State) : Host.Outcome State Fault Refusal := .next (forceHoldExpiry o s)
def execGroupSelfClear (g : Fin 16) (s : State) : Host.Outcome State Fault Refusal := .next (groupSelfClear g s)
def execQuenchRelease (who : Requester) (groups : BitVec 16) (s : State) : Host.Outcome State Fault Refusal :=
  .next (commandWrite who A.QUENCH_RELEASE (groups.setWidth 32) s)
def execSwReq (who : Requester) (raise : Bool) (s : State) : Host.Outcome State Fault Refusal :=
  .next (commandField who A.QUENCH_CTRL F.QUENCH_CTRL_SW_REQ (bit01 raise) s)

/-! ### Survey converters (R167 to R180) -/

def execSurveyStart (n : Fin 8) (s : State) : Host.Outcome State Fault Refusal :=
  .next (softwareField (A.SV_CTRL n) F.SV_CTRL_START 1 s)
def execSurveyTrigger (n : Fin 8) (s : State) : Host.Outcome State Fault Refusal := .next (surveyTrigger n s)
def execConverterStartupDone (n : Fin 8) (s : State) : Host.Outcome State Fault Refusal := .next (converterStartupDone n s)
def execConversionEnd (n : Fin 8) (raw : BitVec 24) (s : State) : Host.Outcome State Fault Refusal :=
  .next (conversionEnd n raw s)
def execUrgent (n : Fin 8) (value : Word) (s : State) : Host.Outcome State Fault Refusal :=
  .next (softwareWrite (A.SV_URGENT n) (value ||| 0x80000000) s)
def execSurveyDisable (n : Fin 8) (s : State) : Host.Outcome State Fault Refusal :=
  .next (softwareField (A.SV_CTRL n) F.SV_CTRL_EN 0 s)
def execSurveyDisabled (n : Fin 8) (s : State) : Host.Outcome State Fault Refusal := .next (surveyDisabled n s)

end Sys2Proof.Machine
end

