-- ==== Sys2Proof/Machine/ExecFlash.lean ====
section
/-! DEFINITION. The commands of the flash controller (R385 to R402). -/

namespace Sys2Proof.Machine

/-- FLASH.CMD is written with a code and an offset. -/
def flashWrite (who : Requester) (code offset : Nat) (s : State) : State :=
  commandWrite who A.FLASH_CMD (fieldBits F.FLASH_CMD_CODE code ||| fieldBits F.FLASH_CMD_OFFSET offset) s

/-! ### Commands (R386) -/

def execFlashProgram (who : Requester) (offset : BitVec 26) (s : State) : Host.Outcome State Fault Refusal :=
  .next (flashWrite who 1 offset.toNat s)
def execFlashErase (who : Requester) (offset : BitVec 26) (s : State) : Host.Outcome State Fault Refusal :=
  .next (flashWrite who 2 offset.toNat s)
def execFlashSuspend (who : Requester) (s : State) : Host.Outcome State Fault Refusal := .next (flashWrite who 3 0 s)
def execFlashResume (who : Requester) (s : State) : Host.Outcome State Fault Refusal := .next (flashWrite who 4 0 s)
def execFlashSwap (who : Requester) (s : State) : Host.Outcome State Fault Refusal := .next (flashWrite who 5 0 s)
def execFlashUnlock (who : Requester) (s : State) : Host.Outcome State Fault Refusal := .next (flashWrite who 6 0 s)
def execFlashLock (who : Requester) (s : State) : Host.Outcome State Fault Refusal := .next (flashWrite who 7 0 s)
def execFlashSetPwd (who : Requester) (s : State) : Host.Outcome State Fault Refusal := .next (flashWrite who 8 0 s)
def execFlashSetProt (who : Requester) (s : State) : Host.Outcome State Fault Refusal := .next (flashWrite who 9 0 s)

/-! ### Their ends, and the journal's record (R385, R392, R402) -/

def execCommandEnd (report : FlashReport) (s : State) : Host.Outcome State Fault Refusal :=
  .next (engineGoesOn (commandEnd report.verified report.erased s))
def execFlashLockoutExpiry (s : State) : Host.Outcome State Fault Refusal := .next (flashLockoutExpiry s)
def execInterruptedClear (s : State) : Host.Outcome State Fault Refusal :=
  .next (softwareField A.FLASH_INTERRUPTED F.FLASH_INTERRUPTED_VALID 1 s)

end Sys2Proof.Machine
end

