-- ==== Sys2Proof/Machine/ExecHost.lean ====
section
/-! DEFINITION. The commands of the host ports, the management sessions, the test access port and Assay
(R432 to R462). -/

namespace Sys2Proof.Machine

/-- HOST.LINK is written with a further bit set. -/
def linkWrite (who : Requester) (bits : Nat) (s : State) : State :=
  commandWrite who A.HOST_LINK (s.reg A.HOST_LINK ||| BitVec.ofNat 32 bits) s

/-! ### Management requests (R438 to R448) -/

def execMgmtOpen (port : Fin 5) (req : MgmtReq) (s : State) : Host.Outcome State Fault Refusal := .next (mgmtOpen port req s)
def execMgmtClose (port : Fin 5) (req : MgmtReq) (s : State) : Host.Outcome State Fault Refusal :=
  .next (mgmtClose port req s)
def execMgmtStatus (port : Fin 5) (req : MgmtReq) (s : State) : Host.Outcome State Fault Refusal :=
  .next (mgmtStatus port req s)
def execMgmtRead (port : Fin 5) (req : MgmtReq) (s : State) : Host.Outcome State Fault Refusal := .next (mgmtRead port req s)
def execMgmtWrite (port : Fin 5) (req : MgmtReq) (s : State) : Host.Outcome State Fault Refusal :=
  .next (mgmtWrite port req s)
def execMgmtReset (port : Fin 5) (req : MgmtReq) (s : State) : Host.Outcome State Fault Refusal :=
  .next (mgmtReset port req s)
def execMgmtSetKey (port : Fin 5) (req : MgmtReq) (s : State) : Host.Outcome State Fault Refusal :=
  .next (mgmtSetKey port req s)
def execMgmtForward (port : Fin 5) (req : MgmtReq) (s : State) : Host.Outcome State Fault Refusal :=
  .next (mgmtForward port req s)
def execMgmtBadCode (port : Fin 5) (code : Byte) (req : MgmtReq) (s : State) : Host.Outcome State Fault Refusal :=
  .next (mgmtBadCode port code.toNat req s)
def execReplyGo (who : Requester) (len : BitVec 9) (s : State) : Host.Outcome State Fault Refusal :=
  .next (commandWrite who A.SESSION_REPLY_CTRL (0x80000000 ||| len.setWidth 32) s)
def execNoHandler (s : State) : Host.Outcome State Fault Refusal := .next (noHandler s)
def execSessionTimeout (port : Fin 5) (s : State) : Host.Outcome State Fault Refusal := .next (sessionTimeout port s)
def execSessionLockoutExpiry (port : Fin 5) (s : State) : Host.Outcome State Fault Refusal :=
  .next (sessionLockoutExpiry port s)

/-! ### Links (R434 to R438) -/

def execEthUp (who : Requester) (n : Fin 2) (s : State) : Host.Outcome State Fault Refusal :=
  .next (linkWrite who (2 ^ (n.val + 1)) s)
def execPcieUp (who : Requester) (s : State) : Host.Outcome State Fault Refusal := .next (linkWrite who 1 s)
def execHostLinkUp (link : LinkRise) (s : State) : Host.Outcome State Fault Refusal := .next (hostLinkUp link.link link.complete s)
def execHostLinkLoss (loss : LinkLoss) (s : State) : Host.Outcome State Fault Refusal :=
  .next (hostLinkLoss loss.link loss.reference s)
def execMgmtAddressWrite (who : Requester) (n : Fin 2) (reg : MgmtReg) (value : Word) (s : State) : Host.Outcome State Fault Refusal :=
  .next (commandWrite who (mgmtRegAddr n reg) value s)
def execArp (n : Fin 2) (query : AddressQuery) (s : State) : Host.Outcome State Fault Refusal :=
  .next (addressQuery n query s)
def execPpsRise (n : Fin 2) (s : State) : Host.Outcome State Fault Refusal := .next (ppsRise n s)
def execPpsFall (n : Fin 2) (s : State) : Host.Outcome State Fault Refusal := .next (ppsFall n s)

/-! ### Test access port (R432, R433) -/

def execTapBypass (s : State) : Host.Outcome State Fault Refusal := .next (tapTake .bypass s)
def execTapIdcode (s : State) : Host.Outcome State Fault Refusal := .next (tapIdcode s)
def execTapSamplePreload (balls : List (Nat × Bool)) (s : State) : Host.Outcome State Fault Refusal :=
  .next (tapPreload balls s)
def execTapExtest (s : State) : Host.Outcome State Fault Refusal := .next (tapTake .extest s)
def execTapExtestPulse (s : State) : Host.Outcome State Fault Refusal := .next (tapTake .extestPulse s)
def execTapExtestTrain (s : State) : Host.Outcome State Fault Refusal := .next (tapTake .extestTrain s)

/-! ### Assay (R450 to R462) -/

def execAssayRequest (who : Requester) (k : Fin 3) (bits : Word) (s : State) : Host.Outcome State Fault Refusal :=
  .next (commandWrite who (A.ASSAY_REQ k) bits s)
def execAssayCancel (who : Requester) (k : Fin 3) (bits : Word) (s : State) : Host.Outcome State Fault Refusal :=
  .next (commandWrite who (A.ASSAY_CANCEL k) bits s)
def execAssayRegionStart (s : State) : Host.Outcome State Fault Refusal := .next (assayRegionStart s)
def execAssayRegionEnd (lane : Fin 2) (result : AssayResult) (s : State) : Host.Outcome State Fault Refusal :=
  .next (engineGoesOn (assayEnd lane result s))

end Sys2Proof.Machine
end

