-- ==== Sys2Proof/Machine/ExecLaw.lean ====
section
/-! DEFINITION. The commands of the law engines and the Law Table (R204 to R229). -/

namespace Sys2Proof.Machine

/-- A word of the Law Table window is written, or read (R225). -/
def tableWrite (who : Requester) (a : Nat) (w : Word) (s : State) : State :=
  if s.mayWrite who then wordWrite who a w .none s else s

def tableRead (who : Requester) (a : Nat) (s : State) : State :=
  if s.mayWrite who then
    let r := wordRead who a .none s
    r.2.setHost { r.2.host with readData := r.1.1 }
  else s

/-! ### Dispatch and latches (R213, R215) -/

def execLeDispatch (n : Fin 32) (ecc : LawEcc) (s : State) : Host.Outcome State Fault Refusal := .next (lawDispatch n ecc s)
def execLatchApply (n : Fin 32) (s : State) : Host.Outcome State Fault Refusal := .next (latchApply n s)

/-! ### Operations (R208 to R218, R222) -/

def execLeEnd (n : Fin 32) (ecc : LawEcc) (s : State) : Host.Outcome State Fault Refusal :=
  .next (lawOperation n 0x00 ecc (lawEnd n) s)
def execLeNop (n : Fin 32) (ecc : LawEcc) (s : State) : Host.Outcome State Fault Refusal :=
  .next (lawOperation n 0x01 ecc (lawNop n) s)
def execLeMov (n : Fin 32) (ecc : LawEcc) (s : State) : Host.Outcome State Fault Refusal :=
  .next (lawOperation n 0x02 ecc (lawMov n) s)
def execLeLdi (n : Fin 32) (ecc : LawEcc) (s : State) : Host.Outcome State Fault Refusal :=
  .next (lawOperation n 0x03 ecc (lawLdi n) s)
def execLeAdd (n : Fin 32) (ecc : LawEcc) (s : State) : Host.Outcome State Fault Refusal :=
  .next (lawOperation n 0x04 ecc (lawAdd n) s)
def execLeSub (n : Fin 32) (ecc : LawEcc) (s : State) : Host.Outcome State Fault Refusal :=
  .next (lawOperation n 0x05 ecc (lawSub n) s)
def execLeNeg (n : Fin 32) (ecc : LawEcc) (s : State) : Host.Outcome State Fault Refusal :=
  .next (lawOperation n 0x06 ecc (lawNeg n) s)
def execLeAbs (n : Fin 32) (ecc : LawEcc) (s : State) : Host.Outcome State Fault Refusal :=
  .next (lawOperation n 0x07 ecc (lawAbs n) s)
def execLeMin (n : Fin 32) (ecc : LawEcc) (s : State) : Host.Outcome State Fault Refusal :=
  .next (lawOperation n 0x08 ecc (lawMin n) s)
def execLeMax (n : Fin 32) (ecc : LawEcc) (s : State) : Host.Outcome State Fault Refusal :=
  .next (lawOperation n 0x09 ecc (lawMax n) s)
def execLeShl (n : Fin 32) (ecc : LawEcc) (s : State) : Host.Outcome State Fault Refusal :=
  .next (lawOperation n 0x0A ecc (lawShl n) s)
def execLeShr (n : Fin 32) (ecc : LawEcc) (s : State) : Host.Outcome State Fault Refusal :=
  .next (lawOperation n 0x0B ecc (lawShr n) s)
def execLeMul (n : Fin 32) (ecc : LawEcc) (s : State) : Host.Outcome State Fault Refusal :=
  .next (lawOperation n 0x0C ecc (lawMul n) s)
def execLeMac (n : Fin 32) (ecc : LawEcc) (s : State) : Host.Outcome State Fault Refusal :=
  .next (lawOperation n 0x0D ecc (lawMac n) s)
def execLeMsu (n : Fin 32) (ecc : LawEcc) (s : State) : Host.Outcome State Fault Refusal :=
  .next (lawOperation n 0x0E ecc (lawMsu n) s)
def execLeLim (n : Fin 32) (ecc : LawEcc) (s : State) : Host.Outcome State Fault Refusal :=
  .next (lawOperation n 0x0F ecc (lawLim n) s)
def execLeChk (n : Fin 32) (ecc : LawEcc) (s : State) : Host.Outcome State Fault Refusal :=
  .next (lawOperation n 0x10 ecc (lawChk n) s)
def execLeTrip (n : Fin 32) (ecc : LawEcc) (s : State) : Host.Outcome State Fault Refusal :=
  .next (lawOperation n 0x11 ecc (lawTrip n) s)
def execLeSkip (n : Fin 32) (ecc : LawEcc) (s : State) : Host.Outcome State Fault Refusal :=
  .next (lawOperation n 0x12 ecc (lawSkip n) s)
def execLeBr (n : Fin 32) (ecc : LawEcc) (s : State) : Host.Outcome State Fault Refusal :=
  .next (lawOperation n 0x13 ecc (lawBr n) s)
def execLeDjnz (n : Fin 32) (ecc : LawEcc) (s : State) : Host.Outcome State Fault Refusal :=
  .next (lawOperation n 0x14 ecc (lawDjnz n) s)
def execLeLut (n : Fin 32) (ecc : LawEcc) (entry : TableEcc) (s : State) : Host.Outcome State Fault Refusal :=
  .next (lawOperation n 0x15 ecc (lookup n (lutServed n entry)) s)
def execLeLutx (n : Fin 32) (ecc : LawEcc) (entry : TableEcc) (s : State) : Host.Outcome State Fault Refusal :=
  .next (lawOperation n 0x16 ecc (lookup n (lutxServed n entry)) s)
def execLeSelmin (n : Fin 32) (ecc : LawEcc) (s : State) : Host.Outcome State Fault Refusal :=
  .next (lawOperation n 0x17 ecc (lawSelmin n) s)
def execLeWdut (n : Fin 32) (ecc : LawEcc) (s : State) : Host.Outcome State Fault Refusal :=
  .next (lawOperation n 0x18 ecc (lawWdut n) s)
def execLeOut (n : Fin 32) (ecc : LawEcc) (s : State) : Host.Outcome State Fault Refusal :=
  .next (lawOperation n 0x19 ecc (lawOut n) s)

/-! ### The Law Table and the state words (R220, R223, R225) -/

def execLookupServed (p : Fin 4) (entry : TableEcc) (s : State) : Host.Outcome State Fault Refusal :=
  .next (lookupServed p entry s)
def execStateLoWrite (who : Requester) (n : Fin 32) (w : Fin 256) (value : Word) (s : State) : Host.Outcome State Fault Refusal :=
  .next (commandWrite who (A.LE_STATE_LO n w) value s)
def execStateHiWrite (who : Requester) (n : Fin 32) (w : Fin 256) (value : Word) (s : State) : Host.Outcome State Fault Refusal :=
  .next (commandWrite who (A.LE_STATE_HI n w) value s)
def execStateLoRead (who : Requester) (n : Fin 32) (w : Fin 256) (s : State) : Host.Outcome State Fault Refusal :=
  .next (commandRead who (A.LE_STATE_LO n w) s)
def execTableLoWrite (who : Requester) (entry : Fin 524288) (value : Word) (s : State) : Host.Outcome State Fault Refusal :=
  .next (tableWrite who (0x20000000 + 8 * entry) value s)
def execTableHiWrite (who : Requester) (entry : Fin 524288) (value : Word) (s : State) : Host.Outcome State Fault Refusal :=
  .next (tableWrite who (0x20000004 + 8 * entry) value s)
def execTableLoRead (who : Requester) (entry : Fin 524288) (s : State) : Host.Outcome State Fault Refusal :=
  .next (tableRead who (0x20000000 + 8 * entry) s)

/-! ### Disabling and enabling (R226, R227) -/

def execLeDisable (n : Fin 32) (s : State) : Host.Outcome State Fault Refusal :=
  .next (softwareField (A.LE_CTRL n) F.LE_CTRL_EN 0 s)
def execLeDisabled (n : Fin 32) (s : State) : Host.Outcome State Fault Refusal := .next (lawDisabledNow n s)
def execLeEnable (n : Fin 32) (s : State) : Host.Outcome State Fault Refusal :=
  .next (softwareField (A.LE_CTRL n) F.LE_CTRL_EN 1 s)

end Sys2Proof.Machine
end

