-- ==== Sys2Proof/Machine/ExecPwm.lean ====
section
/-! DEFINITION. The commands of the PWM groups (R230 to R255). -/

namespace Sys2Proof.Machine

/-- A store, a law engine's write or a token lands in a shadow register (R241). -/
def shadowWrite (source : ShadowSource) (s : State) : State :=
  match source with
  | .store g r v => softwareWrite (aShadow g r) v s
  | .law n => if s.alive then lawShadowLand n s else s
  | .token g => tokenAccept (epShadow g) s

/-! ### Periods, pulses and shadow registers (R230 to R248) -/

def execPeriodBoundary (g : Fin 48) (s : State) : Host.Outcome State Fault Refusal := .next (periodBoundary g s)
def execPulseCommanded (o : Fin 192) (s : State) : Host.Outcome State Fault Refusal := .next (pulseCommanded o s)
def execPulseEnd (o : Fin 192) (s : State) : Host.Outcome State Fault Refusal := .next (pulseEnd o s)
def execShadowWrite (source : ShadowSource) (s : State) : Host.Outcome State Fault Refusal := .next (shadowWrite source s)
def execShadowTransfer (g : Fin 48) (kind : TransferKind) (s : State) : Host.Outcome State Fault Refusal :=
  .next (shadowTransfer g kind s)
def execDelayRetrim (rangeEnd : Bool) (s : State) : Host.Outcome State Fault Refusal := .next (delayRetrim rangeEnd s)

/-! ### Disabling, enabling and accounting (R247, R249 to R253) -/

def execPgDisable (g : Fin 48) (s : State) : Host.Outcome State Fault Refusal :=
  .next (softwareField (A.PG_CTRL g) F.PG_CTRL_EN 0 s)
def execStopBoundary (g : Fin 48) (s : State) : Host.Outcome State Fault Refusal := .next (stopBoundary g s)
def execPgEnable (g : Fin 48) (s : State) : Host.Outcome State Fault Refusal :=
  .next (softwareField (A.PG_CTRL g) F.PG_CTRL_EN 1 s)
def execAccSnap (g : Fin 48) (s : State) : Host.Outcome State Fault Refusal :=
  .next (softwareField (A.PG_ACC_CTRL g) F.PG_ACC_CTRL_SNAP 1 s)

end Sys2Proof.Machine
end

