-- ==== Sys2Proof/Machine/ExecRunner.lean ====
section
/-! DEFINITION. The commands of the Runner and the Tundish, and of the core-local registers that a read or a store reaches
(R181 to R203). -/

namespace Sys2Proof.Machine

/-! ### Tokens and channels (R182 to R195) -/

def execTokenIssue (endpoint : BitVec 10) (s : State) : Host.Outcome State Fault Refusal :=
  .next (tokenIssue endpoint.toNat s)
def execTokenAccept (endpoint : BitVec 10) (s : State) : Host.Outcome State Fault Refusal :=
  .next (tokenAccept endpoint.toNat s)
def execChannelDisable (n : Fin 256) (s : State) : Host.Outcome State Fault Refusal :=
  .next (softwareField (A.TC_CTRL n) F.TC_CTRL_EN 0 s)
def execChannelDisabled (n : Fin 256) (s : State) : Host.Outcome State Fault Refusal := .next (channelDisabled n s)
def execChannelEnable (n : Fin 256) (s : State) : Host.Outcome State Fault Refusal :=
  .next (softwareField (A.TC_CTRL n) F.TC_CTRL_EN 1 s)
def execAuditSnap (s : State) : Host.Outcome State Fault Refusal :=
  .next (softwareField A.RUN_AUDIT_CTRL F.RUN_AUDIT_CTRL_SNAP 1 s)
def execHwmClr (s : State) : Host.Outcome State Fault Refusal :=
  .next (softwareField A.RUN_AUDIT_CTRL F.RUN_AUDIT_CTRL_HWM_CLR 1 s)

/-! ### Heats, time, push ports and snapshots (R196 to R199) -/

def execHeatStart (s : State) : Host.Outcome State Fault Refusal := .next (heatStart s)
def execTimeLoRead (who : Requester) (s : State) : Host.Outcome State Fault Refusal :=
  .next (commandRead who A.RUN_TIME_LO s)
def execPushLo (c : Fin 16) (value : Word) (s : State) : Host.Outcome State Fault Refusal :=
  .next (coreWrite c A.RUN_PUSH_LO value s)
def execPushHi (c : Fin 16) (q : Fin 4) (value : Word) (s : State) : Host.Outcome State Fault Refusal :=
  .next (coreWrite c (A.RUN_PUSH_HI q) value s)
def execSnapLoRead (who : Requester) (k : Fin 128) (s : State) : Host.Outcome State Fault Refusal :=
  .next (commandRead who (A.RUN_SNAP_LO k) s)

end Sys2Proof.Machine
end

