-- ==== Sys2Proof/Machine/ExecSupply.lean ====
section
/-! DEFINITION. The commands of the supply, the power states, reset, boot and the registers with no row of their own
(R30 to R95, R464). -/

namespace Sys2Proof.Machine

/-! ### Register writes (R464) -/

def execRegisterWrite (who : Requester) (addr : Nat) (value : Word) (s : State) : Host.Outcome State Fault Refusal :=
  .next (s.latching (commandWrite who addr value))

/-! ### Supply and power (R30 to R58) -/

def execVinRise (straps : BitVec 12) (s : State) : Host.Outcome State Fault Refusal := .next (vinRise straps s)
def execPowerGood (report : PowerReport) (s : State) : Host.Outcome State Fault Refusal :=
  .next (powerGood report.boot report.straps s)
def execVinLoss (high : Bool) (s : State) : Host.Outcome State Fault Refusal := .next (vinLoss high s)
def execVmidClamp (s : State) : Host.Outcome State Fault Refusal := .next (vmidClamp s)
def execVinOvervoltageEnd (s : State) : Host.Outcome State Fault Refusal := .next (vinOvervoltageEnd s)
def execDischargeComplete (s : State) : Host.Outcome State Fault Refusal := .next (dischargeComplete s)
def execHoldingCauseEnd (cause : HoldCause) (s : State) : Host.Outcome State Fault Refusal := .next (holdingCauseEnd cause s)
def execCurrentLimitChange (ball : Nat) (limited : Bool) (elapsed : Nat) (s : State) : Host.Outcome State Fault Refusal :=
  .next (currentLimitChange ball limited elapsed s)
def execCurrentLimitTrip (ball : Nat) (elapsed : Nat) (s : State) : Host.Outcome State Fault Refusal :=
  .next (currentLimitTrip ball elapsed s)
def execLimitTimeClear (ball : Nat) (s : State) : Host.Outcome State Fault Refusal := .next (limitTimeClear ball s)
def execIoFaultClear (who : Requester) (s : State) : Host.Outcome State Fault Refusal :=
  .next (s.latching (commandField who A.SUP_IO_FAULT F.SUP_IO_FAULT_VALID 1))
def execPowerAverage (vin : BitVec 12) (power : BitVec 12) (s : State) : Host.Outcome State Fault Refusal :=
  .next (powerAverage vin power s)
def execThermalScan (raws : List (BitVec 24)) (s : State) : Host.Outcome State Fault Refusal := .next (thermalScan raws s)
def execThermalTrip (s : State) : Host.Outcome State Fault Refusal := .next (thermalTrip s)
def execSleepEntry (s : State) : Host.Outcome State Fault Refusal := .next (sleepEntry s)
def execEntryComplete (s : State) : Host.Outcome State Fault Refusal := .next (entryComplete s)
def execWakeEvent (cause : WakeCause) (report : BootReport) (s : State) : Host.Outcome State Fault Refusal :=
  .next (wakeEvent cause report s)
def execAlarmExpiry (report : BootReport) (s : State) : Host.Outcome State Fault Refusal := .next (alarmExpiry report s)

/-! ### Clocks, reset and boot (R79 to R95) -/

def execClockLoss (refclk : Bool) (s : State) : Host.Outcome State Fault Refusal := .next (clockLoss refclk s)
def execResetPin (s : State) : Host.Outcome State Fault Refusal := .next (resetPin s)
def execResetPinRelease (s : State) : Host.Outcome State Fault Refusal := .next (resetPinRelease s)
def execSoftReset (who : Requester) (s : State) : Host.Outcome State Fault Refusal :=
  .next (commandWrite who A.RST_CTRL 0xB1A50001 s)
def execWdogEnable (who : Requester) (timeout : BitVec 24) (s : State) : Host.Outcome State Fault Refusal :=
  .next (commandWrite who A.RST_WDOG (0x80000000 ||| timeout.setWidth 32) s)
def execWdogKick (who : Requester) (s : State) : Host.Outcome State Fault Refusal :=
  .next (commandWrite who A.RST_WDOG_KICK 0x5A3C s)
def execWdogExpiry (s : State) : Host.Outcome State Fault Refusal := .next (wdogExpiry s)
def execRelease (who : Requester) (s : State) : Host.Outcome State Fault Refusal :=
  .next (commandField who A.BOOT_CTRL F.BOOT_CTRL_RELEASE 1 s)
def execCoreStart (who : Requester) (cores : BitVec 16) (s : State) : Host.Outcome State Fault Refusal :=
  .next (commandField who A.BOOT_CTRL F.BOOT_CTRL_CORE_START cores.toNat s)

end Sys2Proof.Machine
end

