-- ==== Sys2Proof/Machine/ExecSystem.lean ====
section
/-! DEFINITION. The commands of the software interrupt sources, the Ladle engines, the memories, the balls and the debug port
(R64, R325, R326, R335, R337, R351 to R354, R375). -/

namespace Sys2Proof.Machine

/-! ### Software sources (R325) -/

def execSwiSet (who : Requester) (k : Fin 4) (bits : Word) (s : State) : Host.Outcome State Fault Refusal :=
  .next (commandWrite who (A.IC_SWI_SET k) bits s)
def execSwiClr (who : Requester) (k : Fin 4) (bits : Word) (s : State) : Host.Outcome State Fault Refusal :=
  .next (s.latching (commandWrite who (A.IC_SWI_CLR k) bits))

/-! ### Ladle (R351 to R354) -/

def execLadleGo (who : Requester) (n : Fin 8) (s : State) : Host.Outcome State Fault Refusal :=
  .next (commandField who (A.LD_CTRL n) F.LD_CTRL_GO 1 s)
def execLadleUnit (n : Fin 8) (ecc : WordEcc) (s : State) : Host.Outcome State Fault Refusal := .next (ladleUnit n ecc s)
def execLadleEnable (n : Fin 8) (s : State) : Host.Outcome State Fault Refusal :=
  .next (softwareField (A.LD_CTRL n) F.LD_CTRL_EN 1 s)
def execLadleDisable (n : Fin 8) (s : State) : Host.Outcome State Fault Refusal :=
  .next (softwareField (A.LD_CTRL n) F.LD_CTRL_EN 0 s)
def execLadleFaultClear (n : Fin 8) (s : State) : Host.Outcome State Fault Refusal :=
  .next (s.latching (softwareField (A.LD_STATUS n) F.LD_STATUS_FAULT 1))

/-! ### Memories and balls (R64, R335, R337) -/

def execScrub (addr : Nat) (ecc : ScrubReport) (s : State) : Host.Outcome State Fault Refusal := .next (scrub addr ecc s)
def execMemoryFillDone (dram : Bool) (s : State) : Host.Outcome State Fault Refusal := .next (memoryFillDone dram s)
def execGpioLevelChange (n : Fin 114) (change : BallChange) (s : State) : Host.Outcome State Fault Refusal :=
  .next (gpioLevelChange n change s)

/-! ### The debug port (R375) -/

def execDebugHalt (c : Fin 16) (s : State) : Host.Outcome State Fault Refusal := .next (debugHalt c s)
def execDebugStep (c : Fin 16) (s : State) : Host.Outcome State Fault Refusal := .next (debugStep c s)
def execDebugResume (c : Fin 16) (s : State) : Host.Outcome State Fault Refusal := .next (debugResume c s)
def execDebugRegisterWrite (c : Fin 16) (reg : DebugReg) (value : Cell) (s : State) : Host.Outcome State Fault Refusal :=
  .next (debugRegisterWrite c reg value s)

end Sys2Proof.Machine
end

