-- ==== Sys2Proof/Machine/ExecTwiast.lean ====
section
/-! DEFINITION. The commands of the Twiast ports (R403 to R431). -/

namespace Sys2Proof.Machine

/-! ### Received flits (R405 to R419, R424, R428) -/

def execIdleFlit (p : Fin 4) (flit : FlitWord) (s : State) : Host.Outcome State Fault Refusal :=
  .next (receive p 0 flit id s)
def execTokenFlit (p : Fin 4) (flit : FlitWord) (s : State) : Host.Outcome State Fault Refusal :=
  .next (receive p 1 flit (receiveToken p flit) s)
def execLinkFlit (p : Fin 4) (flit : FlitWord) (s : State) : Host.Outcome State Fault Refusal :=
  .next (receive p 2 flit (receiveLink p flit) s)
def execTimeReq (p : Fin 4) (flit : FlitWord) (arrived : Stamp) (answered : Stamp) (s : State) : Host.Outcome State Fault Refusal :=
  .next (receive p 3 flit (receiveReq p arrived answered) s)
def execTimeResp (p : Fin 4) (flit : FlitWord) (arrived : Stamp) (s : State) : Host.Outcome State Fault Refusal :=
  .next (receive p 4 flit (receiveResp p flit arrived) s)
def execHeatFlit (p : Fin 4) (flit : FlitWord) (s : State) : Host.Outcome State Fault Refusal :=
  .next (receive p 5 flit (receiveHeat p flit) s)
def execAuditFlit (p : Fin 4) (flit : FlitWord) (s : State) : Host.Outcome State Fault Refusal :=
  .next (receive p 6 flit (receiveAudit p flit) s)
def execInitFlit (p : Fin 4) (flit : FlitWord) (s : State) : Host.Outcome State Fault Refusal :=
  .next (receive p 7 flit (receiveInit p flit) s)
def execAlignFlit (p : Fin 4) (flit : FlitWord) (s : State) : Host.Outcome State Fault Refusal :=
  .next (receive p 8 flit id s)

/-! ### Transmission and bring-up (R412 to R421) -/

def execFlitTransmit (p : Fin 4) (due : Option ControlDue) (s : State) : Host.Outcome State Fault Refusal :=
  .next (flitTransmit p due s)
def execRetryTimeout (p : Fin 4) (s : State) : Host.Outcome State Fault Refusal := .next (retryTimeout p s)
def execLanesAdapted (p : Fin 4) (s : State) : Host.Outcome State Fault Refusal := .next (linkStep p .train .lock s)
def execBlockLock (p : Fin 4) (s : State) : Host.Outcome State Fault Refusal := .next (linkStep p .lock .init s)
def execBringUpTimeout (p : Fin 4) (s : State) : Host.Outcome State Fault Refusal := .next (bringUpTimeout p s)
def execLinkLoss (p : Fin 4) (s : State) : Host.Outcome State Fault Refusal := .next (linkLoss p s)
def execDownTimerEnd (p : Fin 4) (s : State) : Host.Outcome State Fault Refusal := .next (linkStep p .down .train s)
def execPortEnable (p : Fin 4) (s : State) : Host.Outcome State Fault Refusal :=
  .next (softwareField (A.TW_CTRL p) F.TW_CTRL_EN 1 s)
def execPortDisable (p : Fin 4) (s : State) : Host.Outcome State Fault Refusal :=
  .next (softwareField (A.TW_CTRL p) F.TW_CTRL_EN 0 s)
def execPortDisabled (p : Fin 4) (s : State) : Host.Outcome State Fault Refusal := .next (portDisabled p s)
def execDeadClear (p : Fin 4) (s : State) : Host.Outcome State Fault Refusal :=
  .next (softwareField (A.TW_DEAD_INFO p) F.TW_DEAD_INFO_FULL 1 s)
def execTwAuditSnap (p : Fin 4) (s : State) : Host.Outcome State Fault Refusal :=
  .next (softwareField (A.TW_AUDIT_CTRL p) F.TW_AUDIT_CTRL_SNAP 1 s)

/-! ### Time and the system heats (R423 to R429) -/

def execTimeExchange (sent : Stamp) (s : State) : Host.Outcome State Fault Refusal := .next (timeExchange sent s)
def execTimeLost (s : State) : Host.Outcome State Fault Refusal := .next (timeLost s)
def execHeatIssue (who : Requester) (s : State) : Host.Outcome State Fault Refusal :=
  .next (commandField who A.TW_SYS_CTRL F.TW_SYS_CTRL_ISSUE 1 s)
def execHeatRepeat (s : State) : Host.Outcome State Fault Refusal := .next (heatRepeat s)
def execHeatForget (who : Requester) (s : State) : Host.Outcome State Fault Refusal :=
  .next (commandField who A.TW_SYS_CTRL F.TW_SYS_CTRL_FORGET 1 s)

end Sys2Proof.Machine
end

