-- ==== Sys2Proof/Machine/Dispatch.lean ====
section
/-! DEFINITION. The dispatch of a command to its meaning. -/

namespace Sys2Proof.Machine

def exec (i : Instr) (s : State) : Host.Outcome State Fault Refusal :=
  match i with
  | .registerWrite who addr value => Sys2Proof.Machine.execRegisterWrite who addr value s
  | .vinRise straps => Sys2Proof.Machine.execVinRise straps s
  | .powerGood report => Sys2Proof.Machine.execPowerGood report s
  | .vinLoss high => Sys2Proof.Machine.execVinLoss high s
  | .vmidClamp => Sys2Proof.Machine.execVmidClamp s
  | .safeHighForceDelay o => Sys2Proof.Machine.execSafeHighForceDelay o s
  | .forceHoldExpiry o => Sys2Proof.Machine.execForceHoldExpiry o s
  | .dischargeComplete => Sys2Proof.Machine.execDischargeComplete s
  | .holdingCauseEnd cause => Sys2Proof.Machine.execHoldingCauseEnd cause s
  | .currentLimitTrip ball elapsed => Sys2Proof.Machine.execCurrentLimitTrip ball elapsed s
  | .limitTimeClear ball => Sys2Proof.Machine.execLimitTimeClear ball s
  | .ioFaultClear who => Sys2Proof.Machine.execIoFaultClear who s
  | .powerAverage vin power => Sys2Proof.Machine.execPowerAverage vin power s
  | .thermalScan raws => Sys2Proof.Machine.execThermalScan raws s
  | .thermalTrip => Sys2Proof.Machine.execThermalTrip s
  | .sleepEntry => Sys2Proof.Machine.execSleepEntry s
  | .entryComplete => Sys2Proof.Machine.execEntryComplete s
  | .wakeEvent cause report => Sys2Proof.Machine.execWakeEvent cause report s
  | .alarmExpiry report => Sys2Proof.Machine.execAlarmExpiry report s
  | .clockLoss refclk => Sys2Proof.Machine.execClockLoss refclk s
  | .resetPin => Sys2Proof.Machine.execResetPin s
  | .resetPinRelease => Sys2Proof.Machine.execResetPinRelease s
  | .softReset who => Sys2Proof.Machine.execSoftReset who s
  | .wdogEnable who timeout => Sys2Proof.Machine.execWdogEnable who timeout s
  | .wdogKick who => Sys2Proof.Machine.execWdogKick who s
  | .wdogExpiry => Sys2Proof.Machine.execWdogExpiry s
  | .release who => Sys2Proof.Machine.execRelease who s
  | .coreStart who cores => Sys2Proof.Machine.execCoreStart who cores s
  | .modulatorRunning n => Sys2Proof.Machine.execModulatorRunning n s
  | .overload n => Sys2Proof.Machine.execOverload n s
  | .stuck arrival => Sys2Proof.Machine.execStuck arrival s
  | .xbRunning n => Sys2Proof.Machine.execXbRunning n s
  | .swiftResult n cells later => Sys2Proof.Machine.execSwiftResult n cells later s
  | .fineResult n cells later => Sys2Proof.Machine.execFineResult n cells later s
  | .pathStart n fine => Sys2Proof.Machine.execPathStart n fine s
  | .pathDisable n fine => Sys2Proof.Machine.execPathDisable n fine s
  | .pathDisabled n fine => Sys2Proof.Machine.execPathDisabled n fine s
  | .decSnap n => Sys2Proof.Machine.execDecSnap n s
  | .comparatorCrossing n above below => Sys2Proof.Machine.execComparatorCrossing n above below s
  | .comparatorReady n => Sys2Proof.Machine.execComparatorReady n s
  | .thresholdWrite n value => Sys2Proof.Machine.execThresholdWrite n value s
  | .rbSelWrite value => Sys2Proof.Machine.execRbSelWrite value s
  | .rbSettled => Sys2Proof.Machine.execRbSettled s
  | .quenchRequest k => Sys2Proof.Machine.execQuenchRequest k s
  | .safeHighDeadTime o => Sys2Proof.Machine.execSafeHighDeadTime o s
  | .groupSelfClear g => Sys2Proof.Machine.execGroupSelfClear g s
  | .quenchRelease who groups => Sys2Proof.Machine.execQuenchRelease who groups s
  | .swReq who raise => Sys2Proof.Machine.execSwReq who raise s
  | .surveyStart n => Sys2Proof.Machine.execSurveyStart n s
  | .surveyTrigger n => Sys2Proof.Machine.execSurveyTrigger n s
  | .converterStartupDone n => Sys2Proof.Machine.execConverterStartupDone n s
  | .conversionEnd n raw => Sys2Proof.Machine.execConversionEnd n raw s
  | .urgent n value => Sys2Proof.Machine.execUrgent n value s
  | .surveyDisable n => Sys2Proof.Machine.execSurveyDisable n s
  | .surveyDisabled n => Sys2Proof.Machine.execSurveyDisabled n s
  | .tokenIssue endpoint => Sys2Proof.Machine.execTokenIssue endpoint s
  | .tokenAccept endpoint => Sys2Proof.Machine.execTokenAccept endpoint s
  | .channelDisable n => Sys2Proof.Machine.execChannelDisable n s
  | .channelDisabled n => Sys2Proof.Machine.execChannelDisabled n s
  | .channelEnable n => Sys2Proof.Machine.execChannelEnable n s
  | .auditSnap => Sys2Proof.Machine.execAuditSnap s
  | .hwmClr => Sys2Proof.Machine.execHwmClr s
  | .heatStart => Sys2Proof.Machine.execHeatStart s
  | .timeLoRead who => Sys2Proof.Machine.execTimeLoRead who s
  | .pushLo c value => Sys2Proof.Machine.execPushLo c value s
  | .pushHi c q value => Sys2Proof.Machine.execPushHi c q value s
  | .snapLoRead who k => Sys2Proof.Machine.execSnapLoRead who k s
  | .leDispatch n ecc => Sys2Proof.Machine.execLeDispatch n ecc s
  | .latchApply n => Sys2Proof.Machine.execLatchApply n s
  | .leEnd n ecc => Sys2Proof.Machine.execLeEnd n ecc s
  | .leNop n ecc => Sys2Proof.Machine.execLeNop n ecc s
  | .leMov n ecc => Sys2Proof.Machine.execLeMov n ecc s
  | .leLdi n ecc => Sys2Proof.Machine.execLeLdi n ecc s
  | .leAdd n ecc => Sys2Proof.Machine.execLeAdd n ecc s
  | .leSub n ecc => Sys2Proof.Machine.execLeSub n ecc s
  | .leNeg n ecc => Sys2Proof.Machine.execLeNeg n ecc s
  | .leAbs n ecc => Sys2Proof.Machine.execLeAbs n ecc s
  | .leMin n ecc => Sys2Proof.Machine.execLeMin n ecc s
  | .leMax n ecc => Sys2Proof.Machine.execLeMax n ecc s
  | .leShl n ecc => Sys2Proof.Machine.execLeShl n ecc s
  | .leShr n ecc => Sys2Proof.Machine.execLeShr n ecc s
  | .leMul n ecc => Sys2Proof.Machine.execLeMul n ecc s
  | .leMac n ecc => Sys2Proof.Machine.execLeMac n ecc s
  | .leMsu n ecc => Sys2Proof.Machine.execLeMsu n ecc s
  | .leLim n ecc => Sys2Proof.Machine.execLeLim n ecc s
  | .leChk n ecc => Sys2Proof.Machine.execLeChk n ecc s
  | .leTrip n ecc => Sys2Proof.Machine.execLeTrip n ecc s
  | .leSkip n ecc => Sys2Proof.Machine.execLeSkip n ecc s
  | .leBr n ecc => Sys2Proof.Machine.execLeBr n ecc s
  | .leDjnz n ecc => Sys2Proof.Machine.execLeDjnz n ecc s
  | .leLut n ecc entry => Sys2Proof.Machine.execLeLut n ecc entry s
  | .leLutx n ecc entry => Sys2Proof.Machine.execLeLutx n ecc entry s
  | .leSelmin n ecc => Sys2Proof.Machine.execLeSelmin n ecc s
  | .leWdut n ecc => Sys2Proof.Machine.execLeWdut n ecc s
  | .leOut n ecc => Sys2Proof.Machine.execLeOut n ecc s
  | .lookupServed p entry => Sys2Proof.Machine.execLookupServed p entry s
  | .stateLoWrite who n w value => Sys2Proof.Machine.execStateLoWrite who n w value s
  | .stateHiWrite who n w value => Sys2Proof.Machine.execStateHiWrite who n w value s
  | .stateLoRead who n w => Sys2Proof.Machine.execStateLoRead who n w s
  | .tableLoWrite who entry value => Sys2Proof.Machine.execTableLoWrite who entry value s
  | .tableHiWrite who entry value => Sys2Proof.Machine.execTableHiWrite who entry value s
  | .tableLoRead who entry => Sys2Proof.Machine.execTableLoRead who entry s
  | .leDisable n => Sys2Proof.Machine.execLeDisable n s
  | .leDisabled n => Sys2Proof.Machine.execLeDisabled n s
  | .leEnable n => Sys2Proof.Machine.execLeEnable n s
  | .periodBoundary g => Sys2Proof.Machine.execPeriodBoundary g s
  | .pulseCommanded o => Sys2Proof.Machine.execPulseCommanded o s
  | .pulseEnd o => Sys2Proof.Machine.execPulseEnd o s
  | .shadowWrite source => Sys2Proof.Machine.execShadowWrite source s
  | .shadowTransfer g kind => Sys2Proof.Machine.execShadowTransfer g kind s
  | .pgDisable g => Sys2Proof.Machine.execPgDisable g s
  | .stopBoundary g => Sys2Proof.Machine.execStopBoundary g s
  | .pgEnable g => Sys2Proof.Machine.execPgEnable g s
  | .accSnap g => Sys2Proof.Machine.execAccSnap g s
  | .delayRetrim rangeEnd => Sys2Proof.Machine.execDelayRetrim rangeEnd s
  | .nop c => Sys2Proof.Machine.execNop c s
  | .drop c => Sys2Proof.Machine.execDrop c s
  | .dup c => Sys2Proof.Machine.execDup c s
  | .flashSwap who => Sys2Proof.Machine.execFlashSwap who s
  | .stackSwap c => Sys2Proof.Machine.execStackSwap c s
  | .stackOver c => Sys2Proof.Machine.execStackOver c s
  | .rot c => Sys2Proof.Machine.execRot c s
  | .nip c => Sys2Proof.Machine.execNip c s
  | .tuck c => Sys2Proof.Machine.execTuck c s
  | .drop2 c => Sys2Proof.Machine.execDrop2 c s
  | .dup2 c => Sys2Proof.Machine.execDup2 c s
  | .pick c k => Sys2Proof.Machine.execPick c k s
  | .sync c => Sys2Proof.Machine.execSync c s
  | .wait c => Sys2Proof.Machine.execWait c s
  | .waitExit c => Sys2Proof.Machine.execWaitExit c s
  | .lit8 c k => Sys2Proof.Machine.execLit8 c k s
  | .lit16 c k => Sys2Proof.Machine.execLit16 c k s
  | .lit32 c k => Sys2Proof.Machine.execLit32 c k s
  | .lith c k => Sys2Proof.Machine.execLith c k s
  | .frd c r => Sys2Proof.Machine.execFrd c r s
  | .fwr c r => Sys2Proof.Machine.execFwr c r s
  | .add c => Sys2Proof.Machine.execAdd c s
  | .sub c => Sys2Proof.Machine.execSub c s
  | .neg c => Sys2Proof.Machine.execNeg c s
  | .abs c => Sys2Proof.Machine.execAbs c s
  | .mulq c => Sys2Proof.Machine.execMulq c s
  | .muli c => Sys2Proof.Machine.execMuli c s
  | .macq c => Sys2Proof.Machine.execMacq c s
  | .msuq c => Sys2Proof.Machine.execMsuq c s
  | .min c => Sys2Proof.Machine.execMin c s
  | .max c => Sys2Proof.Machine.execMax c s
  | .shl c k => Sys2Proof.Machine.execShl c k s
  | .shr c k => Sys2Proof.Machine.execShr c k s
  | .lsr c k => Sys2Proof.Machine.execLsr c k s
  | .satw c => Sys2Proof.Machine.execSatw c s
  | .div c steps => Sys2Proof.Machine.execDiv c steps s
  | .lim c => Sys2Proof.Machine.execLim c s
  | .and c => Sys2Proof.Machine.execAnd c s
  | .or c => Sys2Proof.Machine.execOr c s
  | .xor c => Sys2Proof.Machine.execXor c s
  | .not c => Sys2Proof.Machine.execNot c s
  | .ceq c => Sys2Proof.Machine.execCeq c s
  | .cne c => Sys2Proof.Machine.execCne c s
  | .clt c => Sys2Proof.Machine.execClt c s
  | .cle c => Sys2Proof.Machine.execCle c s
  | .cgt c => Sys2Proof.Machine.execCgt c s
  | .cge c => Sys2Proof.Machine.execCge c s
  | .cltu c => Sys2Proof.Machine.execCltu c s
  | .cz c => Sys2Proof.Machine.execCz c s
  | .cn c => Sys2Proof.Machine.execCn c s
  | .crcb c m p => Sys2Proof.Machine.execCrcb c m p s
  | .crcw c m p => Sys2Proof.Machine.execCrcw c m p s
  | .bcrc c m p units => Sys2Proof.Machine.execBcrc c m p units s
  | .par c => Sys2Proof.Machine.execPar c s
  | .brev8 c => Sys2Proof.Machine.execBrev8 c s
  | .brev16 c => Sys2Proof.Machine.execBrev16 c s
  | .brev32 c => Sys2Proof.Machine.execBrev32 c s
  | .ld c ecc cmp => Sys2Proof.Machine.execLd c ecc cmp s
  | .ldh c ecc => Sys2Proof.Machine.execLdh c ecc s
  | .ldqh c ecc => Sys2Proof.Machine.execLdqh c ecc s
  | .ldb c ecc => Sys2Proof.Machine.execLdb c ecc s
  | .ldbs c ecc => Sys2Proof.Machine.execLdbs c ecc s
  | .ldx c ecc => Sys2Proof.Machine.execLdx c ecc s
  | .st c pause cmp => Sys2Proof.Machine.execSt c pause cmp s
  | .sth c pause => Sys2Proof.Machine.execSth c pause s
  | .stqh c pause => Sys2Proof.Machine.execStqh c pause s
  | .stb c => Sys2Proof.Machine.execStb c s
  | .stx c => Sys2Proof.Machine.execStx c s
  | .bmov c units => Sys2Proof.Machine.execBmov c units s
  | .bmac c units => Sys2Proof.Machine.execBmac c units s
  | .loadDataReturn c report => Sys2Proof.Machine.execLoadDataReturn c report s
  | .storeLand c ecc => Sys2Proof.Machine.execStoreLand c ecc s
  | .icacheFill c addr ecc => Sys2Proof.Machine.execIcacheFill c addr ecc s
  | .br c o => Sys2Proof.Machine.execBr c o s
  | .bz c o => Sys2Proof.Machine.execBz c o s
  | .bnz c o => Sys2Proof.Machine.execBnz c o s
  | .bv c o => Sys2Proof.Machine.execBv c o s
  | .bnv c o => Sys2Proof.Machine.execBnv c o s
  | .bc c o => Sys2Proof.Machine.execBc c o s
  | .bnc c o => Sys2Proof.Machine.execBnc c o s
  | .bsv c o => Sys2Proof.Machine.execBsv c o s
  | .bnsv c o => Sys2Proof.Machine.execBnsv c o s
  | .jmp c t => Sys2Proof.Machine.execJmp c t s
  | .jmpi c => Sys2Proof.Machine.execJmpi c s
  | .call c mask t => Sys2Proof.Machine.execCall c mask t s
  | .calli c mask => Sys2Proof.Machine.execCalli c mask s
  | .ret c => Sys2Proof.Machine.execRet c s
  | .loop c u => Sys2Proof.Machine.execLoop c u s
  | .trap c k => Sys2Proof.Machine.execTrap c k s
  | .reti c => Sys2Proof.Machine.execReti c s
  | .mfc c n => Sys2Proof.Machine.execMfc c n s
  | .mtc c n => Sys2Proof.Machine.execMtc c n s
  | .icinv c => Sys2Proof.Machine.execIcinv c s
  | .icinva c => Sys2Proof.Machine.execIcinva c s
  | .sflush c b => Sys2Proof.Machine.execSflush c b s
  | .tlbinv c => Sys2Proof.Machine.execTlbinv c s
  | .tlbinva c => Sys2Proof.Machine.execTlbinva c s
  | .fence c => Sys2Proof.Machine.execFence c s
  | .interruptClaim c => Sys2Proof.Machine.execInterruptClaim c s
  | .interruptEntry c => Sys2Proof.Machine.execInterruptEntry c s
  | .shadowPrgRead c => Sys2Proof.Machine.execShadowPrgRead c s
  | .emergClear c => Sys2Proof.Machine.execEmergClear c s
  | .swiSet who k bits => Sys2Proof.Machine.execSwiSet who k bits s
  | .swiClr who k bits => Sys2Proof.Machine.execSwiClr who k bits s
  | .unlockAll c => Sys2Proof.Machine.execUnlockAll c s
  | .ladleGo who n => Sys2Proof.Machine.execLadleGo who n s
  | .ladleUnit n ecc => Sys2Proof.Machine.execLadleUnit n ecc s
  | .ladleEnable n => Sys2Proof.Machine.execLadleEnable n s
  | .ladleDisable n => Sys2Proof.Machine.execLadleDisable n s
  | .ladleFaultClear n => Sys2Proof.Machine.execLadleFaultClear n s
  | .scrub addr ecc => Sys2Proof.Machine.execScrub addr ecc s
  | .memoryFillDone dram => Sys2Proof.Machine.execMemoryFillDone dram s
  | .debugHalt c => Sys2Proof.Machine.execDebugHalt c s
  | .debugStep c => Sys2Proof.Machine.execDebugStep c s
  | .debugRegisterWrite c reg value => Sys2Proof.Machine.execDebugRegisterWrite c reg value s
  | .flashProgram who offset => Sys2Proof.Machine.execFlashProgram who offset s
  | .flashErase who offset => Sys2Proof.Machine.execFlashErase who offset s
  | .flashSuspend who => Sys2Proof.Machine.execFlashSuspend who s
  | .flashResume who => Sys2Proof.Machine.execFlashResume who s
  | .flashUnlock who => Sys2Proof.Machine.execFlashUnlock who s
  | .flashLock who => Sys2Proof.Machine.execFlashLock who s
  | .flashSetPwd who => Sys2Proof.Machine.execFlashSetPwd who s
  | .flashSetProt who => Sys2Proof.Machine.execFlashSetProt who s
  | .commandEnd report => Sys2Proof.Machine.execCommandEnd report s
  | .flashLockoutExpiry => Sys2Proof.Machine.execFlashLockoutExpiry s
  | .interruptedClear => Sys2Proof.Machine.execInterruptedClear s
  | .idleFlit p flit => Sys2Proof.Machine.execIdleFlit p flit s
  | .tokenFlit p flit => Sys2Proof.Machine.execTokenFlit p flit s
  | .linkFlit p flit => Sys2Proof.Machine.execLinkFlit p flit s
  | .timeReq p flit arrived answered => Sys2Proof.Machine.execTimeReq p flit arrived answered s
  | .timeResp p flit arrived => Sys2Proof.Machine.execTimeResp p flit arrived s
  | .heatFlit p flit => Sys2Proof.Machine.execHeatFlit p flit s
  | .auditFlit p flit => Sys2Proof.Machine.execAuditFlit p flit s
  | .initFlit p flit => Sys2Proof.Machine.execInitFlit p flit s
  | .alignFlit p flit => Sys2Proof.Machine.execAlignFlit p flit s
  | .flitTransmit p due => Sys2Proof.Machine.execFlitTransmit p due s
  | .retryTimeout p => Sys2Proof.Machine.execRetryTimeout p s
  | .lanesAdapted p => Sys2Proof.Machine.execLanesAdapted p s
  | .blockLock p => Sys2Proof.Machine.execBlockLock p s
  | .bringUpTimeout p => Sys2Proof.Machine.execBringUpTimeout p s
  | .linkLoss p => Sys2Proof.Machine.execLinkLoss p s
  | .downTimerEnd p => Sys2Proof.Machine.execDownTimerEnd p s
  | .timeExchange sent => Sys2Proof.Machine.execTimeExchange sent s
  | .timeLost => Sys2Proof.Machine.execTimeLost s
  | .heatIssue who => Sys2Proof.Machine.execHeatIssue who s
  | .heatRepeat => Sys2Proof.Machine.execHeatRepeat s
  | .heatForget who => Sys2Proof.Machine.execHeatForget who s
  | .portEnable p => Sys2Proof.Machine.execPortEnable p s
  | .portDisable p => Sys2Proof.Machine.execPortDisable p s
  | .portDisabled p => Sys2Proof.Machine.execPortDisabled p s
  | .deadClear p => Sys2Proof.Machine.execDeadClear p s
  | .twAuditSnap p => Sys2Proof.Machine.execTwAuditSnap p s
  | .mgmtOpen port req => Sys2Proof.Machine.execMgmtOpen port req s
  | .mgmtClose port req => Sys2Proof.Machine.execMgmtClose port req s
  | .mgmtStatus port req => Sys2Proof.Machine.execMgmtStatus port req s
  | .mgmtRead port req => Sys2Proof.Machine.execMgmtRead port req s
  | .mgmtWrite port req => Sys2Proof.Machine.execMgmtWrite port req s
  | .mgmtReset port req => Sys2Proof.Machine.execMgmtReset port req s
  | .mgmtSetKey port req => Sys2Proof.Machine.execMgmtSetKey port req s
  | .mgmtForward port req => Sys2Proof.Machine.execMgmtForward port req s
  | .replyGo who len => Sys2Proof.Machine.execReplyGo who len s
  | .noHandler => Sys2Proof.Machine.execNoHandler s
  | .sessionTimeout port => Sys2Proof.Machine.execSessionTimeout port s
  | .sessionLockoutExpiry port => Sys2Proof.Machine.execSessionLockoutExpiry port s
  | .ethUp who n => Sys2Proof.Machine.execEthUp who n s
  | .pcieUp who => Sys2Proof.Machine.execPcieUp who s
  | .hostLinkLoss loss => Sys2Proof.Machine.execHostLinkLoss loss s
  | .mgmtAddressWrite who n reg value => Sys2Proof.Machine.execMgmtAddressWrite who n reg value s
  | .ppsRise n => Sys2Proof.Machine.execPpsRise n s
  | .ppsFall n => Sys2Proof.Machine.execPpsFall n s
  | .tapBypass => Sys2Proof.Machine.execTapBypass s
  | .tapIdcode => Sys2Proof.Machine.execTapIdcode s
  | .tapSamplePreload balls => Sys2Proof.Machine.execTapSamplePreload balls s
  | .tapExtest => Sys2Proof.Machine.execTapExtest s
  | .tapExtestPulse => Sys2Proof.Machine.execTapExtestPulse s
  | .tapExtestTrain => Sys2Proof.Machine.execTapExtestTrain s
  | .assayRequest who k bits => Sys2Proof.Machine.execAssayRequest who k bits s
  | .assayCancel who k bits => Sys2Proof.Machine.execAssayCancel who k bits s
  | .assayRegionStart => Sys2Proof.Machine.execAssayRegionStart s
  | .assayRegionEnd lane result => Sys2Proof.Machine.execAssayRegionEnd lane result s
  | .vinOvervoltageEnd => Sys2Proof.Machine.execVinOvervoltageEnd s
  | .currentLimitChange ball limited elapsed => Sys2Proof.Machine.execCurrentLimitChange ball limited elapsed s
  | .gpioLevelChange n change => Sys2Proof.Machine.execGpioLevelChange n change s
  | .undefinedOpcode c op => Sys2Proof.Machine.execUndefinedOpcode c op s
  | .mgmtBadCode port code req => Sys2Proof.Machine.execMgmtBadCode port code req s
  | .arp n query => Sys2Proof.Machine.execArp n query s
  | .hostLinkUp link => Sys2Proof.Machine.execHostLinkUp link s
  | .debugResume c => Sys2Proof.Machine.execDebugResume c s

end Sys2Proof.Machine
end

