-- ==== Sys2Proof/Safety.lean ====
section
/-! DEFINITION. What the claims speak of: the canonical form of the memories, the reserved bits of the registers, and steps that go on. -/

namespace Sys2Proof.Machine

/-- The memories are in canonical form: addresses rise strictly, and no entry equals what an unlisted address reads as, 0 for
the TCMs, the shared SRAM, the DRAM and the journal, and 0xFF for the flash. -/
def Memory.wf (s : State) : Bool :=
  mapWf (fun _ => (0 : Byte)) s.mem && mapWf (fun _ => (0 : Byte)) s.journal && mapWf (fun _ => (0xFF : Byte)) s.flash.bytes

/-- Every reserved bit of every register is zero (R15). -/
def Regs.reserved (s : State) : Prop := ∀ a, s.reg a &&& ~~~definedMask a = 0

/-! ### An instruction that runs at once -/

/-- The core that executes a command, for the commands that are instructions of the opcode map (R285). -/
def executedBy : Instr → Option (Fin 16)
  | .nop c => some c
  | .drop c => some c
  | .dup c => some c
  | .stackSwap c => some c
  | .stackOver c => some c
  | .rot c => some c
  | .nip c => some c
  | .tuck c => some c
  | .drop2 c => some c
  | .dup2 c => some c
  | .pick c _ => some c
  | .sync c => some c
  | .wait c => some c
  | .lit8 c _ => some c
  | .lit16 c _ => some c
  | .lit32 c _ => some c
  | .lith c _ => some c
  | .frd c _ => some c
  | .fwr c _ => some c
  | .add c => some c
  | .sub c => some c
  | .neg c => some c
  | .abs c => some c
  | .mulq c => some c
  | .muli c => some c
  | .macq c => some c
  | .msuq c => some c
  | .min c => some c
  | .max c => some c
  | .shl c _ => some c
  | .shr c _ => some c
  | .lsr c _ => some c
  | .satw c => some c
  | .div c _ => some c
  | .lim c => some c
  | .and c => some c
  | .or c => some c
  | .xor c => some c
  | .not c => some c
  | .ceq c => some c
  | .cne c => some c
  | .clt c => some c
  | .cle c => some c
  | .cgt c => some c
  | .cge c => some c
  | .cltu c => some c
  | .cz c => some c
  | .cn c => some c
  | .crcb c _ _ => some c
  | .crcw c _ _ => some c
  | .bcrc c _ _ _ => some c
  | .par c => some c
  | .brev8 c => some c
  | .brev16 c => some c
  | .brev32 c => some c
  | .ld c _ _ => some c
  | .ldh c _ => some c
  | .ldqh c _ => some c
  | .ldb c _ => some c
  | .ldbs c _ => some c
  | .ldx c _ => some c
  | .st c _ _ => some c
  | .sth c _ => some c
  | .stqh c _ => some c
  | .stb c => some c
  | .stx c => some c
  | .bmov c _ => some c
  | .bmac c _ => some c
  | .br c _ => some c
  | .bz c _ => some c
  | .bnz c _ => some c
  | .bv c _ => some c
  | .bnv c _ => some c
  | .bc c _ => some c
  | .bnc c _ => some c
  | .bsv c _ => some c
  | .bnsv c _ => some c
  | .jmp c _ => some c
  | .jmpi c => some c
  | .call c _ _ => some c
  | .calli c _ => some c
  | .ret c => some c
  | .loop c _ => some c
  | .trap c _ => some c
  | .reti c => some c
  | .mfc c _ => some c
  | .mtc c _ => some c
  | .icinv c => some c
  | .icinva c => some c
  | .sflush c _ => some c
  | .tlbinv c => some c
  | .tlbinva c => some c
  | .fence c => some c
  | .shadowPrgRead c => some c
  | .emergClear c => some c
  | .unlockAll c => some c
  | .undefinedOpcode c _ => some c
  | _ => none

/-- Core `c` can run an instruction of `len` bytes at once: it executes, no long instruction is in progress or to be resumed,
its bytes are fetched with no change to the core, no load is in its shadow, and the checker of a locked pair agrees with it. -/
def State.ready (s : State) (c len : Nat) : Prop :=
  s.executes c = true ∧ (s.core c).job = none ∧ (s.core c).progress = 0 ∧ (s.core c).shadow = none ∧
    fetchCheck c (s.core c).pc.toNat len s = .ok () s ∧ s.agrees c

/-- The state after a step that takes core `c` from `s` to `t`, which reads memory at the addresses `reads`: where it is the primary of
a locked pair, its checker, which agrees with it, has come to the same record and the same TCMs, and the outputs of the two, alike but
for what `fault` makes of them, have entered the delay registers, where the pair's outputs of two instructions before are compared
(R360, R361). -/
def State.joinedReads (s : State) (reads : List Nat) (fault : CmpReport) (c : Nat) (t : State) : State :=
  if s.pairState (c / 2) = 1 then
    delayEntry (c / 2) { before := s.checkerMark (c + 1), pc := (s.core c).pc, primary := coreOut c reads s t,
                         checker := coreOut c reads s t, fault := fault }
      (joinChecker c t t)
  else t

/-- The same for a step that is no block instruction. -/
def State.joinedWith (s : State) (fault : CmpReport) (c : Nat) (t : State) : State := s.joinedReads [] fault c t

/-- The same with no fault in the comparison. -/
def State.joined (s : State) (c : Nat) (t : State) : State := s.joinedWith noFault c t

/-- The same for a block instruction, whose operands at the places `l` from the top are the addresses at which it reads. -/
def State.joinedBlock (s : State) (c : Nat) (l : List Nat) (t : State) : State := s.joinedReads (s.blockReads c l) noFault c t

/-- Stack `i` of core `c` passes the checks of R265 for `pops` pops and then `outs` pushes, its cache holds the cells that are
popped, and it has room for those that are pushed. -/
def State.stackReady (s : State) (c : Nat) (i : StackId) (pops outs : Nat) : Prop :=
  (s.stack c i).check i pops outs = none ∧
    (∀ j < pops, ((s.stack c i).cached ((s.stack c i).ptr.toNat + 8 * j)).isSome = true) ∧
    ((s.stack c i).others (s.stack c i).ptr.toNat ((s.stack c i).ptr.toNat + 8 * pops)).length + outs ≤ i.depth

/-- The core as an instruction finds it: the PRG that RETI restored no longer counts (R301). -/
def State.coreNow (s : State) (c : Nat) : Core := { s.core c with prgLive := false }

/-- The state as an instruction of core `c` finds it. -/
def State.begun (s : State) (c : Nat) : State := s.setCore c (s.coreNow c)

/-- The bytes of an instruction of `len` bytes of core `c`, and those after it in execution order that the core has fetched when it
executes it: they stay as they were fetched under translations and cache lines that the instruction removes (R257, R347). -/
def State.ahead (s : State) (c len : Nat) : List Nat :=
  (List.range len).map (fun j => (s.core c).pc.toNat + j) ++ (s.begun c).aheadOf c len

/-- A data access of core `c` of `size` bytes at virtual address `va` passes every check of R338 and reaches physical address
`p`, with no change to the state: it fills no TLB entry, and a write has no D to set; `word` says that it is the aligned 32-bit LD
or ST that registers take. -/
def State.reaches (s : State) (c va size : Nat) (write word : Bool) (p : Nat) : Prop :=
  translate c { va := va, size := size, write := write, fetch := false, user := (s.core c).user, word := word } s = .ok p s ∧
    (write = true → setDirty c va s = s)

/-- Operand `j`, from the top, of the current data stack of core `c`. -/
def State.operand (s : State) (c j : Nat) : Cell := narrow ((s.stack c (s.core c).dataId).top j)

/-- The state after an instruction of `len` bytes of core `c` that leaves the core as `k`, has popped `pops` cells of the
current data stack and pushed the cells `r`, deepest first, and goes on as `flow` says: only core `c` differs. -/
def State.after (s : State) (c len pops : Nat) (k : Core) (r : List Cell) (flow : Flow) : State :=
  s.setCore c ((k.setStack (s.core c).dataId (((k.stack (s.core c).dataId).drop pops).pushAll r)).complete len flow)

/-- An exact result lies outside the range of a cell (R273). -/
def overflows (x : Int) : Bool := decide (x < -(2 ^ 39)) || decide (2 ^ 39 - 1 < x)

/-- The core after an exact result: V says whether the result overflowed, and an overflow under SAT sets SV (R273). -/
def Core.flagged (k : Core) (x : Int) : Core :=
  if overflows x && k.effective Psw.sat then (k.setPsw Psw.v true).setPsw Psw.sv true else k.setPsw Psw.v (overflows x)

/-- The cell of an exact result: the nearest bound under SAT, and otherwise the result modulo 2^40 (R273). -/
def Core.fitted (k : Core) (x : Int) : Cell :=
  BitVec.ofInt 40 (if k.effective Psw.sat then (if x < -(2 ^ 39) then -(2 ^ 39) else if 2 ^ 39 - 1 < x then 2 ^ 39 - 1 else x)
    else x)

/-- An exact result raises no exception: it does not overflow, or OVE is 0 (R273). -/
def Core.takes (k : Core) (x : Int) : Prop := overflows x = false ∨ k.effective Psw.ove = false

/-! ### Law engines -/

/-- Engine `n` executes an operation with code `code` now: it runs, nothing waits, the operation is not skipped, and neither its E
bit nor MAX_OPS ends the run (R208 to R210, R215). -/
def State.lawGoes (s : State) (n code : Nat) : Prop :=
  s.lawAt n code = true ∧ (s.law n).skip = false ∧ opE (s.lawOp n (s.law n).pc) = false ∧ code ≠ 0 ∧
    (s.law n).ops + 1 < s.fld (A.LE_RUNCFG n) F.LE_RUNCFG_MAX_OPS

/-- The state in the rc in which engine `n` executes its next operation. -/
def State.lawNow (s : State) (n : Nat) : State := s.passTo (s.law n).nextRc

/-- The state after an operation of engine `n` that leaves `s` and goes on at `pc`: STATUS.PC names the operation, one more is
counted, and the next one may execute in the next rc (R210, R216). -/
def State.lawAfter (s : State) (n pc : Nat) : State :=
  (s.setFld (A.LE_STATUS n) F.LE_STATUS_PC (s.law n).pc).setLaw n
    { s.law n with pc := pc % 1024, ops := (s.law n).ops + 1, nextRc := s.rc + 1, wait := .none }

/-- S[w] of engine `n` takes an exact result: the nearest value of a state word, and SAT when it is not the result (R204). -/
def State.lawTakes (s : State) (n w : Nat) (x : Int) : State :=
  (s.setLawWord n w (BitVec.ofInt 40 (max (-(2 ^ 39)) (min x (2 ^ 39 - 1))))).setBitIf
    (decide (x < -(2 ^ 39)) || decide (2 ^ 39 - 1 < x)) (A.LE_STATUS n) F.LE_STATUS_SAT

/-! ### Outcomes up to the listing of registers -/

/-- `t` is `u`, but that its register map may list a register that `u` does not list, with the same word. -/
def State.like (t u : State) : Prop := t = { u with regs := t.regs } ∧ ∀ a, t.reg a = u.reg a

/-- The command answers a next state, and that state is `u` up to the listing of registers. -/
def Answers (i : Instr) (s u : State) : Prop := ∃ t, exec i s = .next t ∧ t.like u

/-- Software may write the register at `a`: a core runs, the function of the register does not run at the basic level, and no
reserved bit of a register is set. -/
def State.writable (s : State) (a : Nat) : Prop := s.runnerOn = true ∧ s.basicAt a = false ∧ Regs.reserved s

/-- A write of the register at `a` starts, stops, sends or clears something beyond its own fields: a command, an enable that a block
acts on, a word of another store, or a flag that clears with others. -/
def commandRegister (a : Nat) : Bool :=
  decide (a ∈ [A.RST_CTRL, A.RST_WDOG, A.RST_WDOG_KICK, A.BOOT_CTRL, A.SUP_IO_FAULT, A.WC_RB_SEL, A.QUENCH_CTRL, A.QUENCH_RELEASE,
    A.RUN_AUDIT_CTRL, A.FLASH_CMD, A.FLASH_INTERRUPTED, A.TW_SYS_CTRL, A.HOST_LINK, A.SESSION_REPLY_CTRL]) ||
  (stateWordAt a).isSome ||
  ([(A.MD_CTRL 0, 0x10, 96), (A.XB_CTRL 0, 0x10, 64), (A.DEC_CTRL 0, 0x80, 160), (A.WC_THR 0, 0x10, 96), (A.SV_CTRL 0, 0x400, 8),
    (A.SV_URGENT 0, 0x400, 8), (A.TC_CTRL 0, 0x20, 256), (A.RUN_PUSH_LO, 4, 6), (A.LE_CTRL 0, 0x4000, 32), (A.LE_STATUS 0, 0x4000, 32),
    (A.PG_CTRL 0, 0x80, 48), (A.PG_ACC_CTRL 0, 0x80, 48), (A.IC_SWI_SET 0, 4, 8), (A.LD_CTRL 0, 0x100, 8), (A.LD_STATUS 0, 0x100, 8),
    (A.FLASH_PWD 0, 4, 4), (A.TW_CTRL 0, 0x400, 4), (A.TW_AUDIT_CTRL 0, 0x400, 4), (A.TW_DEAD_INFO 0, 0x400, 4), (A.ASSAY_REQ 0, 4, 3),
    (A.ASSAY_CANCEL 0, 4, 3)] : List (Nat × Nat × Nat)).any (fun q => (place q.1 q.2.1 q.2.2 a).isSome) ||
  (decide (A.ETH_MGMT_CTRL 0 ≤ a) && decide (a < A.SESSION_CTRL))

/-! ### Tokens -/

/-- The payload that the producer at endpoint `code` holds ready to issue (R182): a path's or converter's oldest buffered result, an
OUT that waits for a credit, a landed Twiast token, the oldest entry of a core's push buffer, or what a Ladle SOURCE has read. -/
def State.offers (s : State) (code : Nat) : Option Payload :=
  if code < 0x0A0 then (s.path code false).buf.head?
  else if code < 0x140 then (s.path (code - 0x0A0) true).buf.head?
  else if 0x1C0 ≤ code ∧ code < 0x240 then
    let n := (code - 0x1C0) / 4
    let w := s.lawOp n (s.law n).pc
    if s.lawRunning n && decide ((s.law n).wait = .credit) && !(s.law n).skip && decide (opCode w = 0x19) &&
        decide (opX w % 4 = (code - 0x1C0) % 4) then
      some (BitVec.ofInt 32 (satWord (s.S n (opB w))) ++ BitVec.ofInt 32 (satWord (s.S n (opA w))))
    else none
  else if 0x2A0 ≤ code ∧ code < 0x2A8 then (s.sv (code - 0x2A0)).buf.head?
  else if 0x2B8 ≤ code ∧ code < 0x2BC then (s.port (code - 0x2B8)).localBuf.head?.map TwToken.payload
  else if 0x2C0 ≤ code ∧ code < 0x300 then
    match (s.push ((code - 0x2C0) / 4)).buf.head? with
    | some e => if e.1 = (code - 0x2C0) % 4 then some e.2 else none
    | none => none
  else if 0x388 ≤ code ∧ code < 0x390 then (if s.ldRuns (code - 0x388) 2 then (s.ladle (code - 0x388)).payload else none)
  else none

/-- The accounts of channel `n` and of the Riser stand as R191 says, and channels are listed in rising order. -/
def State.accounted (s : State) (n : Nat) : Prop :=
  s.channelBalanced n = true ∧ s.riserFree + s.riserTokens + s.assayTokens = 64 ∧ s.chans.Pairwise (fun p q => p.1 < q.1)

/-- The consumers of channel `n` by position, each with whether its block is disabled (R195). -/
def State.consumersNow (s : State) (n : Nat) : List (Nat × Bool) := (s.consumers n).map (fun p => (p.1, s.consumerDisabled p.2))

/-- The queue `q` of channel `n` once its head has been offered: the consumers whose blocks are disabled take it as accepted. -/
def State.headed (s : State) (n : Nat) : List Token → List Token
  | [] => []
  | t :: ts => t.passing (s.consumersNow n) :: ts

/-- Some consumer of channel `n` is enabled and has accepted no token that the channel holds. -/
def State.awaited (s : State) (n : Nat) : Prop :=
  ∃ p ∈ s.consumers n, s.consumerDisabled p.2 = false ∧ ∀ t ∈ (s.chan n).queue, t.takenBy p.1 = false

/-- A step that goes on, to `t`. -/
def StepsTo (s t : State) : Prop := step s = .next t

/-- A run of steps from `s` to `t`. -/
inductive Runs : State → State → Prop where
  | refl (s : State) : Runs s s
  | next {s t u : State} : StepsTo s t → Runs t u → Runs s u

end Sys2Proof.Machine
end

