-- ==== Sys2Proof/Certificates/Slice0/Obligations.lean ====
section
/-! DEFINITION. The statements for the provers. -/

open Sys2Proof Sys2Proof.Machine

/-! ### The whole machine -/

/-- A step runs the command at the front of the queue with the queue's rest; on an empty queue one rc passes while the device runs,
and nothing changes otherwise (the model's choice, log entry 6; R197). What passes with the rc is what each rc counts: the capture
latches, the waits of producers and engines, and what the delay registers of locked pairs hold; where none of these stands, only the
time moves. -/
def Obligations.StepRunsTheFrontCommand : Prop :=
  ∀ (c : Instr) (s : State),
    step { s with pending := c :: s.pending } = exec c s ∧
    (s.pending = [] → s.alive = true → step s = .next (drainDelays (s.passTo (s.rc + 1)))) ∧
    (s.pending = [] → s.alive = true → s.wcs = [] → s.chans = [] → s.laws = [] → (∀ p < 8, s.delayed p = []) → ∃ t, step s = .next t ∧
      t.rc = s.rc + 1 ∧ t.timeBase = s.timeBase + 1 ∧ t = { s with rc := t.rc, timeBase := t.timeBase, delays := t.delays }) ∧
    (s.pending = [] → s.alive = false → step s = .next s)

/-- Every command answers a next state, and no command changes the queue: the block neither faults nor refuses. That a command whose
conditions do not hold is turned away inside the device, and answers too, is the model's own choice (log entry 8). -/
def Obligations.CommandsAnswerAndKeepTheQueue : Prop :=
  ∀ (c : Instr) (s : State), Memory.wf s = true → Regs.reserved s → ∃ t, exec c s = .next t ∧ t.pending = s.pending

/-- Every step keeps the memories in canonical form: addresses rise and nothing is listed at its erased value. -/
def Obligations.StepsKeepTheMemoriesCanonical : Prop :=
  ∀ s t : State, Regs.reserved s → Memory.wf s = true → step s = .next t → Memory.wf t = true

/-- Every step keeps every reserved field of every register at zero, whatever a command writes (R15). -/
def Obligations.StepsKeepReservedFieldsZero : Prop :=
  ∀ s t : State, Memory.wf s = true → Regs.reserved s → step s = .next t → Regs.reserved t

/-- The state right after reset: memories canonical, reserved fields zero, the queue empty, every register at the value of its
table, every core not started with the PSW, vector bases and supervisor windows of R283, and the Riser's 64 slots free. -/
def Obligations.ResetLeavesTheTableValues : Prop :=
  Memory.wf State.reset = true ∧ Regs.reserved State.reset ∧ State.reset.pending = [] ∧
    (∀ a, State.reset.reg a = resetWord a) ∧ State.reset.riserFree = 64 ∧
    (∀ c : Nat, let k := State.reset.core c
      k.started = false ∧ k.psw = 0x01000040 ∧ k.evbase = 0 ∧ k.ivbase = 0x4000 ∧ k.ds.ptr = 0x3F000 ∧ k.ds.lo = 0x3E000 ∧
        k.ds.hi = 0x3F000 ∧ k.rs.ptr = 0x3FF00 ∧ k.rs.lo = 0x3F000 ∧ k.rs.hi = 0x3FF00 ∧ k.rlevel = 0 ∧ k.icache = [] ∧
        k.tlb = [])

/-! ### Register writes -/

/-- A write acts on each field of a register by its access code (R12, R13, R15, R16, R28): RW fields take their value, W1C bits
clear, W1S bits set, every other bit stays. A field that a write may not change, PT or held at the basic level, keeps its value, and a
write that carries another one for it sets the block's CFG_REJECT (R464); so does, in a field that it may change, a reserved encoding, a
change that the block's present state guards, and a value that it forbids. A write that a block refuses as a whole sets CFG_REJECT
alone, and one to an offset that no chapter lists changes nothing. For every register whose writes start nothing else; the sources that
a write lowers while the clocks stand stay caught (log entry 55). -/
def Obligations.RegisterWritesActByAccessCode : Prop :=
  ∀ (s : State) (who : Requester) (a : Nat) (w : Word), s.mayWrite who = true → Regs.reserved s → commandRegister a = false →
    let answers := fun (f : State → State) => Answers (.registerWrite who a w) s (s.latching f)
    (regDefAt a = none → answers id) ∧
    (∀ d, regDefAt a = some d → s.refusedWhole who a w = true → answers (fun s => s.refuse a)) ∧
    (∀ d, regDefAt a = some d → s.refusedWhole who a w = false → ∃ v,
      let differs := fun (f : FieldDef) => fieldOf w ⟨f.hi, f.lo⟩ ≠ fieldOf (s.reg a) ⟨f.hi, f.lo⟩
      let holds := fun (m : Word) (f : FieldDef) => m &&& fieldMask ⟨f.hi, f.lo⟩ ≠ 0
      let refused := fun (f : FieldDef) => (f.acc = .pt ∧ differs f) ∨ (f.acc = .rw ∧
        (if s.basicAt a = true ∧ s.exposedField a f = false then differs f
         else f.legal w = false ∨ (holds (s.guarded a w) f ∧ differs f) ∨ holds (s.forbidden a w) f))
      ((∃ f ∈ d.fields, refused f) → answers (fun s => (s.setReg a v).refuse a)) ∧
      ((∀ f ∈ d.fields, ¬ refused f) → answers (fun s => s.setReg a v)) ∧
      ∀ f ∈ d.fields, ∀ i, f.lo ≤ i → i ≤ f.hi →
        (f.acc = .rw → refused f → v.getLsbD i = (s.reg a).getLsbD i) ∧
        (f.acc = .rw → ¬ refused f → v.getLsbD i = w.getLsbD i) ∧
        (f.acc = .w1c → v.getLsbD i = ((s.reg a).getLsbD i && !w.getLsbD i)) ∧
        (f.acc = .w1s → v.getLsbD i = ((s.reg a).getLsbD i || w.getLsbD i)) ∧
        (f.acc ∉ [.rw, .w1c, .w1s] → v.getLsbD i = (s.reg a).getLsbD i))

/-! ### Supply, reset and boot -/

/-- Power comes in order (R30, R34, R37, R38, R81, R83, R84): VIN rising starts power-up with RST.CAUSE at POWER alone; a discharge
ends in no supply without VIN, in waiting while a holding cause is present, and in power-up otherwise; the end of the last holding
cause resumes power-up, and the end of an overvoltage is a rise of VIN. Power-good starts boot (R34, R83, R85, R87, R63, R435,
R436): the straps are sampled then. Where neither boot block holds a boot header, boot ends in recovery: RECOVERY is set, PCIe and Ethernet port 0 are enabled at
192.168.0.60, in 1000BASE-X, and CO_00 starts at START_PC with the monitor in its I-TCM. The block that the winning record names is
tried first, A where none wins; where it fails, the other one is; the Pattern of the first that passes is committed, and where both
fail boot ends in recovery. A holding cause withholds power-good. That steps 1 to 6 of R85 pass inside power-good is the model's choice
(log entry 13), and so is CO_00's start at START_PC in recovery (log entry 16). -/
def Obligations.DeviceComesUp : Prop :=
  (∀ (s : State),
    let p := fun (x : SupplyState) => ({ s with supply := x } : State)
    (∀ b, s.supply.vin = false → s.supply.overvoltage = false → s.supply.phase = .off →
      exec (.vinRise b) s = .next ((p { s.supply with straps := b, vin := true, overvoltage := false, phase := .ramping }).setReg
        A.RST_CAUSE 1)) ∧
    (∀ b, s.supply.vin = true ∨ s.supply.overvoltage = true → exec (.vinRise b) s = .next s) ∧
    (s.supply.overvoltage = true → s.supply.phase = .off →
      exec .vinOvervoltageEnd s = .next ((p { s.supply with vin := true, overvoltage := false, phase := .ramping }).setReg
        A.RST_CAUSE 1)) ∧
    (s.supply.phase = .discharging → ∃ t, exec .dischargeComplete s = .next t ∧
      t = { s with outs := t.outs, supply := { s.supply with
        ballsOff := [], phase := if s.supply.vin = false then .off else if s.holding then .waiting else .ramping } } ∧
      ∀ o < 192, t.out o = (if (s.out o).mode = .held then { s.out o with mode := .hiZ, pin := .z, highDue := false } else s.out o)) ∧
    (s.supply.phase = .waiting → s.supply.pinLow = false →
      (s.supply.refLost = false → exec (.holdingCauseEnd .thermal) s = .next (p { s.supply with hot := false, phase := .ramping })) ∧
      (s.supply.hot = false → exec (.holdingCauseEnd .clock) s = .next (p { s.supply with refLost := false, phase := .ramping }))) ∧
    (s.supply.phase = .waiting → s.supply.hot = false → s.supply.refLost = false →
      exec .resetPinRelease s = .next (p { s.supply with pinLow := false, phase := .ramping }))) ∧
  (∀ (s : State) (report : BootReport) (straps : BitVec 12), s.supply.phase = .ramping → s.supply.vin = true →
    (s.holding = true → exec (.powerGood ⟨report, straps⟩) s = .next { s with supply := { s.supply with phase := .discharging } }) ∧
    (s.holding = false → (∀ k < 2, s.flashWord (bootBase k) ≠ 0x42424D5A) → (s.core 0).started = false →
      ∃ t, exec (.powerGood ⟨report, straps⟩) s = .next t ∧
        t.supply = { s.supply with phase := .good, committed := true, straps := straps } ∧
        t.host = { s.host with pcieRef := report.pcieRef, lineModes := mapInsert s.host.lineModes 0 .base1000X } ∧ t.bit A.BOOT_STATUS F.BOOT_STATUS_RECOVERY = true ∧ t.reg A.HOST_EN = 3 ∧ t.reg (A.ETH_MGMT_IPV4 0) = 0xC0A8003C ∧
        t.reg A.IOMUX_BANK_LEVEL = straps.setWidth 32 ∧ t.core 0 = (s.core 0).startAt (s.reg A.BOOT_START_PC) ∧
        (∀ i < 0x20000, mapGet (fun _ => 0) t.mem (0xF0000000 + i) = factoryFlash i) ∧
        (∀ c : Nat, 0 < c → (c = 1 → s.pairLocked 0 = false) → t.core c = s.core c) ∧ t.pending = s.pending) ∧
    (s.holding = false →
      let u := loadMac (flashStart ((({ s with supply := { s.supply with phase := .good, straps := straps } } : State).setReg
        A.IOMUX_BANK_LEVEL (straps.setWidth 32)).setReg A.CLK_STATUS 0xF))
      let u := { u with host := { u.host with pcieRef := report.pcieRef } }
      let k := u.bootActive
      let first := tryBlock k (report.badRead.getLsbD k) u
      exec (.powerGood ⟨report, straps⟩) s = .next (match first.found with
        | some p => bootWith k k report true p.1 (noteTry k first p.2)
        | none =>
          let v := noteTry k first u
          let second := tryBlock (1 - k) (report.badRead.getLsbD (1 - k)) v
          match second.found with
          | some p => bootWith (1 - k) k report true p.1 (noteTry (1 - k) second p.2)
          | none => recover (noteTry (1 - k) second v))))

/-- Every source of R80 that meets a powered device leaves the same state (R36, R80, R83, R84, R158, R467): registers, memories,
cores and blocks at reset, RST.CAUSE with its bit set, the flash and the journal as they were, the lockouts kept, VMID discharging,
each PWM output that had left Z held at its safe state, low first where that is high, and the balls that R41 switched off still off
(the model's choice, log entry 88). What the clamp leaves in POWER, the zero that a loss of VIN leaves and what becomes of the limits'
record are the model's choice (log entry 43). A loss of VIN clears RST.CAUSE, and a clamp leaves POWER. The watchdog,
output release and the start of cores (R91, R92, R94, R95): enabling loads the countdown, and a TIMEOUT of 0 is refused; a kick
reloads it; RELEASE sets RELEASED, puts every output to wait for its boundary and arms Quench, a second one does nothing, and a write
in user mode, or in recovery, is refused; CORE_START starts a core, or both cores of a locked pair, at START_PC, but a held pair and
the checker of a locked pair refuse. -/
def Obligations.ResetsAndReleases : Prop :=
  (∀ (s : State) (who : Requester), s.supply.phase = .good → s.supply.vin = true → s.supply.power ≠ .dormant →
    Regs.reserved s → (∀ c < 16, (s.core c).stores = []) → s.flash.job = none → s.flash.suspended = none →
    let leaves := fun (i : Instr) (cause : Word) (x : SupplyState) => ∃ t, exec i s = .next t ∧
      t = { State.reset with
        regs := t.regs, outs := t.outs, journal := s.journal, flash := s.flash,
        poison := s.poison.filter (fun a => decide (regionOf a = .flash) || decide (regionOf a = .journal)),
        upsets := s.upsets.filter (fun p => decide (regionOf p.1 = .flash) || decide (regionOf p.1 = .journal)),
        host := { HostState.reset with fails := s.host.fails, responses := s.host.responses, readData := s.host.readData },
        twSys := { TwSystem.reset with epoch := s.twSys.epoch },
        supply := { SupplyState.reset with
          phase := .discharging, vin := x.vin, overvoltage := x.overvoltage, pinLow := x.pinLow, hot := x.hot,
          refLost := x.refLost, straps := x.straps, ballsOff := s.supply.ballsOff },
        gpio := s.gpio, freeCount := s.freeCount, pending := s.pending } ∧
      t.reg A.RST_CAUSE = cause ∧ (∀ a, a ≠ A.RST_CAUSE → a ≠ A.SESSION_STATUS → t.reg a = resetWord a) ∧
      t.fld A.SESSION_STATUS F.SESSION_STATUS_LOCKOUT = s.fld A.SESSION_STATUS F.SESSION_STATUS_LOCKOUT ∧
      (∀ o < 192, (s.out o).mode ∉ [.hiZ, .await, .held] → (t.out o).mode = .held ∧
        (t.out o).pin = (if s.safeOf o = 2 then .z else .low) ∧ (t.out o).highDue = decide (s.safeOf o = 1)) ∧
      (∀ o < 192, (s.out o).mode = .held → (t.out o).mode = .held ∧ (t.out o).pin = (s.out o).pin ∧
        (t.out o).highDue = (s.out o).highDue) ∧
      (∀ o < 192, (s.out o).mode = .hiZ ∨ (s.out o).mode = .await → t.out o = OutState.init)
    leaves .resetPin (s.reg A.RST_CAUSE ||| 2) { s.supply with pinLow := true } ∧
    leaves .thermalTrip (s.reg A.RST_CAUSE ||| 4) { s.supply with hot := true } ∧
    leaves (.clockLoss true) (s.reg A.RST_CAUSE ||| 8) { s.supply with refLost := true } ∧
    leaves (.clockLoss false) (s.reg A.RST_CAUSE ||| 8) s.supply ∧
    (s.mayWrite who = true → s.basicAt A.RST_CTRL = false → leaves (.softReset who) (s.reg A.RST_CAUSE ||| 16) s.supply) ∧
    (s.bit A.RST_WDOG F.RST_WDOG_EN = true → leaves .wdogExpiry (s.reg A.RST_CAUSE ||| 32) s.supply) ∧
    (∀ high, leaves (.vinLoss high) 0 { s.supply with vin := false, overvoltage := high }) ∧
    leaves .vmidClamp 1 s.supply) ∧
  (∀ (s : State) (who : Requester), s.mayWrite who = true → Regs.reserved s → s.basicAt A.RST_WDOG = false →
    (∀ n : BitVec 24, n ≠ 0 → s.bit A.RST_WDOG F.RST_WDOG_EN = false →
      Answers (.wdogEnable who n) s ({ s with supply := { s.supply with wdog := n.toNat } }.setReg A.RST_WDOG
        (0x80000000 ||| n.setWidth 32))) ∧
    (s.fld A.RST_WDOG F.RST_WDOG_TIMEOUT = 0 →
      Answers (.wdogEnable who 0) s (s.setBit A.BOOT_STATUS F.BOOT_STATUS_CFG_REJECT)) ∧
    exec (.wdogKick who) s = .next { s with supply := { s.supply with wdog := s.fld A.RST_WDOG F.RST_WDOG_TIMEOUT } } ∧
    (byUser who = false → s.released = false → s.releaseBlocked = false → ∃ t, exec (.release who) s = .next t ∧
      t.bit A.BOOT_STATUS F.BOOT_STATUS_RELEASED = true ∧ t.bit A.QUENCH_STATUS F.QUENCH_STATUS_ARMED = true ∧
      t.cores = s.cores ∧ t.pending = s.pending ∧ ((∀ g < 16, s.groupCause g = none) → ∀ o < 192,
        (s.out o).mode = .hiZ → s.pgOutEn (o / 4) (o % 4) = true → s.pgDisabled (o / 4) = false → (t.out o).mode = .await)) ∧
    (byUser who = false → s.released = true → exec (.release who) s = .next s) ∧
    (byUser who = true ∨ s.released = false ∧ s.bit A.BOOT_STATUS F.BOOT_STATUS_RECOVERY = true →
      Answers (.release who) s (s.setBit A.BOOT_STATUS F.BOOT_STATUS_CFG_REJECT)) ∧
    (∀ c : Fin 16, s.startRefused c = false → (s.core c).started = false →
      let one := (s.setFld A.BOOT_CTRL F.BOOT_CTRL_CORE_START (s.fld A.BOOT_CTRL F.BOOT_CTRL_CORE_START ||| 2 ^ c.val)).setCore c
        ((s.core c).startAt (s.reg A.BOOT_START_PC))
      Answers (.coreStart who (BitVec.ofNat 16 (2 ^ c.val))) s (if s.pairLocked (c / 2) then
        one.setCore (c + 1) ((s.core (c + 1)).startAt (s.reg A.BOOT_START_PC)) else one)) ∧
    (∀ c : Fin 16, s.startRefused c = true → Answers (.coreStart who (BitVec.ofNat 16 (2 ^ c.val))) s
      (s.setBit A.BOOT_STATUS F.BOOT_STATUS_CFG_REJECT)))

/-! ### Limits and power states -/

/-- Current limits, averages and the thermal scan (R41, R43, R49, R58, R175): limit time accumulates across interruptions; a ball
with 10 ms in limit is switched off, VALID is set, BALL names the first such ball and COUNT counts; 100 ms out of limit clear its
time; clearing VALID lets every ball drive (the limits' record is read as log entry 42 says). An average sets PM.POWER and warns when VIN falls below the threshold; a scan stores
eight temperatures, calibrated with SV_7's OFFSET and GAIN by the model's choice (log entry 77), and warns when Tj rises above it. -/
def Obligations.LimitsAndAverages : Prop :=
  ∀ (s : State) (p e : Nat),
    let x := s.ballLimit p
    (∀ on, on = false ∨ s.ballDrives p = true → exec (.currentLimitChange p on e) s =
      .next (s.setBallLimit p ⟨on, if x.inLimit then x.spent + e else x.spent⟩)) ∧
    (s.ballDrives p = true → x.inLimit = true → 10000 ≤ x.spent + e → ∃ t, exec (.currentLimitTrip p e) s = .next t ∧
      t = { s with regs := t.regs, supply := { s.supply with limits := t.supply.limits, ballsOff := s.supply.ballsOff ++ [p] } } ∧
      (∀ a, a ≠ A.SUP_IO_FAULT → t.reg a = s.reg a) ∧ t.bit A.SUP_IO_FAULT F.SUP_IO_FAULT_VALID = true ∧
      t.fld A.SUP_IO_FAULT F.SUP_IO_FAULT_COUNT = min 255 (s.fld A.SUP_IO_FAULT F.SUP_IO_FAULT_COUNT + 1) ∧
      t.fld A.SUP_IO_FAULT F.SUP_IO_FAULT_BALL = (if s.bit A.SUP_IO_FAULT F.SUP_IO_FAULT_VALID then
        s.fld A.SUP_IO_FAULT F.SUP_IO_FAULT_BALL else p) ∧ t.ballLimit p = ⟨false, 0⟩) ∧
    (x.inLimit = false ∨ s.ballDrives p = false → exec (.limitTimeClear p) s = .next (s.setBallLimit p ⟨false, 0⟩)) ∧
    (∀ who, s.mayWrite who = true → s.basicAt A.SUP_IO_FAULT = false → Regs.reserved s →
      exec (.ioFaultClear who) s =
        .next (s.latching (fun s => ({ s with supply := { s.supply with ballsOff := [] } } : State).setReg A.SUP_IO_FAULT 0))) ∧
    (∀ v w : BitVec 12, s.alive = true → s.testing = 0 →
      let below := decide (v.toNat < s.fld A.SUP_VIN_WARN F.SUP_VIN_WARN_THRESH)
      let u : State := { s with supply := { s.supply with vinBelow := below, pBase := w.toNat } }.setReg A.PM_POWER
        (fieldBits F.PM_POWER_VIN v.toNat ||| fieldBits F.PM_POWER_P_IN w.toNat)
      exec (.powerAverage v w) s =
        .next (if below ∧ s.supply.vinBelow = false then u.setBit A.SUP_STATUS F.SUP_STATUS_VIN_WARN else u)) ∧
    (∀ raws : List (BitVec 24), raws.length = 8 → s.alive = true → ∃ t, exec (.thermalScan raws) s = .next t ∧
      (∀ k : Fin 8, t.fld (A.SV_TEMP k) F.SV_TEMP_VALUE = (s.svValue 7 (raws.getD k 0)).toNat / 256) ∧
      t.supply = { s.supply with tjAbove := t.tjOver } ∧
      t.bit A.SUP_STATUS F.SUP_STATUS_TJ_WARN = (s.bit A.SUP_STATUS F.SUP_STATUS_TJ_WARN || (t.tjOver && !s.supply.tjAbove)) ∧
      t = { s with regs := t.regs, supply := t.supply })

/-- The power states (R51, R53, R54, R56): the device enters the deepest state that its conditions allow, IDLE at once and the
others once the signal path has come to rest: a local or group heat that would start while an entry is under way ends the heats, every
token is retired, HOLD waits until every Survey converter is quiet (R178), each running PWM group is to stop at its next boundary and
one that waits goes safe (R252), after which the state is entered (what entry waits for is log entry 54). DORMANT keeps the always-on registers, the flash and the journal, and of the rest what only
a full reset clears (log entry 90). A watched source that rises abandons an entry (R55; for DORMANT the model's choice, log entry 83)
or returns the device to RUN, also when its level has fallen again, but a level as high as when the clocks stopped does not; the
controller names the first source it caught (R324; when levels are looked at, and which source is the first, is log entry 55). DORMANT ends when the
WAKE ball rises, or when PM.ALARM reaches zero (R56, R58, R93): PM.STATUS names the cause and DORMANT, the device boots in that command (log entry 13), and in a
device without a boot header boot ends in recovery. A rising WAKE ball abandons an entry to DORMANT. -/
def Obligations.PowerStatesAndDormant : Prop :=
  (∀ (s : State),
    let goesOn := fun (g : Nat) => s.pgRunning g = true ∨ (s.pg g).next.isSome = true ∨ s.pgPending g = true
    let waits := fun (g : Nat) => ¬ goesOn g ∧ s.pgEn g = true ∧ (s.pg g).holdStop = false
    let madeSafe := fun (t : State) (g : Nat) => ∀ j < 4, (s.out (4 * g + j)).mode = .await → (t.out (4 * g + j)).mode = .stopped ∧
      (t.out (4 * g + j)).pin = (if s.safeOf (4 * g + j) = 2 then .z else
        if s.safeOf (4 * g + j) = 1 ∧ (s.out (4 * g + j)).pin = .high then .high else .low)
    (s.supply.power = .run → s.supply.entering = none → s.flash.suspended = none →
      (∀ p, s.maySleep = true → s.sleepFits p = true → p.code ≤ s.sleepTarget.code) ∧
      exec .sleepEntry s = .next { s with supply := match s.sleepTarget with
        | .run => s.supply
        | .idle => { s.supply with power := .idle, highAtStop := s.highSources, risen := [] }
        | p => { s.supply with entering := some p } }) ∧
    (s.runnerOn = true → s.supply.entering ≠ none →
      (s.fld A.RUN_HEAT_CFG F.RUN_HEAT_CFG_SRC = 1 →
        exec .heatStart s = .next (({ s.passTo (s.heatDue.getD s.rc) with heatDue := none } : State).clrBit A.RUN_STATUS
          F.RUN_STATUS_HEAT_RUNNING)) ∧
      (∀ g, s.heatRef g = true → s.pgRunning g = true → (s.pg g).start / 64 = s.rc → s.heatLast ≠ some s.rc →
        exec .heatStart s = .next (({ s with heatDue := none } : State).clrBit A.RUN_STATUS F.RUN_STATUS_HEAT_RUNNING))) ∧
    (s.settled = true → s.supply.entering = some .hold ∨ s.supply.entering = some .dormant → s.flash.suspended = none →
      s.pgsStopped = false → ∃ t, exec .entryComplete s = .next t ∧
        t = { s with pgs := t.pgs, outs := t.outs, regs := t.regs, alarm := t.alarm } ∧ (∀ g < 48,
          (goesOn g → t.pg g = { s.pg g with holdNext := true } ∧ ∀ j < 4, t.out (4 * g + j) = s.out (4 * g + j)) ∧
          (waits g → (t.pg g).holdStop = true ∧ madeSafe t g))) ∧
    (s.settled = true → s.supply.entering = some .hold → s.pgsStopped = true → ∃ t, exec .entryComplete s = .next t ∧
      t.supply = { s.supply with power := .hold, entering := none, highAtStop := t.supply.highAtStop, risen := [] } ∧
      t.bit A.RUN_STATUS F.RUN_STATUS_HEAT_RUNNING = false ∧ (∀ g < 48, (t.pg g).next = none ∧
        (s.pgEn g = true → (t.pg g).holdStop = true) ∧ (waits g → madeSafe t g)) ∧
      (∀ n < 8, (t.sv n).paused = true ∧ t.svPowered n = false) ∧ t.cores = s.cores ∧ t.mem = s.mem ∧ t.chans = s.chans) ∧
    (s.settled = true → s.supply.entering = some .dormant → s.pgsStopped = true → s.flash.job = none →
      s.flash.suspended = none → (∀ c < 16, (s.core c).stores = []) → Regs.reserved s →
      (∀ g < 48, s.pgEn g = true → (s.pg g).holdStop = true) → ∃ t, exec .entryComplete s = .next t ∧
      t.supply.power = .dormant ∧ t.supply.phase = .good ∧ t.supply.wdog = s.supply.wdog ∧ t.cores = s.haltedCores ∧ t.mem = [] ∧
      t.flash = s.flash ∧ t.journal = s.journal ∧ t.alarm = s.alarm ∧ (∀ a ∈ dormantRegs, t.reg a = s.reg a) ∧
      (∀ a, a ∉ dormantRegs → a ≠ A.SESSION_STATUS → t.reg a = resetWord a ||| (s.reg a &&& s.resetOnly a))) ∧
    (∀ (c : Fin 16) (i : Fin 384) (r : BootReport), s.alive = true → s.watched c i = true →
      let rose := i.val ∈ s.supply.risen ∨ (s.source i = true ∧ i.val ∉ s.supply.highAtStop)
      (s.supply.power = .run → s.source i = true → ∃ t, exec (.wakeEvent (.interrupt c i) r) s = .next t ∧
          t = { s with supply := t.supply, regs := t.regs, svs := t.svs, pgs := t.pgs } ∧
          t.supply = { s.supply with entering := none } ∧
          (s.supply.entering = none → t = s) ∧
          (s.supply.entering ≠ none → ∀ g < 48, t.pgRunning g = true → (t.pg g).holdNext = false)) ∧
      (∀ p, p = .idle ∨ p = .hold → s.supply.power = p →
        (¬ rose → exec (.wakeEvent (.interrupt c i) r) s = .next s.stillHigh) ∧
        (rose → ∃ t, exec (.wakeEvent (.interrupt c i) r) s = .next t ∧
          t.supply = { s.supply with power := .run, highAtStop := [], risen := [] } ∧
          t.fld A.PM_STATUS F.PM_STATUS_WAKE_CAUSE = 1 ∧ t.fld A.PM_STATUS F.PM_STATUS_LAST_STATE = p.code ∧ t.mem = s.mem ∧
          ∀ j, s.coreRecord c = c → s.stillHigh.supply.risen.find? (fun k => s.watched c k) = some j →
            (t.core c).icFlags.toNat / 2 ^ 16 % 512 = j % 512)))) ∧
  (∀ (s : State) (report : BootReport), s.supply.phase = .good → Regs.reserved s →
    (∀ k < 2, s.flashWord (bootBase k) ≠ 0x42424D5A) →
    let boots := fun (i : Instr) (cause : Nat) => ∃ t, exec i s = .next t ∧ t.supply.power = .run ∧ t.alive = true ∧
      t.fld A.PM_STATUS F.PM_STATUS_WAKE_CAUSE = cause ∧ t.fld A.PM_STATUS F.PM_STATUS_LAST_STATE = 3 ∧
      t.bit A.BOOT_STATUS F.BOOT_STATUS_RECOVERY = true ∧ (t.core 0).started = true ∧ t.reg A.PM_CTRL = s.reg A.PM_CTRL ∧
      t.reg A.RST_CAUSE = s.reg A.RST_CAUSE ∧ t.flash.bytes = s.flash.bytes ∧ t.journal = s.journal
    (s.supply.power = .dormant → boots (.wakeEvent .ball report) 2 ∧
      (s.reg A.PM_ALARM ≠ 0 → boots (.wakeEvent .alarm report) 3 ∧ boots (.alarmExpiry report) 3)) ∧
    (s.supply.power = .run → s.supply.entering = some .dormant → ∃ t, exec (.wakeEvent .ball report) s = .next t ∧
      t = { s with supply := { s.supply with entering := none }, regs := t.regs, svs := t.svs, pgs := t.pgs } ∧
      ∀ g < 48, t.pgRunning g = true → (t.pg g).holdNext = false))

/-! ### Converters -/

/-- OVERLOAD of a running modulator is set when its bitstream has held one value for 24 mc, and nothing else changes (R117). -/
def Obligations.OverloadIsSet : Prop :=
  ∀ (s : State) (n : Fin 96), s.runnerOn = true → s.bit (A.MD_STATUS n) F.MD_STATUS_RUNNING = true →
    ∃ t, exec (.overload n) s = .next t ∧ t.bit (A.MD_STATUS n) F.MD_STATUS_OVERLOAD = true ∧
      t.bit (A.MD_STATUS n) F.MD_STATUS_RUNNING = true ∧ (∀ a, a ≠ A.MD_STATUS n → t.reg a = s.reg a) ∧
      t = { s with regs := t.regs }

/-- Streams start, and stuck inputs show (R116, R121, R122): RUNNING is set once an enabled modulator or bitstream input runs, an
input from its clock's first rising edge on, and every path on a stream that stops sees it down; 64 cells of one level set STUCK in
clocked-data form, and are 64 code violations in Manchester form. A modulator's bits reach every path that takes its stream, but
those of the start delay (R132). A path that takes a running modulator's stream completes its result (R125, R127, R129, R132, R134,
R135) from the bits that are due: its payload joins the holding buffer and PRODUCED counts it. A full buffer withholds it: WITHHELD is
set and counted, and the buffer stays. A swift VALUE is the triple sum of the window's bits over N³, as a fraction of full scale. -/
def Obligations.StreamsAndPathResults : Prop :=
  (∀ (s : State), s.runnerOn = true →
    (∀ n : Fin 96, s.bit (A.MD_CTRL n) F.MD_CTRL_EN = true → s.bit (A.MD_STATUS n) F.MD_STATUS_RUNNING = false →
      exec (.modulatorRunning n) s = .next ((s.setBit (A.MD_STATUS n) F.MD_STATUS_RUNNING).setStream n
        { s.stream n with up := true })) ∧
    (∀ n : Fin 64, s.bit (A.XB_CTRL n) F.XB_CTRL_EN = true → s.bit (A.XB_STATUS n) F.XB_STATUS_RUNNING = false →
      ∃ r, s.rc ≤ r ∧ r < s.rc + 2 * max 1 (s.fld (A.XB_CTRL n) F.XB_CTRL_DIV) ∧
        r % (2 * max 1 (s.fld (A.XB_CTRL n) F.XB_CTRL_DIV)) = 0 ∧
        exec (.xbRunning n) s = .next (((s.passTo r).setBit (A.XB_STATUS n) F.XB_STATUS_RUNNING).setStream (96 + n)
          { (s.passTo r).stream (96 + n) with up := true })) ∧
    (∀ (n : Fin 64) (b : Bool), s.bit (A.XB_STATUS n) F.XB_STATUS_RUNNING = true →
      ∃ t, exec (.stuck ⟨n, List.replicate 64 (.level b)⟩) s = .next t ∧
        t = { s with regs := t.regs, streams := t.streams, decs := t.decs } ∧
        (∀ a, a ≠ A.XB_STATUS n → a ≠ A.XB_VIOL_COUNT n → t.reg a = s.reg a) ∧
        (s.bit (A.XB_CTRL n) F.XB_CTRL_FORM = false → t.bit (A.XB_STATUS n) F.XB_STATUS_STUCK = true ∧
          t.reg (A.XB_VIOL_COUNT n) = s.reg (A.XB_VIOL_COUNT n)) ∧
        (s.bit (A.XB_CTRL n) F.XB_CTRL_FORM = true →
          t.bit (A.XB_STATUS n) F.XB_STATUS_STUCK = s.bit (A.XB_STATUS n) F.XB_STATUS_STUCK ∧
          t.bit (A.XB_STATUS n) F.XB_STATUS_VIOL = true ∧ t.bit (A.XB_STATUS n) F.XB_STATUS_LOSS = true ∧
          t.reg (A.XB_VIOL_COUNT n) = BitVec.ofNat 32 (min 0xFFFFFFFF ((s.reg (A.XB_VIOL_COUNT n)).toNat + 64)))) ∧
    (∀ src n fine, (∃ q ∈ s.decs, q.1 = n) → (s.markStream src false).path n fine = { s.path n fine with
      srcDown := (s.path n fine).srcDown || decide (s.decSrc n = src) })) ∧
  (∀ (s : State) (n : Fin 160) (fine : Bool) (first later : List Bool),
    let bits := first ++ later
    let p := s.path n fine
    let src := s.decSrc n
    let log := s.swiftLog n
    let due := if p.primed then s.pathEvery n fine else s.pathFirst n fine
    let fed := fun (p : PathState) => p.queue ++ (bits.drop p.skip).map (fun b => (b, false))
    let w := ((((fed p).take due).map (·.1)).reverse ++ p.hist).take (s.pathWindow n fine)
    let viol := p.viol || ((fed p).take due).any (·.2)
    let rest := (fed p).drop due
    let i := if fine then Instr.fineResult n (first.map .level) (later.map .level)
      else .swiftResult n (first.map .level) (later.map .level)
    s.runnerOn = true → src < 96 → s.streamRunning src = true →
    (p.taking = false ∨ (fed p).length < due → ∃ t, exec i s = .next t ∧
      t = { s with regs := t.regs, streams := t.streams, decs := t.decs } ∧ (∀ a, a ≠ A.MD_STATUS src → t.reg a = s.reg a) ∧
      ∀ m f, let q := s.path m f
        t.path m f = if s.decSrc m = src ∧ q.taking = true then { q with skip := q.skip - bits.length, queue := fed q } else q) ∧
    (p.taking = true → p.stopping = false → due ≤ (fed p).length → p.produced - p.delivered = BitVec.ofNat 48 p.buf.length →
      (p.buf.length < 4 → ∃ t, exec i s = .next t ∧
        t.path n fine = { p with
          primed := true, skip := p.skip - bits.length, queue := rest, hist := w, produced := p.produced + 1, srcDown := false,
          viol := false, buf := p.buf ++ [resultPayload n fine p.srcDown viol ((p.produced + 1).setWidth 16)
            (s.pathValue n fine w.reverse)] } ∧
        t = { s with regs := t.regs, streams := t.streams, decs := t.decs } ∧
        (∀ a, a ≠ A.MD_STATUS src → a ≠ A.DEC_STATUS n → t.reg a = s.reg a) ∧
        t.bit (A.DEC_STATUS n) F.DEC_STATUS_AUDIT_WRAP =
          (s.bit (A.DEC_STATUS n) F.DEC_STATUS_AUDIT_WRAP || decide (p.produced + 1 = 0))) ∧
      (4 ≤ p.buf.length → ∃ t, exec i s = .next t ∧
        t.path n fine = { p with primed := true, skip := p.skip - bits.length, queue := rest, hist := w, viol := viol } ∧
        t = { s with regs := t.regs, streams := t.streams, decs := t.decs } ∧ t.bit (A.DEC_STATUS n) (fWithheld fine) = true ∧
        t.reg (aWithheld n fine) = BitVec.ofNat 32 (min 0xFFFFFFFF ((s.reg (aWithheld n fine)).toNat + 1)))) ∧
    (∀ v : List Bool, v.length = 3 * 2 ^ log - 2 → s.pathValue n false v =
      BitVec.ofInt 32 (min 0x7FFFFFFF (2 ^ (31 - 3 * log) * ((List.range (2 ^ log)).map (fun i => ((List.range (2 ^ log)).map
        (fun j => ((List.range (2 ^ log)).map (fun k => bitVal (v.getD (i + j + k) false))).sum)).sum)).sum))))

/-- A path starts with a cleared filter when its enable bit is written 1 (R132, R136, R140): without a channel the write is refused,
during a drain a path that still takes input goes on and one that does not restarts after the drain, and a bit that is 1 already
starts nothing. It is disabled by 0 (R139). It sets DISABLED, or starts again, once its buffer is empty. A snapshot copies the counts
and the levels of both paths (R138). -/
def Obligations.PathsStartAndStop : Prop :=
  ∀ (s : State) (n : Fin 160) (fine : Bool),
    let p := s.path n fine
    let begun := fun (u : State) => (u.setPath n fine { p with
        taking := true, stopping := false, restart := false, primed := false, skip := s.startSkip n (s.decSrc n), queue := [],
        hist := [], srcDown := !s.streamRunning (s.decSrc n), viol := false }).clrBit (A.DEC_STATUS n) (fDisabled fine)
    let on := s.bit (A.DEC_CTRL n) (fEnable fine)
    let started := s.setBit (A.DEC_CTRL n) (fEnable fine)
    let disabled := s.bit (A.DEC_STATUS n) (fDisabled fine)
    (s.writable (A.DEC_CTRL n) →
      Answers (.pathStart n fine) s (
        if on then s
        else if (s.producerChannel (pathEndpoint n fine)).isNone then s.setBit (A.DEC_STATUS n) F.DEC_STATUS_CFG_REJECT
        else if p.taking then started.setPath n fine { p with stopping := false }
        else if disabled then begun started
        else started.setPath n fine { p with restart := true }) ∧
      Answers (.pathDisable n fine) s (
        if on then (s.clrBit (A.DEC_CTRL n) (fEnable fine)).setPath n fine { p with stopping := p.taking, restart := false } else s) ∧
      ∃ t, exec (.decSnap n) s = .next t ∧ t = { s with regs := t.regs } ∧
        t.reg (A.DEC_SNAP_SP_LO n) = (s.dec n).swift.produced.setWidth 32 ∧
        t.reg (A.DEC_SNAP_SD_LO n) = (s.dec n).swift.delivered.setWidth 32 ∧
        t.reg (A.DEC_SNAP_FP_LO n) = (s.dec n).fine.produced.setWidth 32 ∧
        t.reg (A.DEC_SNAP_FD_LO n) = (s.dec n).fine.delivered.setWidth 32 ∧
        t.fld (A.DEC_SNAP_S_HI n) F.DEC_SNAP_S_HI_PRODUCED_HI = (s.dec n).swift.produced.toNat / 2 ^ 32 ∧
        t.fld (A.DEC_SNAP_S_HI n) F.DEC_SNAP_S_HI_DELIVERED_HI = (s.dec n).swift.delivered.toNat / 2 ^ 32 ∧
        t.fld (A.DEC_SNAP_F_HI n) F.DEC_SNAP_F_HI_PRODUCED_HI = (s.dec n).fine.produced.toNat / 2 ^ 32 ∧
        t.fld (A.DEC_SNAP_F_HI n) F.DEC_SNAP_F_HI_DELIVERED_HI = (s.dec n).fine.delivered.toNat / 2 ^ 32 ∧
        t.fld (A.DEC_SNAP_LEVEL n) F.DEC_SNAP_LEVEL_SWIFT_LEVEL = (s.dec n).swift.buf.length % 8 ∧
        t.fld (A.DEC_SNAP_LEVEL n) F.DEC_SNAP_LEVEL_FINE_LEVEL = (s.dec n).fine.buf.length % 8 ∧
        t.bit (A.DEC_SNAP_LEVEL n) F.DEC_SNAP_LEVEL_VALID = true ∧
        ∀ a, a ∉ [A.DEC_SNAP_SP_LO n, A.DEC_SNAP_SD_LO n, A.DEC_SNAP_FP_LO n, A.DEC_SNAP_FD_LO n, A.DEC_SNAP_S_HI n,
          A.DEC_SNAP_F_HI n, A.DEC_SNAP_LEVEL n] → t.reg a = s.reg a) ∧
    exec (.pathDisabled n fine) s = .next (
      if p.taking = false ∧ p.buf = [] ∧ disabled = false then
        (if p.restart then begun s else s.setBit (A.DEC_STATUS n) (fDisabled fine))
      else s)

/-! ### Comparators, Quench, outputs, Survey -/

/-- Comparators (R145, R146, R148 to R152, R466): a crossing sets ABOVE or BELOW, never both; the capture latch takes a request that is
1 in an unblanked rc, and one that was 0 in the rc before sets TRIP and counts; READY ends the held request; a threshold write stores
both codes, or is refused whole unless HI exceeds LO; a new readback selection clears SETTLED, and 2 µs later it reads 1. A latch
keeps what a window that begins in the same rc takes back (R151). -/
def Obligations.ComparatorsFollowTheirInputs : Prop :=
  ∀ (s : State) (n : Fin 96), s.alive = true →
    let captured := fun (u : State) =>
      let w := u.wc n
      let rises := !u.wcBlanked n && !w.now && !w.prev
      if u.wcOwn n = true then
        let v := u.setWc n { w with
          seen := true, now := w.now || !u.wcBlanked n,
          undo := if rises then some (u.reg (A.WC_STATUS n), u.reg (A.WC_TRIP_COUNT n)) else w.undo }
        if rises then
          (v.setBit (A.WC_STATUS n) F.WC_STATUS_TRIP).countEvent (A.WC_TRIP_COUNT n) (A.WC_STATUS n) F.WC_STATUS_COUNT_FULL
        else v
      else u
    (∀ above below, exec (.comparatorCrossing n above below) s =
      .next (captured (s.setWc n { s.wc n with above := above && !below, below := below && !above }))) ∧
    (s.bit (A.WC_CTRL n) F.WC_CTRL_EN = true → s.bit (A.WC_STATUS n) F.WC_STATUS_READY = false →
      exec (.comparatorReady n) s = .next (captured (s.setBit (A.WC_STATUS n) F.WC_STATUS_READY))) ∧
    (∀ v : Word, s.writable (A.WC_THR n) →
      (signedOf 12 (fieldOf v F.WC_THR_LO) < signedOf 12 (fieldOf v F.WC_THR_HI) →
        exec (.thresholdWrite n v) s = .next (s.setReg (A.WC_THR n) v)) ∧
      (signedOf 12 (fieldOf v F.WC_THR_HI) ≤ signedOf 12 (fieldOf v F.WC_THR_LO) →
        exec (.thresholdWrite n v) s = .next (s.setBit (A.WC_STATUS n) F.WC_STATUS_CFG_REJECT))) ∧
    (∀ v : Word, s.writable A.WC_RB_SEL → fieldOf v F.WC_RB_SEL_COMP < 96 → fieldOf v F.WC_RB_SEL_CFG_REJECT = 0 →
      ∃ t, exec (.rbSelWrite v) s = .next t ∧ t = { s with regs := t.regs, rbFrom := t.rbFrom } ∧
        t.rbFrom = (if fieldOf v F.WC_RB_SEL_COMP = s.fld A.WC_RB_SEL F.WC_RB_SEL_COMP ∧
          fieldOf v F.WC_RB_SEL_DAC = s.fld A.WC_RB_SEL F.WC_RB_SEL_DAC then s.rbFrom else some (s.reg A.WC_RB_SEL)) ∧
        (∀ a, a ≠ A.WC_RB_SEL → t.reg a = s.reg a) ∧ t.fld A.WC_RB_SEL F.WC_RB_SEL_COMP = fieldOf v F.WC_RB_SEL_COMP ∧
        t.fld A.WC_RB_SEL F.WC_RB_SEL_DAC = fieldOf v F.WC_RB_SEL_DAC ∧
        (t.bit A.WC_RB_SEL F.WC_RB_SEL_SETTLED = true ↔ s.bit A.WC_RB_SEL F.WC_RB_SEL_SETTLED = true ∧
          fieldOf v F.WC_RB_SEL_COMP = s.fld A.WC_RB_SEL F.WC_RB_SEL_COMP ∧
          fieldOf v F.WC_RB_SEL_DAC = s.fld A.WC_RB_SEL F.WC_RB_SEL_DAC)) ∧
    exec .rbSettled s = .next (s.setBit A.WC_RB_SEL F.WC_RB_SEL_SETTLED)

/-- A Quench request latches the trip groups that take it (R150, R153 to R156, R161, R164, R246, R466). A system request acts in its
own rc, and a comparator's in the rc after the one in which its latch took it. Where one group takes it: CAUSE names the lowest request
that is raised and unblanked, TIME takes the time base, NEW is set, and every output of the group is commanded safe at the end of the
next rc. A latched group changes nothing but STICKY, and before output release no group latches. A group whose NOTICE is 1 issues one
notice as it latches (R162, R185, R188, R189): a Riser token that takes no credit, placed behind every token that some consumer has
accepted and behind every earlier Riser token; with two in flight it issues none, and NOTICE_SKIPPED is set. Groups and outputs return (R155,
R156, R158 to R160, R467): RELEASE clears each named latched group with no request raised, and sets RELEASE_REFUSED for one with a
request; a CYCLE group is tested in the rc before a boundary of its reference group and clears itself there; SW_REQ raises request 45;
writes in user mode are refused. A SAFE 1 output goes high after its wait, and low first where it was high impedance (the model's choice, log
entry 74), and an output that the global force holds becomes high impedance. -/
def Obligations.QuenchForcesAndReturns : Prop :=
  (∀ (s : State) (i : Fin 160), s.alive = true →
    let u := if 64 ≤ i.val ∧ (s.wc (i - 64)).now = true ∧ (s.wc (i - 64)).prev = false then s.passTo (s.rc + 1) else s
    (s.released = false → exec (.quenchRequest i) s = .next u) ∧
    (∀ g : Fin 16, s.released = true → (∀ h < 16, s.takes h i = true ↔ h = g) →
      (s.latched g = true → exec (.quenchRequest i) s = .next (
        if (List.range 32).any (fun j => s.takes g (32 + j) && u.requestRaised (32 + j)) then
          u.setBit (A.QUENCH_CAUSE g) F.QUENCH_CAUSE_STICKY else u)) ∧
      (s.latched g = false → s.bit (A.QUENCH_GCFG g) F.QUENCH_GCFG_NOTICE = false →
        (if i.val < 64 then s.requestRaised i = true
          else s.wcHeld (i - 64) = true ∨ (s.wc (i - 64)).prev = true ∨ (s.wc (i - 64)).now = true) →
        ∃ t k, exec (.quenchRequest i) s = .next t ∧
        k ≤ i ∧ s.takes g k = true ∧ u.requestUnblanked k = true ∧ (∀ j < k, s.takes g j = true → u.requestUnblanked j = false) ∧
        t.latched g = true ∧ t.fld (A.QUENCH_CAUSE g) F.QUENCH_CAUSE_REQUEST = k ∧
        t.reg (A.QUENCH_TIME g) = u.timeBase.setWidth 32 ∧ t.bit A.QUENCH_STATUS F.QUENCH_STATUS_NEW = true ∧
        (∀ o < 192, s.tripGroupOf o = g → (s.out o).mode ≠ .held → (s.out o).mode ≠ .tripped → (t.out o).mode = .tripped ∧
          (t.out o).forcedAt = u.rc + 1 ∧ (t.out o).pin = (if s.safeOf o = 2 then .z else
            if s.safeOf o = 1 ∧ (s.out o).pin = .high then .high else .low)) ∧
        (∀ o < 192, s.tripGroupOf o ≠ g → t.out o = s.out o) ∧ t.cores = u.cores ∧ t.chans = u.chans ∧ t.mem = u.mem) ∧
      (∀ n, s.latched g = false → s.bit (A.QUENCH_GCFG g) F.QUENCH_GCFG_NOTICE = true →
        (if i.val < 64 then s.requestRaised i = true
          else s.wcHeld (i - 64) = true ∨ (s.wc (i - 64)).prev = true ∨ (s.wc (i - 64)).now = true) →
        s.producerChannel (epNotice g) = some n → s.accounted n →
        ∃ t k, exec (.quenchRequest i) s = .next t ∧ t.latched g = true ∧ t.fld (A.QUENCH_CAUSE g) F.QUENCH_CAUSE_REQUEST = k ∧
        let c := u.chan n
        let token : Token := { payload := noticePayload g k (u.timeBase.setWidth 32), tag := u.tagFor n true false, accepted := [], passed := [] }
        (∀ m, m ≠ n → t.chan m = u.chan m) ∧
        (2 ≤ c.risers → t.bit A.RUN_STATUS F.RUN_STATUS_NOTICE_SKIPPED = true ∧ t.chan n = c ∧ t.riserFree = s.riserFree) ∧
        (c.risers < 2 → t.bit A.RUN_STATUS F.RUN_STATUS_NOTICE_SKIPPED = s.bit A.RUN_STATUS F.RUN_STATUS_NOTICE_SKIPPED ∧
          (s.channelClosed n = true → t.riserFree = s.riserFree ∧
            t.chan n = { c with issued := c.issued + 1, returned := c.returned + 1 }) ∧
          (s.channelClosed n = false → u.awaited n → t.riserFree = s.riserFree - 1 ∧
            t.chan n = { c with queue := u.headed n (placeRiser token c.queue), issued := c.issued + 1 }))))) ∧
  (∀ (s : State) (who : Requester) (g : Fin 16),
    let cleared := fun (u : State) => (u.clrBit (A.QUENCH_CAUSE g) F.QUENCH_CAUSE_VALID).clrBit (A.QUENCH_CAUSE g) F.QUENCH_CAUSE_STICKY
    (s.mayWrite who = true → s.basicAt A.QUENCH_RELEASE = false → Regs.reserved s → byUser who = false →
      (s.latched g = true → exec (.quenchRelease who (BitVec.ofNat 16 (2 ^ g.val))) s =
        .next (if s.groupRaised g then s.setBit A.QUENCH_STATUS F.QUENCH_STATUS_RELEASE_REFUSED else cleared s)) ∧
      (s.latched g = false → exec (.quenchRelease who (BitVec.ofNat 16 (2 ^ g.val))) s = .next s) ∧
      (∀ up, exec (.swReq who up) s = .next (s.putBit A.QUENCH_CTRL F.QUENCH_CTRL_SW_REQ up))) ∧
    (s.mayWrite who = true → byUser who = true → ∀ up bits,
      exec (.swReq who up) s = .next (s.setBit A.QUENCH_STATUS F.QUENCH_STATUS_CFG_REJECT) ∧
      exec (.quenchRelease who bits) s = .next (s.setBit A.QUENCH_STATUS F.QUENCH_STATUS_CFG_REJECT)) ∧
    (s.runnerOn = true → s.latched g = true → s.bit (A.QUENCH_GCFG g) F.QUENCH_GCFG_MODE = true →
      (s.testRc g = none → exec (.groupSelfClear g) s = .next s) ∧
      (∀ r, s.testRc g = some r → exec (.groupSelfClear g) s = .next (
        if s.bit (A.QUENCH_CAUSE g) F.QUENCH_CAUSE_STICKY = false ∧ (s.passTo r).groupRaised g = false then cleared (s.passTo r)
        else s.passTo r))) ∧
    (∀ o : Fin 192, let x := s.out o
      exec (.safeHighDeadTime o) s = .next (if (x.mode = .tripped ∨ x.mode = .stopped) ∧ x.highDue = true then
        s.setOut o { x with pin := .high, highDue := false } else s) ∧
      exec (.safeHighForceDelay o) s = .next (if x.mode = .held ∧ x.highDue = true then
        s.setOut o { x with pin := .high, highDue := false } else s) ∧
      exec (.forceHoldExpiry o) s = .next (if x.mode = .held then
        s.setOut o { x with mode := .hiZ, pin := .z, highDue := false } else s)))

/-- Survey passes (R170 to R172, R177): a trigger starts a pass that copies SEQ and its entries, and is missed while one runs; a
converter that was off starts up first; disabling in a conversion lets it complete, and DISABLED is set once the converter has
powered down with an empty buffer. Survey results (R129, R173, R174): the conversion of an entry stores its calibrated value with
the pass number, sets its NEW bit, and OVERRUN where NEW was set already; the last entry ends the pass and counts it, and input 96
reads the threshold DAC that WC.RB_SEL routes there (R152, within the margin of log entry 65). An accepted
urgent request is held until its conversion, which starts at once in the rc that ends a conversion, and whose value goes to
URGENT_RESULT; one that arrives while another waits, or while EN is
0, is refused. -/
def Obligations.SurveysRunAndStore : Prop :=
  (∀ (s : State) (n : Fin 8), s.writable (A.SV_CTRL n) → s.svEn n = true → (s.sv n).draining = false → s.svPaused n = false →
    let trig := s.fld (A.SV_CTRL n) F.SV_CTRL_TRIG
    let entries := (List.range (s.fld (A.SV_SEQ n) F.SV_SEQ_LENGTH + 1)).map (fun e => s.reg (A.SV_ENTRY n e))
    let pass := fun (job : SvJob) => (((s.setBit (A.SV_STATUS n) F.SV_STATUS_BUSY).setFld (A.SV_STATUS n) F.SV_STATUS_ENTRY 0).setBit
      (A.SV_STATUS n) F.SV_STATUS_POWERED).setSv n { s.sv n with entries := entries, job := job }
    let missed := s.setBit (A.SV_STATUS n) F.SV_STATUS_TRIG_MISSED
    (s.svBusy n = false → (s.sv n).job = .none → s.svPowered n = false → (s.sv n).urgent = none →
      (trig = 0 → Answers (.surveyStart n) s (pass .starting)) ∧ (trig ≠ 0 → Answers (.surveyTrigger n) s (pass .starting))) ∧
    (s.svBusy n = true → (trig = 0 → Answers (.surveyStart n) s missed) ∧
      (2 ≤ trig → Answers (.surveyTrigger n) s missed)) ∧
    ((s.sv n).job = .starting → s.svBusy n = true → (s.sv n).urgent = none → s.svBlocked n = false →
      exec (.converterStartupDone n) s = .next (s.setSv n { s.sv n with
        job := .entry, unsettled := !s.bit A.WC_RB_SEL F.WC_RB_SEL_SETTLED })) ∧
    (s.bit (A.SV_STATUS n) F.SV_STATUS_DISABLED = false → (s.sv n).urgent = none → (s.sv n).job = .entry →
      Answers (.surveyDisable n) s ((s.clrBit (A.SV_CTRL n) F.SV_CTRL_EN).setSv n { s.sv n with draining := true })) ∧
    (let u := (s.clrBit (A.SV_CTRL n) F.SV_CTRL_EN).setSv n { s.sv n with draining := true };
      (s.sv n).buf = [] → s.svPowered n = false → exec (.surveyDisabled n) u =
        .next ((u.setSv n { u.sv n with draining := false }).setBit (A.SV_STATUS n) F.SV_STATUS_DISABLED))) ∧
  (∀ (s : State) (n : Fin 8), s.alive = true →
    let e := s.svEntry n
    let bit : Word := BitVec.ofNat 32 (2 ^ e)
    (∀ raw, (s.sv n).job = .entry → s.svBusy n = true → (s.sv n).urgent = none → e < 32 →
      fieldOf (s.svEntryWord n) F.SV_ENTRY_TOKEN = 0 → ∃ t, exec (.conversionEnd n raw) s = .next t ∧
      t = { s with regs := t.regs, svs := t.svs } ∧
      t.fld (A.SV_RESULT n e) F.SV_RESULT_VALUE =
        (s.svValue n (s.svRaw n (fieldOf (s.svEntryWord n) F.SV_ENTRY_INPUT) raw)).toNat / 256 ∧
      t.fld (A.SV_RESULT n e) F.SV_RESULT_PASS = s.fld (A.SV_STATUS n) F.SV_STATUS_PASS ∧
      t.reg (A.SV_NEW n) = s.reg (A.SV_NEW n) ||| bit ∧
      t.reg (A.SV_OVERRUN n) = s.reg (A.SV_OVERRUN n) ||| (s.reg (A.SV_NEW n) &&& bit) ∧
      (if e + 1 < (s.sv n).entries.length then
        if (s.sv n).draining then t.svBusy n = false ∧ t.svEntry n = 0 else t.svBusy n = true ∧ t.svEntry n = (e + 1) % 32
      else t.svBusy n = false ∧ t.svEntry n = 0 ∧ t.bit (A.SV_STATUS n) F.SV_STATUS_SEQ_DONE = true ∧
        t.fld (A.SV_STATUS n) F.SV_STATUS_PASS = (s.fld (A.SV_STATUS n) F.SV_STATUS_PASS + 1) % 256)) ∧
    (∀ raw u, (s.sv n).job = .urgent → (s.sv n).urgent = some u → fieldOf u F.SV_URGENT_TOKEN = 0 →
      ∃ t, exec (.conversionEnd n raw) s = .next t ∧
      t = { s with regs := t.regs, svs := t.svs } ∧ (t.sv n).urgent = none ∧
      t.fld (A.SV_URGENT_RESULT n) F.SV_URGENT_RESULT_VALUE =
        (s.svValue n (s.svRaw n (fieldOf u F.SV_URGENT_INPUT) raw)).toNat / 256 ∧
      t.fld (A.SV_URGENT_RESULT n) F.SV_URGENT_RESULT_INPUT = fieldOf u F.SV_URGENT_INPUT ∧
      t.bit (A.SV_STATUS n) F.SV_STATUS_URGENT_DONE = true ∧ t.bit (A.SV_STATUS n) F.SV_STATUS_URGENT_BUSY = false) ∧
    (∀ v : Word, s.writable (A.SV_URGENT n) → fieldOf v F.SV_URGENT_INPUT ≤ 96 → fieldOf v F.SV_URGENT_TOKEN = 0 →
      (s.bit (A.SV_STATUS n) F.SV_STATUS_URGENT_BUSY = false → s.svEn n = true → s.svPaused n = false → s.svPowered n = false →
        (s.sv n).job = .none → ∃ t, exec (.urgent n v) s = .next t ∧ t = { s with regs := t.regs, svs := t.svs } ∧
          (∃ u, (t.sv n).urgent = some u ∧ fieldOf u F.SV_URGENT_INPUT = fieldOf v F.SV_URGENT_INPUT ∧
            fieldOf u F.SV_URGENT_RATE = fieldOf v F.SV_URGENT_RATE) ∧
          t.bit (A.SV_STATUS n) F.SV_STATUS_URGENT_BUSY = true ∧ t.svPowered n = true ∧
          (t.sv n).job = (if (s.sv n).ended = some s.rc then .urgent else .starting)) ∧
      (s.bit (A.SV_STATUS n) F.SV_STATUS_URGENT_BUSY = true ∨ s.svEn n = false →
        exec (.urgent n v) s = .next (s.setBit (A.SV_STATUS n) F.SV_STATUS_CFG_REJECT))))

/-! ### Runner and Tundish -/

/-- A producer issues what it holds into its channel (R182, R185, R186, R193, R198): with a credit the token joins the queue with
its tag and FREE falls by one, a closed channel counts it as issued and returned, and without a credit STALL counts every rc of the
wait, once, and the payload stays; a credit that comes back at the end of an rc is used in the next (R185). A ready consumer accepts the token at the head of the channel that arbitration gives it (R184, R185, R188, R199):
the token stays while another enabled consumer has still to accept it, and with the last acceptance it retires and gives back its
credit, or its Riser slot. A snapshot register takes the payload and the tag, and counts. -/
def Obligations.TokensAreIssuedAcceptedAndRetired : Prop :=
  (∀ (s : State) (code : BitVec 10) (n : Nat) (payload : Payload),
    s.runnerOn = true → s.bootTesting = false → s.offers code.toNat = some payload → s.producerChannel code.toNat = some n →
    s.accounted n →
    let v := s.passCredit n
    let u := if 0x1C0 ≤ code.toNat ∧ code.toNat < 0x240 then v.passTo (v.law ((code.toNat - 0x1C0) / 4)).nextRc else v
    let c := u.chan n
    let remote := decide (0x2B8 ≤ code.toNat ∧ code.toNat < 0x2BC)
    (c.free = 0 → ∃ t, exec (.tokenIssue code) s = .next t ∧ t.chan n = { c with stall := some (u.rc + 1) } ∧
      (∀ m, m ≠ n → t.chan m = u.chan m) ∧
      t.reg (A.TC_STALL n) = BitVec.ofNat 32 (min 0xFFFFFFFF ((u.reg (A.TC_STALL n)).toNat +
        (match c.stall with | none => 1 | some r => u.rc + 1 - r))) ∧
      s.offers code.toNat = t.offers code.toNat) ∧
    (0 < c.free → ∃ t, exec (.tokenIssue code) s = .next t ∧ (∀ m, m ≠ n → t.chan m = u.chan m) ∧
      t.cores = s.cores ∧ t.mem = s.mem ∧ t.snaps = s.snaps ∧
      t.bit (A.TC_STATUS n) F.TC_STATUS_CONS_FAULT = s.bit (A.TC_STATUS n) F.TC_STATUS_CONS_FAULT ∧
      (c.inflight + 1 < 2 ^ 13 → t.fld (A.TC_HWM n) F.TC_HWM_HWM = max (s.fld (A.TC_HWM n) F.TC_HWM_HWM) (c.inflight + 1)) ∧
      (s.channelClosed n = false → s.awaited n → t.riserFree = s.riserFree ∧ t.chan n = { c with
        queue := s.headed n (c.queue ++ [{ payload := payload, tag := s.tagFor n false remote, accepted := [], passed := [] }]),
        free := c.free - 1, issued := c.issued + 1, stall := none }) ∧
      (s.channelClosed n = true → t.riserFree = s.riserFree ∧
        t.chan n = { c with issued := c.issued + 1, returned := c.returned + 1, stall := none }))) ∧
  (∀ (s : State) (code : BitVec 10) (n q : Nat) (t : Token) (ts : List Token),
    s.consumerReady code.toNat = true → s.chosen code.toNat = some (n, q) → (q, code.toNat) ∈ s.consumers n →
    (s.chan n).queue = t :: ts → s.accounted n →
    let c := s.chan n
    let others := fun (p : Nat × Nat) => p.1 ≠ q ∧ s.consumerDisabled p.2 = false ∧ t.takenBy p.1 = false
    ∃ u, exec (.tokenAccept code) s = .next u ∧ (∀ m, m ≠ n → u.chan m = s.chan m) ∧ t.takenBy q = false ∧
      u.bit (A.TC_STATUS n) F.TC_STATUS_CONS_FAULT = s.bit (A.TC_STATUS n) F.TC_STATUS_CONS_FAULT ∧ u.mem = s.mem ∧
      ((∃ p ∈ s.consumers n, others p) → u.riserFree = s.riserFree ∧
        u.chan n = { c with queue := s.headed n ({ t with accepted := q :: t.accepted } :: ts) }) ∧
      ((∀ p ∈ s.consumers n, ¬ others p) → (∀ x ∈ ts, x.takenBy q = false) →
        u.riserFree = s.riserFree + bit01 t.riser ∧
        u.chan n = { c with
          queue := s.headed n ts, free := c.free + (1 - bit01 t.riser), retired := c.retired + 1,
          stall := if c.free = 0 ∧ t.riser = false then c.stall.map (fun r => max r (s.rc + 1)) else c.stall }) ∧
      (∀ k : Fin 128, code.toNat = epSnap k → u.snap k = ⟨t.payload, t.tag, (s.snap k).count + 1⟩ ∧
        ∀ j, j ≠ k.val → u.snap j = s.snap j))

/-- An audit counter wraps from 2^48 − 1 to 0 and sets AUDIT_WRAP: ISSUED and RETURNED when a token is issued, RETIRED when one
retires (R190). -/
def Obligations.AuditCountersWrap : Prop :=
  ∀ (s : State) (code : BitVec 10) (n : Nat),
    (∀ payload, s.runnerOn = true → s.bootTesting = false → s.offers code.toNat = some payload →
      s.producerChannel code.toNat = some n → 0 < (s.chan n).free →
      ((s.chan n).issued = -1 → ∃ t, exec (.tokenIssue code) s = .next t ∧ (t.chan n).issued = 0 ∧
        t.bit (A.TC_STATUS n) F.TC_STATUS_AUDIT_WRAP = true) ∧
      (s.channelClosed n = true → (s.chan n).returned = -1 → ∃ t, exec (.tokenIssue code) s = .next t ∧
        (t.chan n).returned = 0 ∧ t.bit (A.TC_STATUS n) F.TC_STATUS_AUDIT_WRAP = true)) ∧
    (∀ q t, s.consumerReady code.toNat = true → s.chosen code.toNat = some (n, q) → (s.chan n).queue = [t] →
      (∀ p ∈ s.consumers n, p.1 = q ∨ s.consumerDisabled p.2 = true ∨ p.1 ∈ t.accepted) → (s.chan n).retired = -1 →
      ∃ u, exec (.tokenAccept code) s = .next u ∧ (u.chan n).retired = 0 ∧
        u.bit (A.TC_STATUS n) F.TC_STATUS_AUDIT_WRAP = true)

/-- Channels are disabled, drained, enabled and audited by software (R192, R193, R194, R203): EN = 0 starts a drain, DISABLED
follows once nothing is in flight, EN = 1 enables again or waits for the drain, an unrouted channel refuses; SNAP copies every
channel's counts in one rc, and HWM_CLR sets each HWM to the present INFLIGHT. -/
def Obligations.ChannelsDrainAndAreAudited : Prop :=
  ∀ (s : State) (n : Fin 256),
    let en := s.bit (A.TC_CTRL n) F.TC_CTRL_EN
    let disabled := s.bit (A.TC_STATUS n) F.TC_STATUS_DISABLED
    let draining := s.bit (A.TC_STATUS n) F.TC_STATUS_DISABLE_PENDING
    (s.writable (A.TC_CTRL n) →
      (en = true → disabled = false → Answers (.channelDisable n) s (((s.clrBit (A.TC_CTRL n) F.TC_CTRL_EN).setBit (A.TC_STATUS n)
        F.TC_STATUS_DISABLE_PENDING).setChan n { s.chan n with reenable := false })) ∧
      (s.fld (A.TC_ROUTE_P n) F.TC_ROUTE_P_PROD = 0x3FF → Answers (.channelEnable n) s
        (s.setBit (A.TC_STATUS n) F.TC_STATUS_CFG_REJECT)) ∧
      (s.fld (A.TC_ROUTE_P n) F.TC_ROUTE_P_PROD ≠ 0x3FF → s.testBlocks channelRegions = false → en = false →
        (draining = true → Answers (.channelEnable n) s ((s.setBit (A.TC_CTRL n) F.TC_CTRL_EN).setChan n
          { s.chan n with reenable := true })) ∧
        (draining = false → Answers (.channelEnable n) s ((s.setBit (A.TC_CTRL n) F.TC_CTRL_EN).clrBit (A.TC_STATUS n)
          F.TC_STATUS_DISABLED)))) ∧
    (draining = true → (s.chan n).queue = [] → exec (.channelDisabled n) s = .next (
      let u := s.clrBit (A.TC_STATUS n) F.TC_STATUS_DISABLE_PENDING
      if (s.chan n).reenable then u.setChan n { s.chan n with reenable := false }
      else u.setBit (A.TC_STATUS n) F.TC_STATUS_DISABLED)) ∧
    (s.writable A.RUN_AUDIT_CTRL → (∃ t, exec .auditSnap s = .next t ∧ t.chans = s.chans ∧
        t.bit A.RUN_AUDIT_CTRL F.RUN_AUDIT_CTRL_VALID = true ∧ t.auditCopy n = (s.chan n).copy ∧
        (∀ a, a ≠ A.RUN_AUDIT_CTRL → t.reg a = s.reg a)) ∧
      (∃ t, exec .hwmClr s = .next t ∧ t.fld (A.TC_HWM n) F.TC_HWM_HWM = (s.chan n).inflight % 2 ^ 13 ∧ t.chans = s.chans))

/-- Heats, the time base, snapshots and the push ports (R196 to R200, R465): a heat start counts HEAT_NUM, sets HEAT and
HEAT_RUNNING and, with local heats, sets the next one PERIOD later; a read of TIME_LO or of a snapshot's low word captures the rest
for its reader, a core's read from its own copy, which has every acceptance that is 12 rc old (the model's number: R199 gives 2 to 3 cc,
and 8 entries may wait for one another; log entry 72); PUSH_LO is held in the core, and PUSH_HI completes a token or is refused. -/
def Obligations.HeatsTimeAndPorts : Prop :=
  ∀ (s : State),
    (s.runnerOn = true → s.supply.entering = none → s.fld A.RUN_HEAT_CFG F.RUN_HEAT_CFG_SRC = 1 → ∃ t, exec .heatStart s = .next t ∧
      t.rc = max s.rc (s.heatDue.getD 0) ∧ t.timeBase = s.timeBase + BitVec.ofNat 64 (t.rc - s.rc) ∧ t.heatLast = some t.rc ∧
      t.heatDue = some (t.rc + s.fld A.RUN_HEAT_CFG F.RUN_HEAT_CFG_PERIOD) ∧
      t.fld A.RUN_HEAT_NUM F.RUN_HEAT_NUM_NUM = (s.fld A.RUN_HEAT_NUM F.RUN_HEAT_NUM_NUM + 1) % 2 ^ 32 ∧
      t.bit A.RUN_STATUS F.RUN_STATUS_HEAT = true ∧ t.bit A.RUN_STATUS F.RUN_STATUS_HEAT_RUNNING = true ∧
      t.chans = (s.passTo (s.heatDue.getD s.rc)).chans ∧ t.cores = s.cores ∧ (∀ n fine, (∃ p ∈ s.decs, p.1 = n) → (s.path n fine).stopping = true → (t.path n fine).taking = false)) ∧
    (∀ who, s.mayWrite who = true →
      let r := s.readerOf who
      exec (.timeLoRead who) s = .next { s with
        readers := mapInsert s.readers r { s.reader r with timeHi := (s.timeBase >>> 32).setWidth 32 },
        host := { s.host with readData := s.timeBase.setWidth 32 } } ∧
      (∀ k : Fin 128,
        let v := if r < 16 then crossSnaps s else s
        let x := if r < 16 then mapGet (fun _ => Snap.init) v.snapCopy k else s.snap k
        ((∀ e ∈ s.snapCross, e.since + 12 ≤ s.rc) → r < 16 → v.snapCross = []) ∧
        exec (.snapLoRead who k) s = .next { v with
          captured := mapInsert s.captured (128 * r + k.val) ((x.payload >>> 32).setWidth 32, x.count ++ x.tag),
          host := { s.host with readData := x.payload.setWidth 32 } })) ∧
    (∀ (c : Fin 16) (w : Word), s.runnerOn = true → s.coreOn c = true → s.basicAt A.RUN_PUSH_LO = false →
      exec (.pushLo c w) s = .next (s.setPush c { s.push c with lo := w }) ∧
      (∀ q : Fin 4, exec (.pushHi c q w) s = .next (s.setPush c (
        if (s.push c).buf.length < 8 ∧ (s.producerChannel (epPush c q)).isSome = true then
          { s.push c with buf := (s.push c).buf ++ [(q.val, w ++ (s.push c).lo)] }
        else { s.push c with refused := true }))))

/-! ### Law engines -/

/-- A law operation that writes S[D] writes its exact result, saturated to a state word with SAT, and goes on at the next operation
(R204, R205, R208, R210): MOV, LDI, ADD, SUB, NEG, ABS, MIN, MAX, SHL, SHR, MUL, MAC and MSU. NOP writes nothing. Limits, tests,
branches and the minimum of a search (R208, R209, R219): LIM clamps and sets C, with a limit event under X[0]; CHK raises one
outside its bounds and TRIP always; SKIP makes the next operation a NOP; BR and DJNZ branch; SELMIN keeps the lesser cost and its
tag. The first limit event records its PC, CODE and CAUSE. The operation after 1,023 is operation 0 by the model's choice (log entry
79). -/
def Obligations.LawOperations : Prop :=
  (∀ (s : State) (n : Fin 32),
    let u := s.lawNow n
    let pc := (s.law n).pc
    let w := s.lawOp n pc
    let a := s.S n (opA w)
    let b := s.S n (opB w)
    let d := s.S n (opD w)
    let x := opX w % 32
    let p := roundShift (s.lawRnd n) (a * b) (31 - x)
    let writes := fun (code : Nat) (i : Instr) (v : Int) =>
      s.lawGoes n code → Answers i s ((u.lawTakes n (opD w) v).lawAfter n (pc + 1))
    (s.lawGoes n 0x01 → Answers (.leNop n .none) s (u.lawAfter n (pc + 1))) ∧
    writes 0x02 (.leMov n .none) a ∧ writes 0x03 (.leLdi n .none) (opImm w * 2 ^ x) ∧ writes 0x04 (.leAdd n .none) (a + b) ∧
    writes 0x05 (.leSub n .none) (a - b) ∧ writes 0x06 (.leNeg n .none) (-a) ∧ writes 0x07 (.leAbs n .none) (max a (-a)) ∧
    writes 0x08 (.leMin n .none) (if a ≤ b then a else b) ∧ writes 0x09 (.leMax n .none) (if a ≤ b then b else a) ∧
    writes 0x0A (.leShl n .none) (a * 2 ^ x) ∧ writes 0x0B (.leShr n .none) (roundShift (s.lawRnd n) a x) ∧
    writes 0x0C (.leMul n .none) p ∧ writes 0x0D (.leMac n .none) (d + p) ∧ writes 0x0E (.leMsu n .none) (d - p)) ∧
  (∀ (s : State) (n : Fin 32),
    let u := s.lawNow n
    let pc := (s.law n).pc
    let w := s.lawOp n pc
    let a := s.S n (opA w)
    let lo := s.S n (opB w)
    let hi := s.S n (opB w + 1)
    let d := s.S n (opD w)
    let cond := match opD w with
      | 0 => true
      | 1 => decide (a = 0)
      | 2 => decide (a ≠ 0)
      | 3 => decide (a < 0)
      | 4 => decide (0 ≤ a)
      | 5 => decide (0 < a)
      | 6 => decide (a ≤ 0)
      | 7 => s.bit (A.LE_STATUS n) F.LE_STATUS_C
      | _ => !s.bit (A.LE_STATUS n) F.LE_STATUS_C
    let event := fun (cause code : Nat) (t : State) =>
      (if t.bit (A.LE_STATUS n) F.LE_STATUS_LIMIT then t else t.setReg (A.LE_LIMIT_INFO n) (fieldBits F.LE_LIMIT_INFO_PC pc |||
        fieldBits F.LE_LIMIT_INFO_CODE code ||| fieldBits F.LE_LIMIT_INFO_CAUSE cause)).setBit (A.LE_STATUS n) F.LE_STATUS_LIMIT
    let v := min (max a lo) hi
    (s.lawGoes n 0x0F → let t := (u.lawTakes n (opD w) v).putBit (A.LE_STATUS n) F.LE_STATUS_C (decide (v ≠ a))
      Answers (.leLim n .none) s ((if v ≠ a ∧ opX w % 2 = 1 then event 3 0 t else t).lawAfter n (pc + 1))) ∧
    (s.lawGoes n 0x10 →
      Answers (.leChk n .none) s ((if a < lo ∨ hi < a then event 1 0 u else u).lawAfter n (pc + 1))) ∧
    (s.lawGoes n 0x11 → Answers (.leTrip n .none) s ((event 2 (opX w) u).lawAfter n (pc + 1))) ∧
    (s.lawGoes n 0x12 → Answers (.leSkip n .none) s
      ((if cond then u.setLaw n { s.law n with skip := true } else u).lawAfter n (pc + 1))) ∧
    (s.lawGoes n 0x13 → Answers (.leBr n .none) s (u.lawAfter n (if cond then opT w else pc + 1))) ∧
    (s.lawGoes n 0x14 → Answers (.leDjnz n .none) s
      ((u.lawTakes n (opD w) (d - 1)).lawAfter n (if d = 1 then pc + 1 else opT w))) ∧
    (s.lawGoes n 0x17 → Answers (.leSelmin n .none) s ((if a < d then
      (u.setLawWord n (opD w) (s.lawWord n (opA w))).setLawWord n (opD w + 1) (s.lawWord n (opB w)) else u).lawAfter n (pc + 1))))

/-- A run ends by END, by an E bit or by an uncorrectable error, and a skipped operation does nothing (R208, R209, R215, R216, R219,
R224): RUNNING clears, RUNS counts, RUNLEN holds the run's length; the error raises a limit event of cause 5, and its rc counts into the run's length by the model's choice (log entry 80; what follows
operation 1,023 is log entry 79). Dispatch and latches
(R210 to R216): an idle engine dispatches, in the first rc in which a trigger is pending, its heat trigger first, at HEAT_ENTRY, and
otherwise the first trigger port, whose payload becomes its state word, at that port's entry; RUNNING is set, C clears and LATE counts
a late start. Latches of UPDATE ports are applied in an idle rc after the one that filled them, and before a run starts. -/
def Obligations.LawRunsStartAndEnd : Prop :=
  (∀ (s : State) (n : Fin 32),
    let u := s.lawNow n
    let x := s.law n
    let last := min (u.rc - x.began + 1) 65535
    let ends := fun (i : Instr) (t : State) => exec i s = .next t ∧ t.lawRunning n = false ∧ t.rc = u.rc ∧ (t.law n).wait = .none ∧
      (t.law n).nextRc = u.rc + 1 ∧ t.fld (A.LE_RUNLEN n) F.LE_RUNLEN_LAST = last ∧
      t.fld (A.LE_RUNLEN n) F.LE_RUNLEN_MAX = max (s.fld (A.LE_RUNLEN n) F.LE_RUNLEN_MAX) last ∧
      t.reg (A.LE_RUNS n) = (if s.reg (A.LE_RUNS n) = 0xFFFFFFFF then 0xFFFFFFFF else s.reg (A.LE_RUNS n) + 1) ∧
      t.chans = u.chans ∧ t.cores = s.cores ∧ t.mem = s.mem
    (s.lawAt n 0 = true → x.skip = false → ∃ t, ends (.leEnd n .none) t ∧ t.lawWords = s.lawWords) ∧
    (s.lawAt n 0x02 = true → x.skip = false → opE (s.lawOp n x.pc) = true → ∃ t, ends (.leMov n .none) t ∧
      t.lawWord n (opD (s.lawOp n x.pc)) = s.lawWord n (opA (s.lawOp n x.pc))) ∧
    (s.lawAt n 0x04 = true → ∃ t, ends (.leAdd n .program) t ∧ t.lawWords = s.lawWords ∧
      t.bit (A.LE_STATUS n) F.LE_STATUS_LIMIT = true ∧ (s.bit (A.LE_STATUS n) F.LE_STATUS_LIMIT = false →
        t.fld (A.LE_LIMIT_INFO n) F.LE_LIMIT_INFO_CAUSE = 5 ∧ t.fld (A.LE_LIMIT_INFO n) F.LE_LIMIT_INFO_PC = x.pc % 1024)) ∧
    (s.lawAt n 0x04 = true → x.skip = true → opE (s.lawOp n x.pc) = false →
      x.ops + 1 < s.fld (A.LE_RUNCFG n) F.LE_RUNCFG_MAX_OPS →
      Answers (.leAdd n .none) s ((u.setLaw n { x with skip := false }).lawAfter n (x.pc + 1)))) ∧
  (∀ (s : State) (n : Fin 32), s.runnerOn = true → s.bootTesting = false → s.lawRunning n = false → s.lawDisabled n = false →
    (∀ l ∈ (s.law n).latches, l.port < 4) → (s.law n).wait = .none →
    let mode := fun q => s.fld (A.LE_PORT n q) F.LE_PORT_MODE
    let runs := fun (t : State) (entry since : Nat) (rc : Nat) => t.lawRunning n = true ∧ (t.law n).pc = entry ∧
      t.bit (A.LE_STATUS n) F.LE_STATUS_C = false ∧ (t.law n).ops = 0 ∧ t.rc = rc ∧ (t.law n).began = rc ∧
      (t.law n).nextRc = rc + 1 ∧ t.reg (A.LE_LATE n) = (if since + 1 < rc ∧ s.reg (A.LE_LATE n) ≠ 0xFFFFFFFF then
        s.reg (A.LE_LATE n) + 1 else s.reg (A.LE_LATE n)) ∧ t.chans = (s.passTo rc).chans ∧ t.cores = s.cores
    ((s.law n).closed = false → (s.lawPending n = true → s.heatRunning = true) → (∀ q < 4, mode q ≤ 1) →
      (∀ t0, (s.law n).heat = some t0 →
        t0 + 1 ≤ max s.rc (s.law n).nextRc ∨ (∀ l ∈ (s.law n).latches, mode l.port = 1 → t0 ≤ l.since) → ∃ t, exec (.leDispatch n .none) s = .next t ∧ (t.law n).heat = none ∧
        t.lawWords = s.lawWords ∧ (t.law n).latches = (s.law n).latches ∧
        runs t (s.fld (A.LE_RUNCFG n) F.LE_RUNCFG_HEAT_ENTRY) t0 (max s.rc (max (t0 + 1) (s.law n).nextRc))) ∧
      (∀ l, (s.law n).heat = none → (s.law n).latches = [l] → mode l.port = 1 → ∃ t, exec (.leDispatch n .none) s = .next t ∧
        (t.law n).latches = [] ∧
        t.lawWord n (s.fld (A.LE_PORT n l.port) F.LE_PORT_DEST) = (l.payload.setWidth 32).signExtend 40 ∧
        runs t (s.fld (A.LE_PORT n l.port) F.LE_PORT_ENTRY) l.since (max s.rc (max (l.since + 1) (s.law n).nextRc)))) ∧
    (∀ l, (s.law n).latches = [l] → mode l.port = 2 →
      let v := s.passTo (max (l.since + 1) (s.law n).nextRc)
      exec (.latchApply n) s =
        .next ((v.setLawWord n (s.fld (A.LE_PORT n l.port) F.LE_PORT_DEST) ((l.payload.setWidth 32).signExtend 40)).setLaw n
          { s.law n with latches := [], freed := mapInsert (s.law n).freed l.port (v.rc + 1) })))

/-- The shadow port, the output ports and the lookups of a law engine (R206, R217, R218, R222, R223). WDUT sends its value,
saturated and clamped under X[0]; OUT issues a token, or waits for its credit. A lookup that its port serves at once, with no
lower-numbered engine's lookup at it, interpolates:
with r = argument − ORIGIN inside the partition, VALUE + round(SLOPE · frac · 2^SLOPE_SHIFT / 2^16), where frac is the part of r
below 2^SHIFT as a 16-bit fraction; past an end it takes the end entry's VALUE and sets C. While its port is busy a lookup waits,
and the port serves the waiting engine afterwards. What follows operation 1,023 is log entry 79. -/
def Obligations.LawPortsAndLookups : Prop :=
  ∀ (s : State) (n : Fin 32),
    let u := s.lawNow n
    let pc := (s.law n).pc
    let w := s.lawOp n pc
    let a := s.S n (opA w)
    let b := s.S n (opB w)
    let word := fun (x : Int) => BitVec.ofInt 32 (max (-(2 ^ 31)) (min x (2 ^ 31 - 1)))
    let part := s.fld (A.LE_CFG n) (if opX w % 2 = 0 then F.LE_CFG_PART0 else F.LE_CFG_PART1)
    let port := s.fld (A.LT_PART_SIZE part) F.LT_PART_SIZE_PORT
    let free := mapGet (fun _ => 0) s.ports port ≠ u.rc + 1 ∧ ∀ m < n.val, u.looksUp port m = false
    let served : State := { u with ports := mapInsert s.ports port (u.rc + 1) }
    let size : Int := s.fld (A.LT_PART_SIZE part) F.LT_PART_SIZE_SIZE_M1 + 1
    let base := s.fld (A.LT_PART_BASE part) F.LT_PART_BASE_BASE
    let value := fun (i : Nat) => ((s.tableEntry (base + i)).setWidth 32).toInt
    let slope := fun (i : Nat) => ((s.tableEntry (base + i) >>> 32).setWidth 16).toInt
    let r := a - (s.reg (A.LT_PART_ORIGIN part)).toInt
    let step : Int := 2 ^ s.fld (A.LT_PART_SCALE part) F.LT_PART_SCALE_SHIFT
    let writes := fun (v : Int) (c : Bool) =>
      ((served.lawTakes n (opD w) v).putBit (A.LE_STATUS n) F.LE_STATUS_C c).lawAfter n (pc + 1)
    (s.lawGoes n 0x18 →
      let v := if opX w % 2 = 1 then min (max a b) (s.S n (opB w + 1)) else a
      Answers (.leWdut n .none) s ((((u.putBit (A.LE_STATUS n) F.LE_STATUS_C (decide (v ≠ a))).setLaw n { s.law n with
        shadows := (s.law n).shadows ++ [{ target := opD w % 16, value := word v }] })).lawAfter n (pc + 1))) ∧
    (∀ c, s.lawGoes n 0x19 → s.producerChannel (epLawOut n (opX w % 4)) = some c →
      (0 < (s.chan c).free → Answers (.leOut n .none) s
        (((u.setChan c { u.chan c with stall := none }).issueToken c (word b ++ word a) false false).lawAfter n (pc + 1))) ∧
      ((s.chan c).free = 0 → ∃ t, exec (.leOut n .none) s = .next t ∧ (t.law n).wait = .credit ∧ (t.law n).pc = pc ∧
        t.chan c = { u.chan c with stall := some (u.rc + 1) } ∧ (∀ m, m ≠ c → t.chan m = u.chan m) ∧ t.lawRunning n = true)) ∧
    (s.lawGoes n 0x15 → free →
      (0 ≤ r → r < size * step → Answers (.leLut n .none .none) s (writes (value (r / step).toNat +
        roundShift (s.lawRnd n) (slope (r / step).toNat * ((r % step) * 65536 / step) *
          2 ^ s.fld (A.LT_PART_SCALE part) F.LT_PART_SCALE_SLOPE_SHIFT) 16) false)) ∧
      (r < 0 → Answers (.leLut n .none .none) s (writes (value 0) true)) ∧
      (size * step ≤ r → Answers (.leLut n .none .none) s (writes (value (size - 1).toNat) true))) ∧
    (s.lawGoes n 0x16 → free → 0 ≤ a → a < size → Answers (.leLutx n .none .none) s
      ((((served.lawTakes n (opD w) (value a.toNat)).lawTakes n (opD w + 1) (slope a.toNat)).putBit (A.LE_STATUS n) F.LE_STATUS_C
        false).lawAfter n (pc + 1))) ∧
    (s.lawGoes n 0x15 → ¬ free → ∃ t, exec (.leLut n .none .none) s = .next t ∧ (t.law n).wait = .port ∧ (t.law n).pc = pc ∧
      t.lawWords = s.lawWords) ∧
    (∀ p : Fin 4, s.alive = true → s.waitsFor p n = true → (∀ m < n.val, s.looksUp p m = false) → s.portBusy p = false → opCode w = 0x15 →
      opE w = false → (s.law n).ops + 1 < s.fld (A.LE_RUNCFG n) F.LE_RUNCFG_MAX_OPS → p = port → 0 ≤ r → r < size * step →
      ∃ t, exec (.lookupServed p .none) s = .next t ∧ (t.law n).wait = .none ∧ (t.law n).pc = (pc + 1) % 1024 ∧
        t.S n (opD w) = max (-(2 ^ 39)) (min (2 ^ 39 - 1) (value (r / step).toNat + roundShift (s.lawRnd n) (slope (r / step).toNat *
          ((r % step) * 65536 / step) * 2 ^ s.fld (A.LT_PART_SCALE part) F.LT_PART_SCALE_SLOPE_SHIFT) 16)))

/-- The state words and the Law Table as a requester reaches them (R220, R223, R225, R465): a low word is held for its reader, the
high word writes the whole state word, or queues the whole entry for its read port; a read of a low word returns it and captures the
rest, after the reader's own stores have landed, through its port; a port with no lookup at it lands the store that waits for it. Law engines are disabled,
drained and enabled (R226, R227): EN = 0 sets DISABLE_PENDING, and an idle engine with no heats running reaches its disable point at
once; DISABLED follows when nothing is on its way; EN = 1 enables an empty engine, or waits. -/
def Obligations.LawStorageAndEnable : Prop :=
  (∀ (s : State) (who : Requester) (n : Fin 32) (w : Fin 256) (e : Fin 524288) (v : Word), s.mayWrite who = true →
    let r := s.readerOf who
    let x := s.reader r
    (s.basicAt (A.LE_STATE_LO n w) = false →
      exec (.stateLoWrite who n w v) s = .next (s.setReader r { x with stateLo := v }) ∧
      exec (.stateHiWrite who n w v) s = .next (s.setLawWord n w (v.setWidth 8 ++ x.stateLo))) ∧
    exec (.stateLoRead who n w) s = .next { s with
      readers := mapInsert s.readers r { x with stateHi := (s.lawWord n w >>> 32).setWidth 8 },
      host := { s.host with readData := (s.lawWord n w).setWidth 32 } } ∧
    exec (.tableLoWrite who e v) s = .next (s.setReader r { x with tableLo := v }) ∧
    exec (.tableHiWrite who e v) s = .next { s with
      tableQ := s.tableQ ++ [{ reader := r, entry := e, value := v.setWidth 16 ++ x.tableLo }] } ∧
    (s.tableQ = [] → s.portBusy (s.entryPort e) = false → (∀ m < 32, s.looksUp (s.entryPort e) m = false) →
      exec (.tableLoRead who e) s = .next { s.servePort (s.entryPort e) with
      readers := mapInsert s.readers r { x with tableHi := (s.tableEntry e >>> 32).setWidth 16 },
      host := { s.host with readData := (s.tableEntry e).setWidth 32 } }) ∧
    (∀ q, s.tableQ = [q] → q.reader = r → q.entry = e → ∃ t, exec (.tableLoRead who e) s = .next t ∧ t.tableQ = [] ∧
      t.tableEntry e = q.value ∧ t.host.readData = q.value.setWidth 32) ∧
    (∀ (p : Fin 4) q, s.tableQ = [q] → s.entryPort q.entry = p → s.portBusy p = false → (∀ m < 32, s.looksUp p m = false) →
      exec (.lookupServed p .none) s = .next { (s.servePort p).setTableEntry q.entry q.value with tableQ := [] })) ∧
  (∀ (s : State) (n : Fin 32),
    let x := s.law n
    let en := s.bit (A.LE_CTRL n) F.LE_CTRL_EN
    let empty := { x with latches := [], heat := none, closed := false, reenable := false, wait := .none }
    (s.writable (A.LE_CTRL n) →
      (en = true → s.lawDisabled n = false → s.lawRunning n = true → Answers (.leDisable n) s (((s.clrBit (A.LE_CTRL n)
        F.LE_CTRL_EN).setBit (A.LE_STATUS n) F.LE_STATUS_DISABLE_PENDING).setLaw n { x with reenable := false })) ∧
      (en = true → s.lawDisabled n = false → s.lawRunning n = false → s.heatRunning = false → x.latches = [] →
        Answers (.leDisable n) s (((s.clrBit (A.LE_CTRL n) F.LE_CTRL_EN).setBit (A.LE_STATUS n)
          F.LE_STATUS_DISABLE_PENDING).setLaw n { x with reenable := false, closed := true, heat := none })) ∧
      (en = false → s.testBlocks (lawRegions n) = false →
        (s.lawPending n = true → Answers (.leEnable n) s ((s.setBit (A.LE_CTRL n) F.LE_CTRL_EN).setLaw n { x with reenable := true })) ∧
        (s.lawPending n = false → s.lawDisabled n = true → Answers (.leEnable n) s (((s.setBit (A.LE_CTRL n) F.LE_CTRL_EN).clrBit
          (A.LE_STATUS n) F.LE_STATUS_DISABLED).setLaw n empty))) ∧
      (en = false → s.testBlocks (lawRegions n) = true →
        Answers (.leEnable n) s (s.setBit (A.LE_STATUS n) F.LE_STATUS_CFG_REJECT))) ∧
    (s.lawPending n = true → x.closed = true ∨ s.heatRunning = false → s.lawRunning n = false → x.shadows = [] →
      (x.reenable = true → exec (.leDisabled n) s = .next ((s.clrBit (A.LE_STATUS n) F.LE_STATUS_DISABLE_PENDING).setLaw n empty)) ∧
      (x.reenable = false → ∃ t, exec (.leDisabled n) s = .next t ∧ t.lawDisabled n = true ∧ t.lawPending n = false ∧
        t.cores = s.cores ∧ t.mem = s.mem ∧ t.lawWords = s.lawWords ∧
        ∀ m, (∀ q < 4, ∀ p ∈ s.channelsInto (epLawIn n q), p.1 ≠ m) → t.chan m = s.chan m)))

/-! ### PWM groups -/

/-- A running FREE group starts its next period at its instant (R230, R232, R235, R236): the period lasts PERIOD fine steps, PERIODS
counts it, and each unpaired output takes the interval of its clamped duty, placed by ALIGN, with C and D shifted by CD_OFS. Pulses
(R245 to R247): at its rising instant a released output of a running group commands its pulse and goes high, at its falling instant
the pulse is emitted and the ball goes low; COMMANDED − EMITTED − SUPPRESSED stays the pulses in progress, so no fault is raised. A
pulse on an output that is forced safe is suppressed. -/
def Obligations.PeriodsAndPulses : Prop :=
  (∀ (s : State) (g : Fin 48) (t0 : Nat), s.runnerOn = true → s.pgEn g = true → s.pgPending g = false → s.pgRunning g = true →
    (s.pg g).next = some t0 → (s.pg g).holdNext = false → s.pgSync g = 0 →
    (s.pg g).phase % s.pgPeriod g = s.pgPhase g % s.pgPeriod g → (s.pg g).restartAt = [] → 128 ≤ s.pgPeriod g →
    let len := s.pgPeriod g
    ∃ t, exec (.periodBoundary g) s = .next t ∧ t.rc = max s.rc (t0 / 64) ∧ (t.pg g).start = t0 ∧ (t.pg g).len = len ∧
      (t.pg g).next = some (t0 + len) ∧ t.pgRunning g = true ∧
      t.fld (A.PG_PERIODS g) F.PG_PERIODS_NUM = (s.fld (A.PG_PERIODS g) F.PG_PERIODS_NUM + 1) % 2 ^ 32 ∧
      (∀ j < 4, s.pgPaired g j = false → s.pgOutEn g j = true → (s.out (4 * g + j)).mode = .driven →
        let duty := (s.reg (A.PG_ACTIVE g j)).toInt
        let exact := if s.bit (A.PG_CFG g) F.PG_CFG_DFMT then (2 * (duty * len) + 2 ^ 31) / 2 ^ 32 else duty
        let d := (max 0 (min exact len)).toNat
        let from' := if j < 2 then t0 else t0 + len * s.fld (A.PG_CFG g) F.PG_CFG_CD_OFS / 4
        let rise := match s.fld (A.PG_CFG g) ⟨2 * j + 1, 2 * j⟩ with
          | 0 => from'
          | 1 => from' + (len - d) / 2
          | _ => from' + (len - d)
        (t.out (4 * g + j)).cur =
          if d = 0 then none else some { rise := rise, fall := some (rise + d), commanded := false, counted := false }) ∧ t.cores = s.cores ∧ t.mem = s.mem) ∧
  (∀ (s : State) (o : Fin 192) (rise fall : Nat),
    let x := s.out o
    let g := o.val / 4
    let blank := fun (e : Nat) => max x.blankEnd (e + s.blankLen g (o % 4))
    rise < fall → s.pgPaired g (o % 4) = false → x.older = [] → x.prev = none → s.pulsesOn g (o % 4) = true →
    (x.cur = some { rise := rise, fall := some fall, commanded := false, counted := false } → s.beforeBoundary g rise = true →
      x.commanded = x.emitted + x.suppressed → x.commanded ≠ -1 →
      (x.mode = .driven → x.pin ≠ .high → 0 < s.blankLen g (o % 4) →
        exec (.pulseCommanded o) s = .next ((s.passTo (rise / 64)).setOut o { x with
          pin := .high, blankEnd := blank (rise / 64), commanded := x.commanded + 1,
          cur := some { rise := rise, fall := some fall, commanded := true, counted := false } }).reblank) ∧
      (x.mode = .tripped → x.forcedAt < rise / 64 → x.suppressed ≠ -1 →
        exec (.pulseCommanded o) s = .next ((s.passTo (rise / 64)).setOut o { x with
          commanded := x.commanded + 1, suppressed := x.suppressed + 1,
          cur := some { rise := rise, fall := some fall, commanded := true, counted := true } }).reblank)) ∧
    (x.cur = some { rise := rise, fall := some fall, commanded := true, counted := false } → s.beforeBoundary g fall = true →
      x.commanded = x.emitted + x.suppressed + 1 → x.emitted ≠ -1 → x.mode = .driven → 0 < s.blankLen g (o % 4) →
      exec (.pulseEnd o) s = .next ((s.passTo (fall / 64)).setOut o { x with
        pin := .low, blankEnd := blank (fall / 64), emitted := x.emitted + 1,
        cur := some { rise := rise, fall := some fall, commanded := true, counted := true } }).reblank))

/-- Shadow registers (R217, R241, R242): a store, a law engine's shadow write or a token lands in the shadow register it names; at a
transfer rc the active registers take their shadow values under UPDATE: duties at once, or with the timing before the boundary, or
all at a heat while heats run; a disabled group takes all at once. -/
def Obligations.ShadowsLandAndTransfer : Prop :=
  ∀ (s : State) (g : Fin 48) (r : Fin 6) (v : Word), shadowLegal r v.toNat = true →
    (s.writable (aShadow g r) → s.lawTargets g r = false →
      exec (.shadowWrite (.store g r v)) s = .next (s.setReg (aShadow g r) v)) ∧
    (s.writable (aShadow g r) → s.lawTargets g r = true →
      exec (.shadowWrite (.store g r v)) s = .next (s.setBit (A.PG_STATUS g) F.PG_STATUS_CFG_REJECT)) ∧
    (∀ (n : Fin 32) (h : ShadowWrite) (rest : List ShadowWrite), s.alive = true → (s.law n).shadows = h :: rest → h.value = v →
      s.fld (A.LE_TGT n h.target) F.LE_TGT_PG = g → s.fld (A.LE_TGT n h.target) F.LE_TGT_REG = r →
      exec (.shadowWrite (.law n)) s = .next ((s.setLaw n { s.law n with shadows := rest }).setReg (aShadow g r) v)) ∧
    (∀ (n q : Nat) (t : Token), s.consumerReady (epShadow g) = true → s.chosen (epShadow g) = some (n, q) →
      (s.chan n).queue = [t] → (t.payload >>> 48).toNat % 8 = r → t.payload.setWidth 32 = v → s.lawTargets g r = false →
      ∃ u, exec (.shadowWrite (.token g)) s = .next u ∧ u.reg (aShadow g r) = v &&& definedMask (aShadow g r)) ∧
    (∀ kind : TransferKind, Regs.reserved s →
      let update := s.fld (A.PG_CFG g) F.PG_CFG_UPDATE
      let moves := if s.pgDisabled g then decide (kind = .landed) else
        match kind with
        | .landed => decide (update = 0 ∧ r.val < 4)
        | .beforeBoundary => decide (update = 1 ∨ (update = 0 ∧ 4 ≤ r.val))
        | .heat => decide (update = 2 ∧ s.heatRunning = true)
      ∃ t, exec (.shadowTransfer g kind) s = .next t ∧
        t.reg (A.PG_ACTIVE g r) = (if moves then s.reg (aShadow g r) else s.reg (A.PG_ACTIVE g r)) ∧
        (s.pgRunning g = false → t = { s with regs := t.regs } ∧ ∀ a, (∀ k < 6, a ≠ A.PG_ACTIVE g k) → t.reg a = s.reg a))

/-- Groups are disabled and enabled, and their accounts copied (R240, R247, R249 to R251): EN = 0 sets DISABLE_PENDING, with the
stop boundary at the next boundary when no heats run; at it the released outputs go safe, a pulse in progress is suppressed, and the
group is DISABLED; a SAFE 1 output that was high impedance is low then, and goes high after its wait (the model's choice, log entry 74);
EN = 1 arms it, a FREE group for the next rc; SNAP copies its outputs' counts, and a retrim locks the delay stages. An EN = 0 written
before the first period is log entry 99. -/
def Obligations.GroupsStopAndStart : Prop :=
  ∀ (s : State) (g : Fin 48),
    let p := s.pg g
    let en := s.bit (A.PG_CTRL g) F.PG_CTRL_EN
    let armed := { p with
      next := if s.pgSync g = 0 then some (64 * (s.rc + 1) + s.pgPhase g % max (s.pgPeriod g) 1) else none, restartAt := [],
      phase := s.pgPhase g % max (s.pgPeriod g) 1, armed := s.rc + 1, stopNext := false, holdNext := false, reenable := false, holdStop := false, orphan := false, wrapped := false, sawForced := false, sawLate := false,
      sawResync := false }
    (s.writable (A.PG_CTRL g) →
      (en = true → s.pgDisabled g = false → Answers (.pgDisable g) s (((s.clrBit (A.PG_CTRL g) F.PG_CTRL_EN).setBit (A.PG_STATUS g)
        F.PG_STATUS_DISABLE_PENDING).setPg g { p with
          stopNext := p.stopNext || !s.heatRunning || s.heatRef g || p.holdStop, reenable := false })) ∧
      (en = false → s.testBlocks (s.pgRegions g) = false →
        (s.pgPending g = true → Answers (.pgEnable g) s ((s.setBit (A.PG_CTRL g) F.PG_CTRL_EN).setPg g { p with reenable := true })) ∧
        (s.pgPending g = false → s.pgDisabled g = true → Answers (.pgEnable g) s (((s.setBit (A.PG_CTRL g) F.PG_CTRL_EN).clrBit
          (A.PG_STATUS g) F.PG_STATUS_DISABLED).setPg g armed)))) ∧
    (s.writable (A.PG_ACC_CTRL g) → ∃ t, exec (.accSnap g) s = .next t ∧ t.outs = s.outs ∧
      t.bit (A.PG_ACC_CTRL g) F.PG_ACC_CTRL_VALID = true ∧ ∀ j < 4, t.acc (4 * g + j) = (s.out (4 * g + j)).accCopy) ∧
    (s.runnerOn = true → s.pgPending g = true →
      p.stopNext = true ∨ s.heatRunning = false ∨ s.heatRef g = true ∨ s.pgRunning g = false →
      p.reenable = false → ∃ t,
      exec (.stopBoundary g) s = .next t ∧ t.pgDisabled g = true ∧ t.pgRunning g = false ∧ t.pgPending g = false ∧
      (t.pg g).next = none ∧ t.rc = max s.rc (p.next.getD 0 / 64) ∧
      (∀ j < 4, let o := 4 * g.val + j
        (t.out o).cur = none ∧ (t.out o).prev = none ∧ (t.out o).older = [] ∧ (t.out o).commanded = (s.out o).commanded ∧
        (t.out o).emitted + (t.out o).suppressed = (s.out o).emitted + (s.out o).suppressed + BitVec.ofNat 48 (s.out o).inProgress ∧
        ((s.out o).mode = .driven ∨ (s.out o).mode = .await → (t.out o).mode = .stopped ∧ (t.out o).pin = (if s.safeOf o = 2 then .z else
          if s.safeOf o = 1 ∧ (s.out o).pin = .high then .high else .low)))) ∧
    (s.runnerOn = true → exec (.delayRetrim false) s = .next (s.setBit A.PG_CAL F.PG_CAL_LOCKED) ∧
      exec (.delayRetrim true) s = .next ((s.setBit A.PG_CAL F.PG_CAL_LOCKED).setBit A.PG_CAL F.PG_CAL_CAL_FAULT))

/-! ### Sources, Ladle, memories and the debug port -/

/-- Software sources, balls, memory fills and the scrubber (R64, R325, R326, R335, R337, R432): SWI_SET sets and SWI_CLR clears the bits
written; a ball takes its level, and a UART takes a character into its FIFO of 64; a fill that ends makes its memory ready; the scrubber
repairs and counts a corrected error, and records the first uncorrectable one. That errors strike a memory by the scrubber's command is
the model's choice (log entry 104), and so is when the sources' levels are looked at while the clocks stand (log entry 55). -/
def Obligations.SourcesBallsAndScrub : Prop :=
  ∀ (s : State) (who : Requester) (k : Fin 4) (bits : Word) (a : Nat),
    let mask : BitVec 128 := bits.setWidth 128 <<< (32 * k.val)
    (s.mayWrite who = true →
      exec (.swiSet who k bits) s = .next { s with swi := s.swi ||| mask } ∧
      exec (.swiClr who k bits) s = .next (s.latching (fun s => { s with swi := s.swi &&& ~~~mask }))) ∧
    (∀ (n : Fin 114) (up : Bool) (events : BitVec 41),
      let t := gpioLevel n up events s
      exec (.gpioLevelChange n ⟨up, events, none⟩) s = .next (s.latching (gpioLevel n up events)) ∧
      t = { s with gpio := t.gpio, host := { s.host with pos := t.host.pos, events := events } } ∧
      (s.posOn n = false ∨ s.gpio.getLsbD n = up → t.host.pos = s.host.pos) ∧
      (∀ i < 114, t.gpio.getLsbD i = if i = n.val then up else s.gpio.getLsbD i) ∧
      ∀ w : Word, exec (.gpioLevelChange n ⟨up, events, some w⟩) s =
        .next (s.latching (fun s => receiveAt n w (gpioLevel n up events s)))) ∧
    (∀ (n : Fin 8) (w : Word), s.muxPrimary (57 + 2 * n.val) = true → (s.fld A.HOST_EN F.HOST_EN_UART).testBit n = true →
      let fifo := mapGet (fun _ => []) s.host.uart n
      mapGet (fun _ => []) (receiveAt (57 + 2 * n.val) w s).host.uart n = (fifo ++ [w.setWidth 8]).take (max 64 fifo.length)) ∧
    (∀ e, s.powered = true → exec (.scrub a (.struck e)) s = .next (s.strike a e)) ∧
    (∀ dram, s.supply.phase = .good → s.supply.power ≠ .dormant → s.engineBusy = false → exec (.memoryFillDone dram) s =
      .next (s.setBit A.MEM_STATUS (if dram then F.MEM_STATUS_DRAM_READY else F.MEM_STATUS_SRAM_READY))) ∧
    (s.runnerOn = true → regionOf a = .sram → regionOf (a / 8 * 8) = .sram → s.memoryWaits a = false →
      s.poisoned (a / 8 * 8) = false →
      let u := { s with upsets := mapErase s.upsets (a / 8 * 8) }
      (s.upset a = .none → exec (.scrub a .none) s = .next s) ∧
      (s.upset a = .corrected → exec (.scrub a .none) s = exec (.scrub a .corrected) s) ∧
      exec (.scrub a .corrected) s = .next ((if s.reg A.MEM_SRAM_CORR = 0xFFFFFFFF then u
        else u.setReg A.MEM_SRAM_CORR (s.reg A.MEM_SRAM_CORR + 1)).setBit A.MEM_STATUS F.MEM_STATUS_CORR) ∧
      (∃ t, exec (.scrub a .uncorrectable) s = .next t ∧ t.poisoned a = true ∧ t.eccReported = true ∧ t.mem = s.mem ∧
        t.bit A.MEM_STATUS F.MEM_STATUS_FATAL = true ∧ (s.bit A.MEM_STATUS F.MEM_STATUS_FATAL = false →
          t.reg A.MEM_FATAL_ADDR = BitVec.ofNat 32 (a / 8) &&& definedMask A.MEM_FATAL_ADDR)))

/-- A Ladle engine is enabled, started, stopped and cleared (R351, R353, R354): GO sets BUSY and clears the indexes, and is refused
while DISABLED or in FAULT, and with the reserved COUNT 0, or 1 in a SINK; a GO while BUSY keeps the token that a SINK has accepted, and
the unit that a stop waits for (the model's choice, log entry 49); EN = 0 with no unit in progress stops at once; FAULT written 1 clears FAULT, HELD, CAUSE. A
Ladle unit (R351, R352): COPY moves one word, SINK writes its payload into its ring, and each counts a unit; the last one sets DONE.
Every byte outside the destination is unchanged. A misaligned source stops the engine with FAULT, CAUSE 4. -/
def Obligations.LadleEnginesMoveWords : Prop :=
  (∀ (s : State) (who : Requester) (n : Fin 8), s.writable (A.LD_CTRL n) → s.mayWrite who = true →
    let x := s.ladle n
    let en := s.bit (A.LD_CTRL n) F.LD_CTRL_EN
    let stop := x.stopping && !en
    let run : LadleState :=
      { units := 0, wrIdx := 0, starter := if s.ldMode n = 0 then byCore who else none, stopping := stop,
        payload := if s.ldMode n = 1 ∨ stop = true then x.payload else none }
    let reserved := s.ldCount n = 0 ∨ (s.ldMode n = 1 ∧ s.ldCount n = 1)
    s.ldMode n ≤ 2 →
    (s.ldDisabled n = false → s.ldFault n = false → ¬ reserved →
      (∃ t, exec (.ladleGo who n) s = .next t ∧ t.ladle n = run ∧ t.ldBusy n = true ∧ t.ldRd n = 0 ∧ t.cores = s.cores ∧ t.mem = s.mem) ∧
      ((∀ c, s.producerChannel (epLdRead n) = some c → (s.chan c).stall = none) → Answers (.ladleGo who n) s
        (((s.setFld (A.LD_IDX n) F.LD_IDX_RD_IDX 0).setBit (A.LD_STATUS n) F.LD_STATUS_BUSY).setLadle n run))) ∧
    (s.ldDisabled n = true ∨ s.ldFault n = true ∨ reserved →
      Answers (.ladleGo who n) s (s.setBit (A.LD_STATUS n) F.LD_STATUS_CFG_REJECT)) ∧
    (en = false → s.ldFault n = false → s.ldDisabled n = true → Answers (.ladleEnable n) s
      ((s.setBit (A.LD_CTRL n) F.LD_CTRL_EN).clrBit (A.LD_STATUS n) F.LD_STATUS_DISABLED)) ∧
    (en = true → s.ldFault n = false → s.ldDisabled n = false →
      (x.payload = none → ∃ t, exec (.ladleDisable n) s = .next t ∧ t.bit (A.LD_CTRL n) F.LD_CTRL_EN = false ∧ t.ldBusy n = false ∧
        t.ldDisabled n = true ∧ t.ladle n = { x with stopping := false } ∧ t.cores = s.cores ∧ t.mem = s.mem ∧
        (s.channelsInto (epLdWrite n) = [] → (∀ c, s.producerChannel (epLdRead n) = some c → (s.chan c).stall = none) → t.like
          ((((s.clrBit (A.LD_CTRL n) F.LD_CTRL_EN).clrBit (A.LD_STATUS n) F.LD_STATUS_BUSY).setBit (A.LD_STATUS n)
            F.LD_STATUS_DISABLED).setLadle n { x with stopping := false }))) ∧
      (x.payload.isSome = true → Answers (.ladleDisable n) s
        ((s.clrBit (A.LD_CTRL n) F.LD_CTRL_EN).setLadle n { x with stopping := true }))) ∧
    (s.ldFault n = true → ∃ t, exec (.ladleFaultClear n) s = .next t ∧ t = { s with regs := t.regs, supply := t.supply } ∧
      (s.clocksStand = false → t.supply = s.supply) ∧
      t.ldFault n = false ∧ t.bit (A.LD_STATUS n) F.LD_STATUS_HELD = false ∧ t.fld (A.LD_STATUS n) F.LD_STATUS_CAUSE = 0 ∧
      t.ldDisabled n = s.ldDisabled n ∧ (∀ a, a ≠ A.LD_STATUS n → t.reg a = s.reg a))) ∧
  (∀ (s : State) (n : Fin 8),
    let x := s.ladle n
    let src := s.ldSrc n + 4 * x.units
    let dst := s.ldDst n + 4 * x.units
    let ring := s.ldDst n + 8 * s.ldWr n
    let sram := fun (a : Nat) => 0x10000000 ≤ a ∧ regionOf a = .sram ∧ s.memoryWaits a = false ∧ s.poisoned a = false ∧ s.upset a = .none
    let last := s.ldCount n ≤ x.units + 1
    (s.ldRuns n 0 = true → x.stopping = false → src % 4 = 0 → dst % 4 = 0 → sram src → sram dst →
      ∃ t, exec (.ladleUnit n .none) s = .next t ∧ t.bytesAt dst 4 = s.bytesAt src 4 ∧
        (∀ a, a < dst ∨ dst + 4 ≤ a → t.byteAt a = s.byteAt a) ∧ (t.ladle n).units = x.units + 1 ∧
        (last → t.bit (A.LD_STATUS n) F.LD_STATUS_DONE = true ∧ t.ldBusy n = false) ∧
        (¬ last → t.ldBusy n = true) ∧ t.cores = s.cores) ∧
    (∀ p, s.ldRuns n 1 = true → x.stopping = false → x.payload = some p → ring % 8 = 0 → sram ring →
      ∃ t, exec (.ladleUnit n .none) s = .next t ∧ t.bytesAt ring 8 = leBytes 8 p.toNat ∧
        (∀ a, a < ring ∨ ring + 8 ≤ a → t.byteAt a = s.byteAt a) ∧ (t.ladle n).units = x.units + 1 ∧
        t.ldWr n = (x.wrIdx + 1) % max 1 (s.ldCount n) ∧ (t.ladle n).payload = none ∧ t.ldBusy n = true) ∧
    (s.ldRuns n 2 = true → x.payload = none → (s.ldSrc n + 8 * x.units) % 8 = 0 → sram (s.ldSrc n + 8 * x.units) →
      (∀ c, s.producerChannel (epLdRead n) = some c → (s.chan c).free = 0) → ∃ t, exec (.ladleUnit n .none) s = .next t ∧
        (t.ladle n).payload = some (BitVec.ofNat 64 (leNat (s.bytesAt (s.ldSrc n + 8 * x.units) 8))) ∧
        (t.ladle n).units = x.units ∧ t.mem = s.mem) ∧
    (s.ldRuns n 0 = true → src % 4 ≠ 0 → ∃ t, exec (.ladleUnit n .none) s = .next t ∧ t.ldFault n = true ∧
      t.fld (A.LD_STATUS n) F.LD_STATUS_CAUSE = 4 ∧ t.ldDisabled n = true ∧ t.ldBusy n = false ∧
      t.reg (A.LD_FAULT_ADDR n) = BitVec.ofNat 32 src ∧ t.mem = s.mem))

/-- The debug port, while its session is open (R375, R448): it halts a core at its next boundary, steps and resumes it, and writes
the PC, a frame register or a control register of a core that stands halted; both cores of a locked pair take it. Without a session it
does nothing. That a core in an instruction ends it before it stands is the model's choice (log entry 52). -/
def Obligations.DebugPortActsOnHaltedCores : Prop :=
  ∀ (s : State) (c : Fin 16) (v : Cell),
    let r := if s.pairLocked (c / 2) then c.val / 2 * 2 else c.val
    let k := s.core r
    let both := fun (f : Machine.Core → Machine.Core) (u : State) =>
      if s.pairLocked (c / 2) = true ∧ s.pairState (c / 2) ≠ 3 then
        (u.setCore r (f k)).setCore (r + 1) (f (s.core (r + 1))).asChecker
      else u.setCore r (f k)
    (s.debugOpen = true →
      exec (.debugHalt c) s =
        .next (both (fun k => { k with debugHalt := true, debugStep := k.job.isSome || k.loadWait.isSome }) s) ∧
      exec (.debugResume c) s = .next (s.latching (both (fun k => { k with debugHalt := false, debugStep := false }))) ∧
      (k.debugHalt = true →
        exec (.debugStep c) s = .next (both (fun k => { k with debugStep := true }) s) ∧
        (k.debugStep = false →
          exec (.debugRegisterWrite c .pc v) s = .next (both (fun k => { k with pc := v.setWidth 32 }) s) ∧
          (∀ f, exec (.debugRegisterWrite c (.frame f) v) s = .next (both (fun k => k.setFrame f v) s)) ∧
          exec (.debugRegisterWrite c (.control 0x60) v) s = .next (both (fun k => { k with pkr := v.setWidth 32 }) s)))) ∧
    (s.debugOpen = false → exec (.debugHalt c) s = .next s ∧ exec (.debugStep c) s = .next s ∧ exec (.debugResume c) s = .next s ∧
      exec (.debugRegisterWrite c .pc v) s = .next s)

/-! ### Flash -/

/-- A flash command is accepted or refused (R385 to R388, R392): it sets BUSY and takes its data at its start; UNLOCK and SET_PWD
take the password's hash and clear the password; SUSPEND and RESUME act on an erase; a write in user mode, one with a wrong OFFSET,
one while BUSY, and one but PROGRAM, RESUME and LOCK while SUSPENDED is refused, but SUSPEND is accepted while an erase runs that no cause
has stopped (the model's reading, log entry 23). A flash command ends (R385, R387, R388, R391, R392): BUSY clears, DONE is set, RESULT takes its code.
PROGRAM writes its 64 bytes to a blank line of an unprotected block and no other byte; ERASE returns its block to 0xFF; UNLOCK
compares hashes, and the fifth failure locks it out until the lockout expires. RESUME takes the suspended erase up again, which
then ends without its causes being judged once more. -/
def Obligations.FlashCommandsRun : Prop :=
  (∀ (s : State) (who : Requester), s.mayWrite who = true → s.basicAt A.FLASH_CMD = false → Regs.reserved s →
    let refused := fun (i : Instr) => Answers i s (s.setBit A.FLASH_STATUS F.FLASH_STATUS_CFG_REJECT)
    (byUser who = true ∨ s.flashBusy = true → (∀ x, refused (.flashProgram who x) ∧ refused (.flashErase who x)) ∧
      refused (.flashResume who) ∧ refused (.flashSwap who) ∧ refused (.flashUnlock who) ∧ refused (.flashLock who) ∧
      refused (.flashSetPwd who) ∧ refused (.flashSetProt who)) ∧
    (byUser who = true ∨ s.flashBusy = true ∧ s.erasing = none → refused (.flashSuspend who)) ∧
    (s.bit A.FLASH_STATUS F.FLASH_STATUS_SUSPENDED = true → (∀ x, refused (.flashErase who x)) ∧ refused (.flashSuspend who) ∧
      refused (.flashSwap who) ∧ refused (.flashUnlock who) ∧ refused (.flashSetPwd who) ∧ refused (.flashSetProt who)) ∧
    (∀ x : BitVec 26, x.toNat % 64 ≠ 0 → refused (.flashProgram who x)) ∧
    (∀ x : BitVec 26, x.toNat % 0x20000 ≠ 0 → refused (.flashErase who x))) ∧
  (∀ (s : State) (who : Requester), s.mayWrite who = true → s.basicAt A.FLASH_CMD = false → Regs.reserved s →
    byUser who = false →
    let starts := fun (i : Instr) (j : FlashJob) (recs : List (Nat × Nat)) =>
      Answers i s ({ s with flash := { s.flash with job := some j, records := recs ++ s.flash.records } }.setBit A.FLASH_STATUS
        F.FLASH_STATUS_BUSY)
    let hash := fun (i : Instr) (j : FlashJob) => ∃ t, exec i s = .next t ∧ t.flash = { s.flash with job := some j } ∧
      t.flashBusy = true ∧ (∀ k < 4, t.reg (A.FLASH_PWD k) = 0) ∧ t = { s with regs := t.regs, flash := t.flash }
    (s.flashBusy = false → s.bit A.FLASH_STATUS F.FLASH_STATUS_SUSPENDED = false → s.flash.suspended = none → s.flash.job = none →
      (∀ x : BitVec 26, x.toNat % 64 = 0 → starts (.flashProgram who x) (.program x.toNat s.lineBuffer) [(1, x.toNat)]) ∧
      (∀ x : BitVec 26, x.toNat % 0x20000 = 0 → starts (.flashErase who x) (.erase (x.toNat / 0x20000) false) [(2, x.toNat)]) ∧
      starts (.flashSuspend who) (.suspend none) [] ∧ starts (.flashResume who) .resume [] ∧
      starts (.flashSwap who) .swap [(3, 0)] ∧ starts (.flashLock who) .lock [] ∧
      starts (.flashSetProt who) (.setProt (s.reg (A.FLASH_BUF 1) ++ s.reg (A.FLASH_BUF 0))) [] ∧
      hash (.flashUnlock who) (.unlock (sha256 s.password)) ∧ hash (.flashSetPwd who) (.setPwd (sha256 s.password))) ∧
    (∀ b, s.flashBusy = false → s.bit A.FLASH_STATUS F.FLASH_STATUS_SUSPENDED = true → s.flash.suspended = some b →
      (∀ x : BitVec 26, x.toNat % 64 = 0 → starts (.flashProgram who x) (.program x.toNat s.lineBuffer) [(1, x.toNat)]) ∧
      starts (.flashLock who) .lock [] ∧ Answers (.flashResume who) s (({ s with flash := { s.flash with job := some (.erase b true), suspended := none } }.clrBit
        A.FLASH_STATUS F.FLASH_STATUS_SUSPENDED).setBit A.FLASH_STATUS F.FLASH_STATUS_BUSY)) ∧
    (∀ b, s.flashBusy = true → s.erasing = some b → s.bit A.FLASH_STATUS F.FLASH_STATUS_SUSPENDED = false →
      Answers (.flashSuspend who) s (s.setFlash { s.flash with job := some (.suspend (some b)) })) ∧
    (s.mayWrite who = true → s.bit A.FLASH_INTERRUPTED F.FLASH_INTERRUPTED_VALID = true → s.runnerOn = true →
      Answers .interruptedClear s (s.setReg A.FLASH_INTERRUPTED 0))) ∧
  (∀ (s : State),
    let ends := fun (t : State) (result : Nat) => t.flashBusy = false ∧ t.bit A.FLASH_STATUS F.FLASH_STATUS_DONE = true ∧
      t.fld A.FLASH_STATUS F.FLASH_STATUS_RESULT = result ∧ t.flash.job = none
    let locked := s.flash.pwdLocked
    s.engineBusy = false →
    (∀ x data, s.flash.job = some (.program x data) → x % 64 = 0 → data.length = 64 → s.programCause (x / 64) = 0 →
      ∀ e, ∃ t, exec (.commandEnd ⟨true, e⟩) s = .next t ∧ ends t 0 ∧ t.flashBytes x 64 = data ∧
        (∀ y, y < x ∨ x + 64 ≤ y → t.flashByte y = s.flashByte y) ∧ t.blankLine (x / 64) = false ∧ t.mem = s.mem) ∧
    (∀ x data v e, s.flash.job = some (.program x data) → s.programCause (x / 64) ≠ 0 → ∃ t, exec (.commandEnd ⟨v, e⟩) s = .next t ∧
      ends t (s.programCause (x / 64)) ∧ t.flash.bytes = s.flash.bytes ∧ t.flash.lines = s.flash.lines) ∧
    (∀ b g e, s.flash.job = some (.erase b g) → g = true ∨ s.eraseCause b = 0 → 10 ≤ b → b ∉ s.flash.retire → ∃ t,
      exec (.commandEnd ⟨true, e⟩) s = .next t ∧ ends t 0 ∧ (∀ y < 0x20000, t.flashByte (b * 0x20000 + y) = 0xFF) ∧
        (∀ y, y / 0x20000 ≠ b → t.flashByte y = s.flashByte y)) ∧
    (∀ b v e, s.flash.job = some (.erase b false) → s.eraseCause b ≠ 0 → ∃ t, exec (.commandEnd ⟨v, e⟩) s = .next t ∧
      ends t (s.eraseCause b) ∧ t.flash.bytes = s.flash.bytes ∧ t.flash.lines = s.flash.lines) ∧
    (∀ b v e, s.flash.job = some (.suspend (some b)) → ∃ t, exec (.commandEnd ⟨v, e⟩) s = .next t ∧ ends t 0 ∧ t.flash.suspended = some b ∧
      t.reg A.FLASH_SUSPEND_BLOCK = BitVec.ofNat 32 b ∧
      t.bit A.FLASH_STATUS F.FLASH_STATUS_SUSPENDED = true) ∧
    (∀ h v e, s.flash.job = some (.unlock h) → ∃ t, exec (.commandEnd ⟨v, e⟩) s = .next t ∧
      (locked = true → ends t 9 ∧ t.flashUnlocked = s.flashUnlocked) ∧
      (locked = false → h = s.flash.pwdHash → ends t 0 ∧ t.flashUnlocked = true ∧ t.flash.pwdFails = 0) ∧
      (locked = false → h ≠ s.flash.pwdHash → ends t 8 ∧ t.flash.pwdFails = s.flash.pwdFails + 1 ∧
        t.flash.pwdLocked = decide (5 ≤ s.flash.pwdFails + 1))) ∧
    (∀ v e, s.flash.job = some .lock → ∃ t, exec (.commandEnd ⟨v, e⟩) s = .next t ∧ ends t 0 ∧ t.flashUnlocked = false) ∧
    exec .flashLockoutExpiry s = .next ({ s with flash := { s.flash with pwdLocked := false } }.clrBit A.FLASH_STATUS
      F.FLASH_STATUS_LOCKOUT))

/-! ### Twiast -/

/-- What a received TOKEN or LINK flit does (R406, R408, R411, R414, R415, R417): a reserved TYPE or a bad CRC is counted and
discarded; the expected SEQ lands and counts; another SEQ asks once for a resend; an undeliverable token moves to DEAD; a LINK flit
acknowledges, returns credits and may ask for a resend. IDLE and ALIGN change nothing. A link's audit and DEAD (R411, R417): SNAP
copies the seven counters and sets VALID; clearing FULL frees DEAD, for the next undeliverable token where there is one; an AUDIT
flit that names more tokens than were sent raises the conservation alarm. -/
def Obligations.FlitsLandAndAreAudited : Prop :=
  (∀ (s : State) (p : Fin 4) (f : FlitWord),
    let x := s.port p
    let good := flitBits f 15 0 = flitCrc f
    let bad := s.countEvent (A.TW_CRC_ERRORS p) (A.TW_STATUS p) F.TW_STATUS_COUNT_FULL
    let tok : TwToken := { dest := BitVec.ofNat 11 (flitBits f 119 109), src := BitVec.ofNat 11 (flitBits f 108 98),
                           hops := BitVec.ofNat 8 (flitBits f 87 80), payload := BitVec.ofNat 64 (flitBits f 79 16) }
    let ack := (BitVec.ofNat 10 (flitBits f 123 114) - x.oldest).toNat
    let others := fun (t : State) => t = { s with regs := t.regs, tw := t.tw, alarm := t.alarm } ∧ ∀ q, q ≠ p → t.port q = s.port q
    s.alive = true → x.link ≠ .disabled → x.link ≠ .down →
    (9 ≤ flitType f → exec (.idleFlit p f) s = .next bad) ∧
    (flitType f < 9 → exec (.idleFlit p f) s = .next s ∧ exec (.alignFlit p f) s = .next s) ∧
    (flitType f = 1 → ¬ good → exec (.tokenFlit p f) s = .next bad) ∧
    (x.link = .up → flitType f = 1 → good → flitBits f 97 88 = x.rxSeq.toNat →
      (s.route p tok ≠ .dead → (∀ u ∈ x.localBuf ++ x.transitBuf, s.route p u ≠ .dead) →
        ∃ t, exec (.tokenFlit p f) s = .next t ∧ others t ∧ (t.port p).rxSeq = x.rxSeq + 1 ∧ (t.port p).nakSent = false ∧
          (t.port p).count 3 = x.count 3 + 1 ∧ (t.port p).dead = x.dead ∧
          (t.port p).localBuf = (if tok.dest.toNat = s.node then x.localBuf ++ [tok] else x.localBuf) ∧
          (t.port p).transitBuf = (if tok.dest.toNat = s.node then x.transitBuf else x.transitBuf ++ [tok])) ∧
      (s.route p tok = .dead → x.dead = none → x.localBuf = [] → x.transitBuf = [] →
        ∃ t, exec (.tokenFlit p f) s = .next t ∧ others t ∧ (t.port p).dead = some tok ∧ (t.port p).localBuf = [] ∧
          (t.port p).transitBuf = [] ∧ (t.port p).count 6 = x.count 6 + 1 ∧ t.bit (A.TW_STATUS p) F.TW_STATUS_DEAD = true ∧
          t.reg (A.TW_DEAD_HI p) ++ t.reg (A.TW_DEAD_LO p) = tok.payload)) ∧
    (x.link = .up → flitType f = 1 → good → flitBits f 97 88 ≠ x.rxSeq.toNat → exec (.tokenFlit p f) s =
      .next (if x.nakSent then s else s.setPort p { x with nakSent := true, nakDue := true })) ∧
    (x.link = .up → flitType f = 2 → good → ∃ t, exec (.linkFlit p f) s = .next t ∧
      (ack ≤ x.retry.length → (flitBits f 113 113 = 0 ∨ ack = x.retry.length ∨ 0 < ack ∨ x.resends < 16) → others t ∧
        (t.port p).retry = x.retry.drop ack ∧ (t.port p).count 2 = x.count 2 + BitVec.ofNat 48 ack ∧
        (t.port p).localCr = min 32 (x.localCr + flitBits f 112 107) ∧
        (t.port p).transitCr = min 32 (x.transitCr + flitBits f 106 101) ∧
        (flitBits f 113 113 = 1 → (t.port p).unsent = x.retry.length - ack)) ∧
      (x.retry.length < ack → t.bit (A.TW_STATUS p) F.TW_STATUS_CONS_FAULT = true ∧ t.alarm = true))) ∧
  (∀ (s : State) (p : Fin 4) (f : FlitWord),
    let x := s.port p
    let n := BitVec.ofNat 48 (flitBits f 123 76) + x.linkBase - x.count 2
    (s.runnerOn = true → Regs.reserved s →
      exec (.twAuditSnap p) s = .next ((s.setPort p { x with copy := x.audit }).setBit (A.TW_AUDIT_CTRL p) F.TW_AUDIT_CTRL_VALID) ∧
      ((∀ u ∈ x.localBuf ++ x.transitBuf, s.route p u ≠ .dead) → s.bit (A.TW_DEAD_INFO p) F.TW_DEAD_INFO_FULL = true →
        exec (.deadClear p) s = .next ((s.setPort p { x with dead := none }).clrBit (A.TW_DEAD_INFO p) F.TW_DEAD_INFO_FULL)) ∧
      (∀ u, x.localBuf = [] → x.transitBuf = [u] → s.route p u = .dead → ∃ t, exec (.deadClear p) s = .next t ∧
        t = { s with regs := t.regs, tw := t.tw, alarm := t.alarm } ∧ (t.port p).dead = some u ∧ (t.port p).transitBuf = [] ∧
        (t.port p).transitFreed = x.transitFreed + 1 ∧ t.bit (A.TW_DEAD_INFO p) F.TW_DEAD_INFO_FULL = true ∧
        t.fld (A.TW_DEAD_INFO p) F.TW_DEAD_INFO_SRC = u.src.toNat ∧ t.fld (A.TW_DEAD_INFO p) F.TW_DEAD_INFO_DEST = u.dest.toNat)) ∧
    (s.alive = true → x.link = .up → flitType f = 6 → flitBits f 15 0 = flitCrc f →
      (n ≤ x.count 1 - x.count 2 → exec (.auditFlit p f) s = .next s) ∧
      (x.count 1 - x.count 2 < n → ∃ t, exec (.auditFlit p f) s = .next t ∧ t = { s with regs := t.regs, alarm := true } ∧
        t.bit (A.TW_STATUS p) F.TW_STATUS_CONS_FAULT = true)))

/-- A word-clock slot of an UP port (R409, R412 to R415): control flits keep 16 slots apart; a resend goes before anything else; a
token takes the next SEQ, a credit of its class and a retry place; one passed on loses a hop. A retry timeout resends all, and after
16 resends of one flit the link goes DOWN. Three readings are the model's own: what the limit of 16 counts (log entry 32), which token
goes first (log entry 34), and that a LINK flit carries the credits freed since the last one (log entry 75). -/
def Obligations.SlotsSendFlits : Prop :=
  ∀ (s : State) (p : Fin 4),
    let x := s.port p
    let q := mate p
    let others := fun (t : State) => t = { s with regs := t.regs, tw := t.tw, alarm := t.alarm }
    let loc := fun (u : TwToken) => decide (s.fld (A.TW_PARTNER p) F.TW_PARTNER_NODE = u.dest.toNat)
    let took := fun (t : State) (u : TwToken) => (t.port p).sent = tokenFlit x.txSeq u ∧ (t.port p).txSeq = x.txSeq + 1 ∧
      (t.port p).retry = x.retry ++ [(x.txSeq, u)] ∧ (t.port p).localCr = x.localCr - (if loc u then 1 else 0) ∧
      (t.port p).transitCr = x.transitCr - (if loc u then 0 else 1) ∧ (t.port p).count 1 = x.count 1 + 1
    s.alive = true → x.link = .up →
    (∀ c rest due, 15 ≤ x.sinceControl → x.control = c :: rest → exec (.flitTransmit p due) s =
      .next (s.setPort p { x with sent := c, control := rest, sinceControl := 0 })) ∧
    (15 ≤ x.sinceControl → x.control = [] → exec (.flitTransmit p (some .align)) s =
        .next (s.setPort p { x with sent := alignFlitWord, sinceControl := 0 }) ∧
      exec (.flitTransmit p (some .audit)) s = .next (s.setPort p { x with sent := auditFlitOf (x.count 3), sinceControl := 0 }) ∧
      exec (.flitTransmit p (some .link)) s = .next (s.setPort p { x with
        sent := linkFlit x.rxSeq x.nakDue (min 32 x.localFreed) (min 32 x.transitFreed), nakDue := false, sinceControl := 0,
        localFreed := x.localFreed - min 32 x.localFreed, transitFreed := x.transitFreed - min 32 x.transitFreed })) ∧
    (∀ due, x.sinceControl < 15 →
      (∀ h, 0 < x.unsent → x.retry[x.retry.length - x.unsent]? = some h → exec (.flitTransmit p due) s = .next (s.setPort p
        { x with unsent := x.unsent - 1, sent := tokenFlit h.1 h.2, sinceControl := x.sinceControl + 1 })) ∧
      (x.unsent = 0 → x.crossing = [] → s.passing p = [] → s.toInject p = [] → exec (.flitTransmit p due) s =
        .next (s.setPort p { x with sent := 0, sinceControl := x.sinceControl + 1 })) ∧
      (∀ u us, x.unsent = 0 → x.crossing = u :: us → s.passing p = [] → s.toInject p = [] → s.mayTransmit p true u = true →
        ∃ t, exec (.flitTransmit p due) s = .next t ∧ others t ∧ took t u ∧ (t.port p).crossing = us ∧ (t.port p).slots = 0 ∧
          ∀ r, r ≠ p → t.port r = s.port r) ∧
      (∀ u us, x.unsent = 0 → s.passing p = (q, u) :: us → x.slots < 7 → s.mayTransmit p false u = true →
        ∃ t, exec (.flitTransmit p due) s = .next t ∧ others t ∧ took t { u with hops := u.hops - 1 } ∧
          (t.port p).slots = x.slots + 1 ∧ (t.port p).crossing = x.crossing ∧ (t.port q).count 5 = (s.port q).count 5 + 1)) ∧
    (x.retry ≠ [] → x.resends < 16 → exec (.retryTimeout p) s = .next ((s.setPort p
        { x with unsent := x.retry.length, resends := x.resends + 1 }).countEvent (A.TW_RETRIES p) (A.TW_STATUS p) F.TW_STATUS_COUNT_FULL)) ∧
    (x.retry ≠ [] → 16 ≤ x.resends → ∃ t, exec (.retryTimeout p) s = .next t ∧ others { t with supply := s.supply } ∧
      (s.clocksStand = false ∨ s.timeSrc ≠ p → t.supply = s.supply) ∧ t.port p = { x with link := .down } ∧
      t.bit (A.TW_STATUS p) F.TW_STATUS_RETRY_EXHAUSTED = true ∧ t.bit (A.TW_STATUS p) F.TW_STATUS_LINK_DOWN = true)

/-- Bring-up and going down (R418 to R421): EN starts TRAIN, LOCK and INIT follow, a matching INIT flit of a fresh partner takes the
port UP with 32 credits of each class; 10 ms without UP, and a loss, lead to DOWN and from there to TRAIN; EN = 0 drains, and a
drained port is DISABLED. With a partner that is not fresh, what it has received, in this port's own numbering, counts as acknowledged
(the model's choice between R419's rules 1 and 3, log entry 97). -/
def Obligations.LinksComeUpAndGoDown : Prop :=
  ∀ (s : State) (p : Fin 4) (f : FlitWord),
    let x := s.port p
    let only := fun (t : State) => t = { s with regs := t.regs, tw := t.tw } ∧ ∀ q, q ≠ p → t.port q = s.port q
    let downs := fun (t : State) => only { t with supply := s.supply } ∧ (s.clocksStand = false ∨ s.timeSrc ≠ p → t.supply = s.supply)
    let state := fun (t : State) (l : TwLink) (code : Nat) => (t.port p).link = l ∧ t.fld (A.TW_STATUS p) F.TW_STATUS_STATE = code
    let moves := fun (i : Instr) (fr dst : TwLink) (code : Nat) => x.link = fr → ∃ t, exec i s = .next t ∧ only t ∧
      t.port p = { x with link := dst } ∧ state t dst code ∧ ∀ a, a ≠ A.TW_STATUS p → t.reg a = s.reg a
    s.runnerOn = true → s.writable (A.TW_CTRL p) →
    moves (.lanesAdapted p) .train .lock 2 ∧ moves (.blockLock p) .lock .init 3 ∧ moves (.downTimerEnd p) .down .train 1 ∧
    (p.val < 2 ∨ s.bridge = true → s.bit (A.TW_CTRL p) F.TW_CTRL_EN = false →
      (x.draining = false → x.link = .disabled → ∃ t, exec (.portEnable p) s = .next t ∧ only t ∧ state t .train 1 ∧
        t.bit (A.TW_CTRL p) F.TW_CTRL_EN = true ∧ t.bit (A.TW_STATUS p) F.TW_STATUS_DISABLED = false) ∧
      (x.draining = true → ∃ t, exec (.portEnable p) s = .next t ∧ only t ∧ t.port p = { x with reenable := true } ∧
        t.bit (A.TW_CTRL p) F.TW_CTRL_EN = true)) ∧
    (2 ≤ p.val → s.bridge = false → s.bit (A.TW_CTRL p) F.TW_CTRL_EN = false → ∃ t, exec (.portEnable p) s = .next t ∧ only t ∧ t.port p = x ∧
      t.reg (A.TW_CTRL p) = s.reg (A.TW_CTRL p) ∧ t.bit (A.TW_STATUS p) F.TW_STATUS_CFG_REJECT = true) ∧
    (s.bit (A.TW_CTRL p) F.TW_CTRL_EN = true → x.link ≠ .disabled → ∃ t, exec (.portDisable p) s = .next t ∧ only t ∧
      t.port p = { x with draining := true, reenable := false } ∧ t.bit (A.TW_CTRL p) F.TW_CTRL_EN = false) ∧
    (x.draining = true → x.retry = [] → x.crossing = [] → x.localBuf = [] → ∃ t,
      exec (.portDisabled p) s = .next t ∧ (s.channelsInto (epTwTx p) = [] → downs t) ∧ (t.port p).draining = false ∧
        (∀ q, q ≠ p → t.port q = s.port q) ∧ t.mem = s.mem ∧ t.cores = s.cores ∧
        (s.timeSrc = p → t.bit A.TW_SYS_STATUS F.TW_SYS_STATUS_TIME_LOST = true) ∧
        (x.reenable = false → state t .disabled 0 ∧ t.bit (A.TW_STATUS p) F.TW_STATUS_DISABLED = true) ∧
        (x.reenable = true → state t .train 1)) ∧
    (x.link = .init → flitType f = 7 → flitBits f 15 0 = flitCrc f → flitBits f 104 97 = 1 → flitBits f 107 106 % 2 ≠ p.val % 2 →
      flitBits f 112 108 = s.pairRing p → flitBits f 123 113 ≠ s.node → flitBits f 105 105 = 1 → x.beenUp = false → x.retry = [] →
      ∃ t, exec (.initFlit p f) s = .next t ∧ only t ∧ state t .up 4 ∧ (t.port p).localCr = 32 ∧ (t.port p).transitCr = 32 ∧
        (t.port p).beenUp = true ∧ (t.port p).txSeq = BitVec.ofNat 10 (flitBits f 96 49) ∧
        (t.port p).rxSeq = (x.count 3).setWidth 10 ∧ t.fld (A.TW_PARTNER p) F.TW_PARTNER_NODE = flitBits f 123 113 ∧
        t.bit (A.TW_PARTNER p) F.TW_PARTNER_VALID = true) ∧
    (let r := BitVec.ofNat 48 (flitBits f 96 49)
      let taken := (r + x.linkBase - x.count 2).toNat
      x.link = .init → flitType f = 7 → flitBits f 15 0 = flitCrc f → flitBits f 104 97 = 1 → flitBits f 107 106 % 2 ≠ p.val % 2 →
      flitBits f 112 108 = s.pairRing p → flitBits f 123 113 ≠ s.node → flitBits f 105 105 = 0 → taken ≤ x.retry.length →
      x.retry.length < 2 ^ 47 → ∃ t, exec (.initFlit p f) s = .next t ∧ only { t with alarm := s.alarm } ∧ state t .up 4 ∧
        (t.port p).txSeq = r.setWidth 10 + BitVec.ofNat 10 (x.retry.length - taken) ∧
        (t.port p).linkBase = x.linkBase ∧ (t.port p).count 2 = r + x.linkBase ∧
        (t.port p).retry.map Prod.snd = (x.retry.drop taken).map Prod.snd ∧ (t.port p).unsent = x.retry.length - taken) ∧
    (x.link = .init → flitType f = 7 → flitBits f 15 0 = flitCrc f → flitBits f 107 106 % 2 = p.val % 2 → ∃ t,
      exec (.initFlit p f) s = .next t ∧ only t ∧ t.port p = x ∧ t.bit (A.TW_STATUS p) F.TW_STATUS_CONFIG_MISMATCH = true) ∧
    (x.link = .train ∨ x.link = .lock ∨ x.link = .init → ∃ t, exec (.bringUpTimeout p) s = .next t ∧ only t ∧
      state t .down 5 ∧ t.fld (A.TW_STATUS p) F.TW_STATUS_ATTEMPTS = min 255 (s.fld (A.TW_STATUS p) F.TW_STATUS_ATTEMPTS + 1)) ∧
    (x.link = .up → ∃ t, exec (.linkLoss p) s = .next t ∧ downs t ∧ t.port p = { x with link := .down } ∧ state t .down 5 ∧
      t.bit (A.TW_STATUS p) F.TW_STATUS_LINK_DOWN = true ∧
      (s.timeSrc = p → t.bit A.TW_SYS_STATUS F.TW_SYS_STATUS_TIME_LOST = true ∧
        t.bit A.TW_SYS_STATUS F.TW_SYS_STATUS_LOCKED = false))

/-- Time alignment (R423 to R426): a TIME_REQ goes out with its stamp and is answered with the stamps of its arrival and its
response; a TIME_RESP ends the exchange, with the ASYM of the request's moment, and adds θ to the last 16, whose mean is over the
exchanges there are and which a step clears (the model's reading, log entry 33); 1 ms without one sets TIME_LOST and clears
LOCKED. System heats (R427, R428; the first EPOCH is log entry 35, and a start that is due at once log entry 94): ISSUE on the grand master adopts a schedule and sends it out of every UP port; elsewhere it is refused; the grand
master repeats it; another device adopts a HEAT flit of a new epoch or a newer generation and passes it on; FORGET clears the
record. -/
def Obligations.TimeAndSystemHeats : Prop :=
  (∀ (s : State) (p : Fin 4) (f : FlitWord) (t1 arrived answered : Stamp),
    let x := s.port p
    let good := flitBits f 15 0 = flitCrc f
    s.alive = true →
    (s.timeSrc < 4 → s.linkUp s.timeSrc = true → ∃ t, exec (.timeExchange t1) s = .next t ∧ t.twSys =
        { s.twSys with asked := some (t1, s.reg (A.TW_ASYM s.timeSrc)) } ∧
      t.port s.timeSrc = { s.port s.timeSrc with control := (s.port s.timeSrc).control ++ [timeReqFlit t1] } ∧
      t = { s with tw := t.tw, twSys := t.twSys }) ∧
    (4 ≤ s.timeSrc → exec (.timeExchange t1) s = .next s ∧ exec .timeLost s = .next s) ∧
    (x.link = .up → flitType f = 3 → good → exec (.timeReq p f arrived answered) s =
      .next (s.setPort p { x with control := x.control ++ [timeRespFlit arrived answered] })) ∧
    (x.link = .up → flitType f = 4 → good → s.timeSrc = p →
      (s.twSys.asked = none → exec (.timeResp p f arrived) s = .next s) ∧
      (∀ w, s.twSys.asked = some (t1, w) →
        let θ := ((BitVec.ofNat 38 (flitBits f 123 86) - t1).toInt - (arrived - BitVec.ofNat 38 (flitBits f 85 48)).toInt) * 1250 -
          signedOf 16 (fieldOf w F.TW_ASYM_ASYM) * 64
        let l := (θ :: s.twSys.thetas).take 16
        let sum := l.foldl (· + ·) 0
        ∃ t, exec (.timeResp p f arrived) s = .next t ∧ t.twSys.asked = none ∧ t.tw = s.tw ∧
          (sum.natAbs < 320000 * l.length → t.timeBase = s.timeBase ∧ t.twSys.thetas = l ∧
            t.bit A.TW_SYS_STATUS F.TW_SYS_STATUS_LOCKED = decide (sum.natAbs ≤ 12800 * l.length)) ∧
          (320000 * l.length ≤ sum.natAbs → t.timeBase = s.timeBase + BitVec.ofInt 64 (roundHalfUp sum (160000 * l.length)) ∧
            t.twSys.thetas = [] ∧ t.bit A.TW_SYS_STATUS F.TW_SYS_STATUS_STEPPED = true ∧
            t.bit A.TW_SYS_STATUS F.TW_SYS_STATUS_LOCKED = false ∧ t.bit (A.TW_STATUS p) F.TW_STATUS_LOCKED = false))) ∧
    (s.timeSrc < 4 → ∃ t, exec .timeLost s = .next t ∧ t = { s with regs := t.regs, supply := t.supply } ∧
      (s.clocksStand = false → t.supply = s.supply) ∧
      t.bit A.TW_SYS_STATUS F.TW_SYS_STATUS_TIME_LOST = true ∧ t.bit A.TW_SYS_STATUS F.TW_SYS_STATUS_LOCKED = false)) ∧
  (∀ (s : State) (who : Requester) (p : Fin 4) (f : FlitWord),
    let h : HeatPlan := { epoch := BitVec.ofNat 12 (flitBits f 27 16), gen := BitVec.ofNat 8 (flitBits f 123 116),
                          period := BitVec.ofNat 24 (flitBits f 115 92), start := BitVec.ofNat 64 (flitBits f 91 28) }
    let sends := fun (t : State) (g : HeatPlan) (except : Nat) => ∀ q < 4, t.port q =
      if q ≠ except ∧ (s.port q).link = .up then { s.port q with control := (s.port q).control ++ [heatFlitOf g] } else s.port q
    let adopts := fun (t : State) (g : HeatPlan) => t.twSys.adopted = some g ∧ t.twSys.coming = some g ∧
      t.bit A.TW_SYS_STATUS F.TW_SYS_STATUS_HEAT_NEW = true ∧ t.fld A.TW_SYS_STATUS F.TW_SYS_STATUS_GEN = g.gen.toNat ∧
      t.fld A.TW_SYS_STATUS F.TW_SYS_STATUS_EPOCH = g.epoch.toNat ∧
      (g.start < s.timeBase → s.fld A.RUN_HEAT_CFG F.RUN_HEAT_CFG_SRC = 3 → t.bit A.TW_SYS_STATUS F.TW_SYS_STATUS_HEAT_LATE = true)
    s.writable A.TW_SYS_CTRL → s.mayWrite who = true →
    (s.timeSrc = 4 →
      (∀ g, s.twSys.issued = some g → ∃ t k, exec (.heatIssue who) s = .next t ∧ k.gen = g.gen + 1 ∧ adopts t k ∧ sends t k 4 ∧
        k.period = (s.reg A.TW_SYS_PERIOD).setWidth 24 ∧ k.start = s.reg A.TW_SYS_START_HI ++ s.reg A.TW_SYS_START_LO ∧
        t.twSys.issued = some k ∧ t.twSys.epoch = some k.epoch) ∧
      (∀ e, s.twSys.issued = none → s.twSys.epoch = some e → ∃ t k, exec (.heatIssue who) s = .next t ∧ k.gen = 1 ∧
        k.epoch = e + 1 ∧ adopts t k ∧ sends t k 4) ∧
      (∀ g, s.twSys.issued = some g → ∃ t, exec .heatRepeat s = .next t ∧ sends t g 4 ∧ t = { s with tw := t.tw })) ∧
    (s.timeSrc ≠ 4 →
      Answers (.heatIssue who) s (s.setBit A.TW_SYS_STATUS F.TW_SYS_STATUS_CFG_REJECT) ∧
      (s.alive = true → (s.port p).link = .up → flitType f = 5 → flitBits f 15 0 = flitCrc f →
        ((∀ a, s.twSys.adopted = some a → h.epoch ≠ a.epoch) → ∃ t, exec (.heatFlit p f) s = .next t ∧ adopts t h ∧ sends t h p ∧
          t.twSys.issued = s.twSys.issued) ∧
        (∀ a, s.twSys.adopted = some a → h.epoch = a.epoch →
          ((h.gen - a.gen).toNat = 0 ∨ 127 < (h.gen - a.gen).toNat → exec (.heatFlit p f) s = .next s) ∧
          (1 ≤ (h.gen - a.gen).toNat → (h.gen - a.gen).toNat ≤ 127 → ∃ t, exec (.heatFlit p f) s = .next t ∧ adopts t h ∧
            sends t h p)))) ∧
    Answers (.heatForget who) s { s with twSys := { s.twSys with adopted := none } })

/-- The flits that a port sends carry what it sends, at the places where a receiver reads it, under their TYPE and their CRC (R406,
R407): TOKEN, LINK, TIME_REQ, TIME_RESP, HEAT, AUDIT and INIT. -/
def Obligations.FlitsCarryTheirFields : Prop :=
  let sealed := fun (f : FlitWord) (type : Nat) => flitType f = type ∧ flitBits f 15 0 = flitCrc f
  (∀ (seq : BitVec 10) (t : TwToken), let f := tokenFlit seq t
    sealed f 1 ∧ flitBits f 119 109 = t.dest.toNat ∧ flitBits f 108 98 = t.src.toNat ∧ flitBits f 97 88 = seq.toNat ∧
      flitBits f 87 80 = t.hops.toNat ∧ flitBits f 79 16 = t.payload.toNat) ∧
  (∀ (ack : BitVec 10) (nak : Bool) (loc transit : Nat), loc < 64 → transit < 64 → let f := linkFlit ack nak loc transit
    sealed f 2 ∧ flitBits f 123 114 = ack.toNat ∧ flitBits f 113 113 = (if nak then 1 else 0) ∧ flitBits f 112 107 = loc ∧
      flitBits f 106 101 = transit) ∧
  (∀ a b : Stamp, sealed (timeReqFlit a) 3 ∧ flitBits (timeReqFlit a) 123 86 = a.toNat ∧ sealed (timeRespFlit a b) 4 ∧
    flitBits (timeRespFlit a b) 123 86 = a.toNat ∧ flitBits (timeRespFlit a b) 85 48 = b.toNat) ∧
  (∀ h : HeatPlan, let f := heatFlitOf h
    sealed f 5 ∧ flitBits f 123 116 = h.gen.toNat ∧ flitBits f 115 92 = h.period.toNat ∧ flitBits f 91 28 = h.start.toNat ∧
      flitBits f 27 16 = h.epoch.toNat) ∧
  (∀ n : BitVec 48, sealed (auditFlitOf n) 6 ∧ flitBits (auditFlitOf n) 123 76 = n.toNat) ∧
  (∀ (node ring port : Nat) (fresh : Bool) (n : BitVec 48), node < 2048 → ring < 32 → port < 4 →
    let f := initFlitOf node ring port fresh n
    sealed f 7 ∧ flitBits f 123 113 = node ∧ flitBits f 112 108 = ring ∧ flitBits f 107 106 = port ∧
      flitBits f 105 105 = (if fresh then 1 else 0) ∧ flitBits f 104 97 = 1 ∧ flitBits f 96 49 = n.toNat)

/-! ### Management sessions and host links -/

/-- A management request that comes in at a port, where it is addressed to it and the engine is free, is answered in its port's response
(R436, R438 to R440, R443 to R447): one whose LENGTH or CRC is wrong with BAD_FRAME, all but OPEN without a session with NO_SESSION, an
unlisted code with BAD_CODE; OPEN opens on the right key and locks the port out on the fifth failure; CLOSE closes; STATUS reports eight
words; SET_KEY starts a flash command, but where block 10 is protected or its erase is suspended. While the engine is busy a request
waits; a message that is not for the device goes to firmware, with its time. The order in which a faulty request is judged is log entry
37, and the failures that stay counted after a lockout log entry 38, both the model's own. -/
def Obligations.ManagementRequestsAreAnswered : Prop :=
  ∀ (s : State) (p : Fin 5) (req : MgmtReq) (byte : Byte),
    let x := s.host
    let handing := fun (f : HandedFrame) =>
      { x with handed := mapInsert x.handed (p - 1) (mapGet (fun _ => []) x.handed (p - 1) ++ [⟨f, s.timeBase⟩]) }
    let good := fun (code : Nat) => req.length.toNat = req.payload.length ∧ req.crc.toNat = crc32 (leBytes 1 code ++
      leBytes 1 req.tag.toNat ++ leBytes 2 req.length.toNat ++ leBytes 1 req.result.toNat ++ leBytes 3 req.zeros.toNat ++ req.payload)
    let response := fun (code result : Nat) (payload : List Byte) =>
      (⟨responseBytes code req.tag.toNat result payload, req.source,
        if p = 1 then s.mac 0 else if p = 2 then s.mac 1 else 0⟩ : Response)
    let answer := fun (code result : Nat) (payload : List Byte) => { s with
      host := { x with responses := mapInsert (mapErase x.responses p) p (response code result payload), lastPort := p.val,
                       msix := if p = 0 then (x.msix &&& 0xFE) ||| 1 else x.msix } }
    let gives := fun (i : Instr) (code result : Nat) => exec i s = .next (answer code result [])
    let fails := min 5 (mapGet (fun _ => 0) x.fails p + 1)
    let replied := fun (t : State) (code result : Nat) =>
      mapGet (fun _ => ⟨[], 0, 0⟩) t.host.responses p = response code result [] ∧
        t = { s with regs := t.regs, host := t.host, supply := t.supply } ∧ (s.clocksStand = false → t.supply = s.supply)
    let other := decide (byte = 0) || decide (8 < byte.toNat)
    let requests := [(1, Instr.mgmtOpen p req), (2, .mgmtClose p req), (3, .mgmtStatus p req), (4, .mgmtRead p req),
      (5, .mgmtWrite p req), (6, .mgmtReset p req), (7, .mgmtSetKey p req), (8, .mgmtForward p req)] ++
      (if other then [(byte.toNat, .mgmtBadCode p byte req)] else [])
    (∀ r ∈ requests,
      (s.portUp p = false → exec r.2 s = .next s) ∧
      (s.portUp p = true → s.addressed p req = false → exec r.2 s = .next { s with host := handing (.message (BitVec.ofNat 8 r.1) req) }) ∧
      (s.portUp p = true → s.addressed p req = true → s.engineBusy = true → exec r.2 s = .next { s with
        host := { x with waiting := mapInsert x.waiting p (s.waitingAt p ++ [(BitVec.ofNat 8 r.1, req)]) } }) ∧
      (s.portUp p = true → s.addressed p req = true → s.engineBusy = false →
        (¬ good r.1 → gives r.2 r.1 5) ∧
        (good r.1 → 8 < r.1 ∨ r.1 = 0 → gives r.2 r.1 6) ∧
        (good r.1 → 2 ≤ r.1 → r.1 ≤ 8 → s.ownsSession p req = false → gives r.2 r.1 1))) ∧
    (s.portUp p = true → s.addressed p req = true → s.engineBusy = false →
      (good 1 → req.payload.length = 16 →
        (s.sessionOpen p = true → gives (.mgmtOpen p req) 1 4) ∧
        (s.sessionOpen p = false → s.lockedOut p = true → gives (.mgmtOpen p req) 1 3) ∧
        (s.sessionOpen p = false → s.lockedOut p = false → ∃ t, exec (.mgmtOpen p req) s = .next t ∧
          (∀ q < 5, q ≠ p → t.sessionOpen q = s.sessionOpen q) ∧
          (hashBytes (sha256 req.payload) = s.keyHash → replied t 1 0 ∧ t.sessionOpen p = true ∧
            t.bit A.SESSION_STATUS F.SESSION_STATUS_OPENED = true ∧ mapGet (fun _ => 0) t.host.fails p = 0) ∧
          (hashBytes (sha256 req.payload) ≠ s.keyHash → replied t 1 2 ∧ t.sessionOpen p = false ∧
            mapGet (fun _ => 0) t.host.fails p = fails ∧ t.lockedOut p = decide (fails = 5)))) ∧
      (s.ownsSession p req = true →
        (good 2 → req.payload = [] → ∃ t, exec (.mgmtClose p req) s = .next t ∧ replied t 2 0 ∧ t.sessionOpen p = false ∧
          t.bit A.SESSION_STATUS F.SESSION_STATUS_CLOSED = true) ∧
        (good 3 → req.payload = [] → exec (.mgmtStatus p req) s = .next (answer 3 0 (([A.BOOT_STATUS, A.RST_CAUSE, A.PAT_STATUS,
          A.PAT_LEVEL, A.QUENCH_STATUS, A.SUP_STATUS, A.PM_POWER, A.FLASH_STATUS].map (fun a =>
            leBytes 4 (s.shown 0 a).toNat)).flatten))) ∧
        (good 7 → req.payload.length = 16 → (s.flashBusy = true → gives (.mgmtSetKey p req) 7 8) ∧
          (s.flashBusy = false → (s.flash.prot.getLsbD 1 = true ∧ s.flashUnlocked = false) ∨ s.flash.suspended = some 10 →
            gives (.mgmtSetKey p req) 7 9) ∧
          (s.flashBusy = false → s.flash.prot.getLsbD 1 = false ∨ s.flashUnlocked = true → s.flash.suspended ≠ some 10 →
            ∃ t, exec (.mgmtSetKey p req) s = .next t ∧ t.flashBusy = true ∧ t.flash.job = some (.setKey (sha256 req.payload)) ∧
              t.host.keyReply = some (p.val, req.tag, req.source)))))

/-- READ and WRITE of words that memory holds, and RESET (R440, R441): READ answers with the word and changes no memory; WRITE
stores the word and no other byte; an address that is no multiple of 4 gives ACCESS with cause WIDTH and no access; RESET starts a
full reset whose cause it records. A FORWARD and its reply, and what ends a session or a lockout (R442, R445, R446): FORWARD hands
its bytes over and sets FWD_PENDING; GO or a missing handler answers it and clears FWD_PENDING; without one pending nothing happens;
TIMEOUT 0 never closes. The layout of the payload of an ACCESS is the model's own (log entry 60), and so is what a lockout's end leaves
of the failure count (log entry 38). -/
def Obligations.AccessesAndForwards : Prop :=
  let mac := fun (s : State) (p : Nat) => if p = 1 then s.mac 0 else if p = 2 then s.mac 1 else 0
  let response := fun (t : State) (p : Nat) => mapGet (fun _ => (⟨[], 0, 0⟩ : Response)) t.host.responses p
  (∀ (s : State) (p : Fin 5) (req : MgmtReq) (a : Nat), s.portUp p = true → s.addressed p req = true → s.engineBusy = false →
    s.ownsSession p req = true → req.ecc = [] →
    let tells := fun (t : State) (code result : Nat) (payload : List Byte) =>
      response t p = ⟨responseBytes code req.tag.toNat result payload, req.source, mac s p⟩
    let sram := 0x10000000 ≤ a ∧ regionOf a = .sram ∧ s.memoryWaits a = false ∧ s.poisoned a = false ∧ s.upset a = .none
    (a % 4 = 0 → sram →
      (frameOk req 4 = true → req.payload = leBytes 8 a ++ leBytes 4 1 → ∃ t, exec (.mgmtRead p req) s = .next t ∧
        tells t 4 0 (s.bytesAt a 4) ∧ t = { s.stillHigh with host := t.host }) ∧
      (∀ w : Word, frameOk req 5 = true → req.payload = leBytes 8 a ++ leBytes 4 w.toNat → ∃ t,
        exec (.mgmtWrite p req) s = .next t ∧ tells t 5 0 [] ∧ t.bytesAt a 4 = leBytes 4 w.toNat ∧
        (∀ b, b < a ∨ a + 4 ≤ b → t.byteAt b = s.byteAt b) ∧ t.regs = s.regs ∧ t.cores = s.cores)) ∧
    (a % 4 ≠ 0 → a < 2 ^ 64 → req.payload = leBytes 8 a ++ leBytes 4 1 →
      (frameOk req 4 = true → ∃ t, exec (.mgmtRead p req) s = .next t ∧ t = { s.stillHigh with host := t.host } ∧
        tells t 4 7 (leBytes 4 4 ++ leBytes 4 0)) ∧
      (frameOk req 5 = true → ∃ t, exec (.mgmtWrite p req) s = .next t ∧ t = { s.stillHigh with host := t.host } ∧
        tells t 5 7 (leBytes 4 4 ++ leBytes 4 0))) ∧
    (frameOk req 6 = true → req.payload = [] → ∃ t, exec (.mgmtReset p req) s = .next t ∧
      (s.supply.vin = true → t.reg A.RST_CAUSE = s.reg A.RST_CAUSE ||| 64) ∧ t.pending = s.pending ∧ t.sessionOpen p = false)) ∧
  (∀ (s : State) (p : Fin 5) (req : MgmtReq) (who : Requester) (len : BitVec 9),
    let pends := fun (t : State) => t.bit A.SESSION_STATUS F.SESSION_STATUS_FWD_PENDING
    let answered := fun (t : State) (q : Nat × Byte × BitVec 144) (result : Nat) (payload : List Byte) =>
      response t q.1 = ⟨responseBytes 8 q.2.1.toNat result payload, q.2.2, mac s q.1⟩ ∧
        t.host.forward = none ∧ pends t = false ∧ t = { s with regs := t.regs, host := t.host }
    (s.portUp p = true → s.addressed p req = true → s.engineBusy = false → frameOk req 8 = true → s.ownsSession p req = true →
      1 ≤ req.payload.length → req.payload.length ≤ 256 →
      (s.host.forward.isSome = true → ∃ t, exec (.mgmtForward p req) s = .next t ∧ t = { s with host := t.host } ∧
        t.host.forward = s.host.forward ∧ response t p = ⟨responseBytes 8 req.tag.toNat 8 [], req.source, mac s p⟩) ∧
      (s.host.forward = none → ∃ t, exec (.mgmtForward p req) s = .next t ∧ pends t = true ∧
        t.host = { s.host with forward := some (p.val, req.tag, req.source), responses := mapErase s.host.responses p,
                               lastPort := p.val, msix := if p = 0 then s.host.msix &&& 0xFE else s.host.msix } ∧
        t = { s with regs := t.regs, host := t.host } ∧
        t.fld A.SESSION_FWD_LEN F.SESSION_FWD_LEN_PORT = p ∧ t.fld A.SESSION_FWD_LEN F.SESSION_FWD_LEN_LEN = req.payload.length ∧
        ∀ k < 64, t.reg (A.SESSION_FWD k) = BitVec.ofNat 32 (leNat ((req.payload.drop (4 * k)).take 4)))) ∧
    (s.writable A.SESSION_REPLY_CTRL → s.mayWrite who = true → len.toNat ≤ 256 →
      (s.host.forward = none → Answers (.replyGo who len) s (s.setFld A.SESSION_REPLY_CTRL F.SESSION_REPLY_CTRL_LEN len.toNat)) ∧
      (∀ q, s.host.forward = some q → ∃ t, exec (.replyGo who len) s = .next t ∧
        answered t q 0 ((((List.range 64).map (fun k => leBytes 4 (s.reg (A.SESSION_REPLY k)).toNat)).flatten).take len.toNat))) ∧
    (s.host.forward = none → exec .noHandler s = .next s) ∧
    (∀ q, s.host.forward = some q → ∃ t, exec .noHandler s = .next t ∧ answered t q 10 []) ∧
    (s.fld A.SESSION_CTRL F.SESSION_CTRL_TIMEOUT = 0 ∨ s.sessionOpen p = false → exec (.sessionTimeout p) s = .next s) ∧
    (s.fld A.SESSION_CTRL F.SESSION_CTRL_TIMEOUT ≠ 0 → s.sessionOpen p = true → ∃ t, exec (.sessionTimeout p) s = .next t ∧
      t.sessionOpen p = false ∧ t.bit A.SESSION_STATUS F.SESSION_STATUS_CLOSED = true ∧
      t = { s with regs := t.regs, host := t.host, supply := t.supply } ∧ (s.clocksStand = false → t.supply = s.supply) ∧
      ∀ q < 5, q ≠ p → t.sessionOpen q = s.sessionOpen q) ∧
    (∃ t, exec (.sessionLockoutExpiry p) s = .next t ∧ t = { s with regs := t.regs } ∧ t.lockedOut p = false ∧
      (∀ q < 5, q ≠ p → t.lockedOut q = s.lockedOut q) ∧ t.host.fails = s.host.fails))

/-- Links and management addresses (R434 to R438): a bit of HOST.LINK is taken for an enabled interface and refused for another; a
link comes up, and its loss raises its source and closes its session (how long the source stays raised is log entry 39, and that
PCIE_REFCLK is known by these commands log entry 56, the model's own); a changed address closes the session there, a reserved one is
refused; the port answers a query for its own address with its MAC address, and hands any other to firmware; a PPS output rises, and
falls 8,000 rc later. The test access port (R432,
R433): it takes each instruction; IDCODE gives the identification word, SAMPLE captures the levels at the balls and PRELOAD takes its own; the three EXTEST instructions take
effect before RELEASED with a session on the debug port, and act as BYPASS otherwise. -/
def Obligations.LinksAddressesAndTap : Prop :=
  (∀ (s : State) (who : Requester) (n : Fin 2) (l : HostLink) (w : Word) (q : AddressQuery),
    let allowed := BitVec.ofNat 32 (bit01 (s.bit A.HOST_EN F.HOST_EN_PCIE) + 2 * s.fld A.HOST_EN F.HOST_EN_ETH)
    let m := BitVec.ofNat 3 (2 ^ linkPort l)
    let same := fun (t : State) (a : Nat) => t = { s with regs := t.regs, host := t.host, supply := t.supply } ∧
      (s.clocksStand = false → t.supply = s.supply) ∧ ∀ b, b ≠ a → b ≠ A.SESSION_STATUS → t.reg b = s.reg b
    let asks := fun (i : Instr) (bit : Word) => s.reg A.HOST_LINK &&& ~~~allowed = 0 →
      (allowed &&& bit = bit → Answers i s (s.setReg A.HOST_LINK (s.reg A.HOST_LINK ||| bit))) ∧
      (allowed &&& bit = 0 → Answers i s (s.setBit A.HOST_STATUS F.HOST_STATUS_CFG_REJECT))
    (s.writable A.HOST_LINK → s.mayWrite who = true →
      asks (.pcieUp who) 1 ∧ asks (.ethUp who n) (BitVec.ofNat 32 (2 ^ (n.val + 1))) ∧
      (∀ r : MgmtReg, r ≠ .ctrl → (r = .ipv4 → ipv4Reserved w = false) → w &&& ~~~definedMask (mgmtRegAddr n r) = 0 →
        ∃ t, exec (.mgmtAddressWrite who n r w) s = .next t ∧ same t (mgmtRegAddr n r) ∧ t.reg (mgmtRegAddr n r) = w ∧
          t.sessionOpen (n + 1) = (s.sessionOpen (n + 1) && decide (w = s.reg (mgmtRegAddr n r)))) ∧
      (ipv4Reserved w = true → Answers (.mgmtAddressWrite who n .ipv4 w) s (s.setBit A.HOST_STATUS F.HOST_STATUS_CFG_REJECT)) ∧
      (w.toNat < 4 → fieldOf w F.ETH_MGMT_CTRL_V6_EN = 0 ∨ s.ipv6Bad n = false → ∃ t,
        exec (.mgmtAddressWrite who n .ctrl w) s = .next t ∧ same t (A.ETH_MGMT_CTRL n) ∧ t.reg (A.ETH_MGMT_CTRL n) = w)) ∧
    (let ref := s.host.pcieRef || (decide (l = .pcie) && s.powered);
      (s.hostOn = true → s.linkEnabled l = true → s.linkWanted l = true → ∃ t, exec (.hostLinkUp ⟨l, true⟩) s = .next t ∧
        t = { s with
          host := { s.host with links := s.host.links ||| m, linkEvents := s.host.linkEvents &&& ~~~m, pcieRef := ref },
          supply := t.supply } ∧ (s.clocksStand = false → t.supply = s.supply)) ∧
      exec (.hostLinkUp ⟨l, false⟩) s = .next { s with host := { s.host with pcieRef := ref } } ∧
      (s.linkEnabled l = false ∨ s.linkWanted l = false → exec (.hostLinkUp ⟨l, true⟩) s = exec (.hostLinkUp ⟨l, false⟩) s)) ∧
    (s.hostLink (linkPort l) = false → exec (.hostLinkLoss ⟨l, false⟩) s = .next s ∧
      (s.host.pcieRef = false ∨ l ≠ .pcie → exec (.hostLinkLoss ⟨l, true⟩) s = .next s)) ∧
    (∀ ref, s.hostLink (linkPort l) = true ∨ (ref = true ∧ l = .pcie ∧ s.host.pcieRef = true) → ∃ t,
      exec (.hostLinkLoss ⟨l, ref⟩) s = .next t ∧ (s.clocksStand = false → t.supply = s.supply) ∧
      t.host.pcieRef = (s.host.pcieRef && !(ref && decide (l = .pcie))) ∧ t.hostLink (linkPort l) = false ∧
      t.source (70 + linkPort l) = true ∧ t.sessionOpen (linkPort l) = false ∧
      t = { s with regs := t.regs, host := t.host, supply := t.supply }) ∧
    (let mine := match q with
        | .arp a => s.bit (A.ETH_MGMT_CTRL n) F.ETH_MGMT_CTRL_V4_EN = true ∧ a = s.reg (A.ETH_MGMT_IPV4 n)
        | .neighbour a => s.bit (A.ETH_MGMT_CTRL n) F.ETH_MGMT_CTRL_V6_EN = true ∧ a = s.ipv6 n;
      (s.portUp (n + 1) = false → exec (.arp n q) s = .next s) ∧
      (s.portUp (n + 1) = true → mine → exec (.arp n q) s = .next { s with
        host := { s.host with
          answers := mapInsert s.host.answers n ((s.reg (A.ETH_MAC_HI n)).setWidth 16 ++ s.reg (A.ETH_MAC_LO n)) } }) ∧
      (s.portUp (n + 1) = true → ¬ mine → exec (.arp n q) s = .next { s with
        host := { s.host with
          handed := mapInsert s.host.handed n (mapGet (fun _ => []) s.host.handed n ++ [⟨.query q, s.timeBase⟩]) } })) ∧
    (s.hostOn = true → (∃ t, exec (.ppsRise n) s = .next t ∧
        t = { s with host := { s.host with pps := t.host.pps, ppsRose := mapInsert s.host.ppsRose n s.rc } } ∧
        ∀ i < 2, t.host.pps.getLsbD i = (decide (i = n.val) || s.host.pps.getLsbD i)) ∧
      (s.host.pps.getLsbD n = false → exec (.ppsFall n) s = .next s) ∧
      (∀ r, s.host.pps.getLsbD n = true → mapGet (fun _ => s.rc) s.host.ppsRose n = r → ∃ t, exec (.ppsFall n) s = .next t ∧
        t.host = { s.host with pps := t.host.pps } ∧ t.rc = max s.rc (r + 8000) ∧ t.mem = s.mem ∧ t.cores = s.cores ∧
        ∀ i < 2, t.host.pps.getLsbD i = (decide (i ≠ n.val) && s.host.pps.getLsbD i)))) ∧
  (∀ (s : State) (balls : List (Nat × Bool)), s.supply.phase = .good → s.supply.power ≠ .dormant →
    let takes := fun (i : TapInstr) => { s with host := { s.host with tap := i } }
    let drives := !s.released && s.sessionOpen 4
    exec .tapBypass s = .next (takes .bypass) ∧
    exec .tapIdcode s = .next { s with host := { s.host with tap := .idcode, readData := 0x271604E3 } } ∧
    (∃ t, exec (.tapSamplePreload balls) s = .next t ∧ t = { s with host := { s.host with
        tap := .samplePreload, preload := balls.foldl (fun m b => mapInsert m b.1 b.2) s.host.preload, sampled := t.host.sampled } } ∧
      (∀ o < 192, mapGet (fun _ => false) t.host.sampled (73 + o) = decide ((takes .samplePreload).ballState (73 + o) = .high)) ∧
      ∀ n < 114, s.fld (A.IOMUX_CFG n) F.IOMUX_CFG_FUNC ≠ 2 → mapGet (fun _ => false) t.host.sampled (280 + n) = s.gpio.getLsbD n) ∧
    exec .tapExtest s = .next (takes (if drives then .extest else .bypass)) ∧
    exec .tapExtestPulse s = .next (takes (if drives then .extestPulse else .bypass)) ∧
    exec .tapExtestTrain s = .next (takes (if drives then .extestTrain else .bypass)))

/-! ### Assay -/

/-- ASSAY, source 069, is high while any flag of ASSAY.STATUS whose bit is set in ASSAY.CTRL.IRQ_MASK is 1 (R461). -/
def Obligations.AssaySourceFollowsItsFlags : Prop :=
  ∀ s : State, s.source 69 = true ↔
    (s.bit A.ASSAY_STATUS F.ASSAY_STATUS_DONE = true ∧ (s.fld A.ASSAY_CTRL F.ASSAY_CTRL_IRQ_MASK).testBit 0 = true) ∨
    (s.bit A.ASSAY_STATUS F.ASSAY_STATUS_FAIL = true ∧ (s.fld A.ASSAY_CTRL F.ASSAY_CTRL_IRQ_MASK).testBit 1 = true) ∨
    (s.bit A.ASSAY_STATUS F.ASSAY_STATUS_CFG_REJECT = true ∧ (s.fld A.ASSAY_CTRL F.ASSAY_CTRL_IRQ_MASK).testBit 2 = true)

/-- Regions are requested, cancelled and started (R451, R453, R454, R458, R462): a request sets its bits but those of region 69, which is
refused; a free lane takes the lowest-numbered region requested whose condition holds, and clears its request; nothing starts
without a lane or under the power limit. Of two free lanes the first is taken, and that a lost region's accesses and enables are
refused, and what its reset state is, are the model's own (log entries 17, 45 and 96). The boot's regions go one after the other, and
the boot core starts after the last. The test in a lane ends (R456, R457, R460): the lane is free, RESULT takes the code and
counts the run, DONE is set, and FAIL unless it passed; the region's state stands as it was, but after RESTORE_FAIL, which leaves it
in its reset state and reports an uncorrectable error; a failed core region is held. -/
def Obligations.AssayRegionsRun : Prop :=
  (∀ (s : State) (who : Requester) (k : Fin 3) (bits : Word),
    let a := A.ASSAY_REQ k
    let named : Word := if k = 2 then 0x003FFFDF else 0xFFFFFFFF
    let bad := decide (k = 2) && bits.getLsbD 5
    (s.writable a → s.mayWrite who = true → byUser who = false →
      Answers (.assayRequest who k bits) s ((s.setReg a (s.reg a ||| (bits &&& named))).setBitIf bad A.ASSAY_STATUS
        F.ASSAY_STATUS_CFG_REJECT) ∧
      Answers (.assayCancel who k bits) s (s.setReg a (s.reg a &&& ~~~bits))) ∧
    (s.mayWrite who = true → byUser who = true →
      Answers (.assayRequest who k bits) s (s.setBit A.ASSAY_STATUS F.ASSAY_STATUS_CFG_REJECT) ∧
      Answers (.assayCancel who k bits) s (s.setBit A.ASSAY_STATUS F.ASSAY_STATUS_CFG_REJECT)) ∧
    (s.runnerOn = true → (s.assay.lane0.isSome = true ∧ s.assay.lane1.isSome = true) ∨ s.admitted 1 = false ∧ s.admitted 2 = false →
      exec .assayRegionStart s = .next s) ∧
    (∀ r < 86, s.runnerOn = true → s.assay.arbitrations = [] → s.requested r = true → s.regionReady r = true →
      (∀ q < r, s.requested q = false ∨ s.regionReady q = false) → s.together r = [r] → s.admitted 1 = true → r ≠ 32 → r ≠ 33 →
      s.assay.boot = none → s.assay.lane0 = none ∨ s.assay.lane1 = none → ∃ t, exec .assayRegionStart s = .next t ∧
        t.assay = (if s.assay.lane0 = none then { s.assay with lane0 := some r } else { s.assay with lane1 := some r }) ∧
        t.requested r = false ∧ (∀ q < 86, q ≠ r → t.requested q = s.requested q) ∧ t = { s with regs := t.regs, assay := t.assay })) ∧
  (∀ (s : State) (n : Fin 2) (r : Nat) (result : AssayResult), r < 86 →
    let lane := if n = 0 then s.assay.lane0 else s.assay.lane1
    let code := match result with
      | .pass => 1
      | .fail => 2
      | .restoreFail => 3
    let ends := fun (t : State) => (if n = 0 then t.assay.lane0 else t.assay.lane1) = none ∧
      t.fld (A.ASSAY_RESULT r) F.ASSAY_RESULT_LAST = code ∧
      t.fld (A.ASSAY_RESULT r) F.ASSAY_RESULT_RUNS = min 255 (s.fld (A.ASSAY_RESULT r) F.ASSAY_RESULT_RUNS + 1) ∧
      t.bit A.ASSAY_STATUS F.ASSAY_STATUS_DONE = true ∧
      t.bit A.ASSAY_STATUS F.ASSAY_STATUS_FAIL = (decide (code ≠ 1) || s.bit A.ASSAY_STATUS F.ASSAY_STATUS_FAIL)
    s.engineBusy = false →
    (lane = none → exec (.assayRegionEnd n result) s = .next s) ∧
    (∀ b, lane = some r → s.assay.boot = some b → result ≠ .restoreFail → r ≠ 32 → r ≠ 33 → ∃ t,
      exec (.assayRegionEnd n result) s = .next t ∧ ends t ∧ t.bit (A.ASSAY_RESULT r) F.ASSAY_RESULT_BOOT = true ∧
      (result = .pass → b.queue ≠ [] → t.assay.boot = some b ∧ t = { s with regs := t.regs, assay := t.assay }) ∧
      (b.queue = [] → s.assay.lane0 = none ∨ s.assay.lane1 = none → t.assay.boot = none ∧
        t.reg A.BOOT_START_PC = BitVec.ofNat 32 b.entry ∧ (result = .pass → s.bootCore < 15 →
          (s.core s.bootCore).started = false → t.core s.bootCore = (s.core s.bootCore).startAt (BitVec.ofNat 32 b.entry))) ∧
      (result = .fail → t.bit A.BOOT_STATUS F.BOOT_STATUS_ASSAY_FAIL = true)) ∧
    (lane = some r → s.assay.boot = none → s.assay.arbitrations = [] → (result = .pass ∨ s.pairLocked (r % 40 % 16 / 2) = false ∨ 16 ≤ r ∧ r < 40 ∨ 56 ≤ r) →
      ∃ t, exec (.assayRegionEnd n result) s = .next t ∧ ends t ∧
      (result ≠ .restoreFail → r ≠ 32 → r ≠ 33 → t = { s with regs := t.regs, assay := t.assay } ∧
        (∀ b, b ≠ A.ASSAY_RESULT r → b ≠ A.ASSAY_STATUS → t.reg b = s.reg b)) ∧
      (result = .fail → r < 16 ∨ (40 ≤ r ∧ r < 56) → r ∈ t.assay.failed) ∧
      (result = .restoreFail → r ∈ t.assay.lost ∧ t.eccReported = true ∧
        (70 ≤ r → t.pending = s.pending ∧ ∀ x, mapGet (fun _ => (0 : Byte)) t.mem x =
          if 0x10000000 + 0x100000 * (r - 70) ≤ x ∧ x < 0x10000000 + 0x100000 * (r - 69) then 0
          else mapGet (fun _ => 0) s.mem x)) ∧
      ((r = 32 ∧ s.assay.lane0 ≠ some 33 ∧ s.assay.lane1 ≠ some 33 ∨ r = 33 ∧ s.assay.lane0 ≠ some 32 ∧ s.assay.lane1 ≠ some 32) →
        result = .pass → s.assay.lane0 ≠ s.assay.lane1 → t.assayTokens = 0 ∧ t.riserFree = s.riserFree + s.assayTokens)))

/-! ### The cores' instructions -/

/-- The stack instructions move cells of the current data stack as their row says, change no flag and nothing else, and the PC goes
on (R287, R290): NOP, DROP, DUP, SWAP, OVER, ROT, NIP, TUCK, DROP2 and DUP2. PICK, the literals and the frame-register instructions
(R290): PICK n copies the cell n below the top, LIT8, LIT16 and LIT32 push the immediate sign-extended, LITH pushes it shifted left
by 16, FRD pushes a frame register, FWR pops into one. A PICK of 16 or more is reserved and raises ILLEGAL. -/
def Obligations.StackAndLiteralInstructions : Prop :=
  (∀ (s : State) (c : Fin 16), s.ready c 1 →
    let k := s.coreNow c
    let ok := s.stackReady c (s.core c).dataId
    let x := s.operand c 0
    let y := s.operand c 1
    let z := s.operand c 2
    exec (.nop c) s = .next (s.joined c (s.after c 1 0 k [] .next)) ∧
    (ok 1 0 → exec (.drop c) s = .next (s.joined c (s.after c 1 1 k [] .next))) ∧
    (ok 1 2 → exec (.dup c) s = .next (s.joined c (s.after c 1 1 k [x, x] .next))) ∧
    (ok 2 2 → exec (.stackSwap c) s = .next (s.joined c (s.after c 1 2 k [x, y] .next))) ∧
    (ok 2 3 → exec (.stackOver c) s = .next (s.joined c (s.after c 1 2 k [y, x, y] .next))) ∧
    (ok 3 3 → exec (.rot c) s = .next (s.joined c (s.after c 1 3 k [y, x, z] .next))) ∧
    (ok 2 1 → exec (.nip c) s = .next (s.joined c (s.after c 1 2 k [x] .next))) ∧
    (ok 2 3 → exec (.tuck c) s = .next (s.joined c (s.after c 1 2 k [x, y, x] .next))) ∧
    (ok 2 0 → exec (.drop2 c) s = .next (s.joined c (s.after c 1 2 k [] .next))) ∧
    (ok 2 4 → exec (.dup2 c) s = .next (s.joined c (s.after c 1 2 k [y, x, y, x] .next)))) ∧
  (∀ (s : State) (c : Fin 16),
    let k := s.coreNow c
    let ok := s.stackReady c (s.core c).dataId
    (∀ n : Byte, s.ready c 2 → n.toNat < 16 → ok 0 1 →
      (s.stack c (s.core c).dataId).ptr.toNat + 8 * n.toNat + 8 ≤ (s.stack c (s.core c).dataId).hi.toNat →
      ((s.stack c (s.core c).dataId).cached ((s.stack c (s.core c).dataId).ptr.toNat + 8 * n.toNat)).isSome = true →
      exec (.pick c n) s = .next (s.joined c (s.after c 2 0 k [s.operand c n.toNat] .next))) ∧
    (∀ n : Byte, s.ready c 2 → 16 ≤ n.toNat →
      exec (.pick c n) s = .next (s.joined c ((takeException c Exc.illegal (s.setCore c k)).getD s))) ∧
    (∀ i : Byte, s.ready c 2 → ok 0 1 → exec (.lit8 c i) s = .next (s.joined c (s.after c 2 0 k [i.signExtend 40] .next))) ∧
    (∀ i : BitVec 16, s.ready c 3 → ok 0 1 → exec (.lit16 c i) s = .next (s.joined c (s.after c 3 0 k [i.signExtend 40] .next))) ∧
    (∀ i : Word, s.ready c 5 → ok 0 1 → exec (.lit32 c i) s = .next (s.joined c (s.after c 5 0 k [i.signExtend 40] .next))) ∧
    (∀ i : BitVec 16, s.ready c 3 → ok 0 1 →
      exec (.lith c i) s = .next (s.joined c (s.after c 3 0 k [BitVec.ofInt 40 (i.toInt * 2 ^ 16)] .next))) ∧
    (∀ r : Fin 16, s.ready c 1 → ok 0 1 → exec (.frd c r) s = .next (s.joined c (s.after c 1 0 k [k.frame r] .next))) ∧
    (∀ r : Fin 16, s.ready c 1 → ok 1 0 →
      exec (.fwr c r) s = .next (s.joined c (s.after c 1 1 (k.setFrame r (s.operand c 0)) [] .next))))

/-- The additive instructions push their exact result as R273 fits it to a cell, with V, SV and C as R273 sets them: ADD sets C to
the carry out of bit 31 of the sum of the low words, SUB and NEG to the borrow into bit 32, and ABS leaves C. The multiplications
and shifts push their exact result as R273 fits it, set V and SV, and leave C: MULQ, MACQ and MSUQ round a product of two cells over
2^31 by PSW.RND, MULI multiplies integers, SHL multiplies by 2^k, SHR divides by it and rounds by PSW.RND, LSR shifts the low word
and changes no flag (R272, R273, R291). -/
def Obligations.ArithmeticSetsFlags : Prop :=
  (∀ (s : State) (c : Fin 16), s.ready c 1 →
    let k := s.coreNow c
    let ok := s.stackReady c (s.core c).dataId
    let a := s.operand c 1
    let b := s.operand c 0
    (ok 2 1 → k.takes (a.toInt + b.toInt) →
      exec (.add c) s = .next (s.joined c (s.after c 1 2
        ((k.flagged (a.toInt + b.toInt)).setPsw Psw.c (decide (2 ^ 32 ≤ a.toNat % 2 ^ 32 + b.toNat % 2 ^ 32)))
        [k.fitted (a.toInt + b.toInt)] .next))) ∧
    (ok 2 1 → k.takes (a.toInt - b.toInt) →
      exec (.sub c) s = .next (s.joined c (s.after c 1 2
        ((k.flagged (a.toInt - b.toInt)).setPsw Psw.c (decide (a.toNat % 2 ^ 32 < b.toNat % 2 ^ 32)))
        [k.fitted (a.toInt - b.toInt)] .next))) ∧
    (ok 1 1 → k.takes (-b.toInt) →
      exec (.neg c) s = .next (s.joined c (s.after c 1 1 ((k.flagged (-b.toInt)).setPsw Psw.c (decide (0 < b.toNat % 2 ^ 32)))
        [k.fitted (-b.toInt)] .next))) ∧
    (ok 1 1 → k.takes b.toInt.natAbs →
      exec (.abs c) s = .next (s.joined c (s.after c 1 1 (k.flagged b.toInt.natAbs) [k.fitted b.toInt.natAbs] .next)))) ∧
  (∀ (s : State) (c : Fin 16),
    let k := s.coreNow c
    let ok := s.stackReady c (s.core c).dataId
    let w := s.operand c 2
    let a := s.operand c 1
    let b := s.operand c 0
    let p := roundShift k.rnd (a.toInt * b.toInt) 31
    let exact := fun (i : Instr) (len pops : Nat) (x : Int) => ok pops 1 → s.ready c len → k.takes x →
      exec i s = .next (s.joined c (s.after c len pops (k.flagged x) [k.fitted x] .next))
    exact (.mulq c) 1 2 p ∧ exact (.muli c) 1 2 (a.toInt * b.toInt) ∧
    exact (.macq c) 1 3 (w.toInt + p) ∧ exact (.msuq c) 1 3 (w.toInt - p) ∧
    (∀ n : Byte, n.toNat < 32 →
      exact (.shl c n) 2 1 (b.toInt * 2 ^ n.toNat) ∧ exact (.shr c n) 2 1 (roundShift k.rnd b.toInt n.toNat) ∧
      (ok 1 1 → s.ready c 2 →
        exec (.lsr c n) s = .next (s.joined c (s.after c 2 1 k [BitVec.ofNat 40 (b.toNat % 2 ^ 32 / 2 ^ n.toNat)] .next)))))

/-- MIN, MAX, SATW, LIM and a DIV that runs to its end in one command (R291, R302): MIN and MAX keep the first operand when the two
are equal, SATW and LIM clamp, and DIV pushes remainder and quotient, the quotient toward zero, with V and C 0. A DIV by zero with
DZE at 0 pushes the dividend and 0, and sets C. -/
def Obligations.SelectionsAndDivision : Prop :=
  ∀ (s : State) (c : Fin 16), s.ready c 1 →
    let k := s.coreNow c
    let ok := s.stackReady c (s.core c).dataId
    let w := s.operand c 2
    let a := s.operand c 1
    let b := s.operand c 0
    let word := fun (x : Cell) => min (max x.toInt (-(2 ^ 31))) (2 ^ 31 - 1)
    let sticky := fun (changed : Bool) (k : Core) => if changed then k.setPsw Psw.sv true else k
    (ok 2 1 → exec (.min c) s = .next (s.joined c (s.after c 1 2 k [if b.toInt < a.toInt then b else a] .next))) ∧
    (ok 2 1 → exec (.max c) s = .next (s.joined c (s.after c 1 2 k [if b.toInt < a.toInt then a else b] .next))) ∧
    (ok 1 1 → exec (.satw c) s =
      .next (s.joined c (s.after c 1 1 (sticky (decide (word b ≠ b.toInt)) k) [BitVec.ofInt 40 (word b)] .next))) ∧
    (ok 3 1 → exec (.lim c) s =
      .next (s.joined c (s.after c 1 3 (k.setPsw Psw.c (decide (min (max w.toInt a.toInt) b.toInt ≠ w.toInt)))
        [BitVec.ofInt 40 (min (max w.toInt a.toInt) b.toInt)] .next))) ∧
    (∀ n, ok 2 2 → 16 ≤ n → word b ≠ 0 → exec (.div c n) s =
      .next (s.joined c (s.after c 1 2
        (((sticky (decide (word a ≠ a.toInt) || decide (word b ≠ b.toInt)) k).setPsw Psw.v false).setPsw Psw.c false)
        [BitVec.ofInt 40 ((word a).tmod (word b)), BitVec.ofInt 40 ((word a).tdiv (word b))] .next))) ∧
    (∀ n, ok 2 2 → b = 0 → k.effective Psw.dze = false → exec (.div c n) s =
      .next (s.joined c (s.after c 1 2 (((sticky (decide (word a ≠ a.toInt)) k).setPsw Psw.v false).setPsw Psw.c true)
        [BitVec.ofInt 40 (word a), 0] .next)))

/-- The logical instructions act on all 40 bits, and the comparisons push 1 when they hold of the signed cells and 0 when not, CLTU
of the low words; none of them changes a flag (R275, R292). CRCB and CRCW push the register after their bytes, the lowest first; PAR
pushes the parity of the low word; BREV8, BREV16 and BREV32 push a field in reverse bit order, with zero above it. None of them
changes a flag, and a reserved mode or polynomial raises ILLEGAL (R293, R294). -/
def Obligations.LogicComparisonsAndCodes : Prop :=
  (∀ (s : State) (c : Fin 16), s.ready c 1 →
    let ok := s.stackReady c (s.core c).dataId
    let a := s.operand c 1
    let b := s.operand c 0
    let two := fun (i : Instr) (r : Cell) => ok 2 1 → exec i s = .next (s.joined c (s.after c 1 2 (s.coreNow c) [r] .next))
    let one := fun (i : Instr) (r : Cell) => ok 1 1 → exec i s = .next (s.joined c (s.after c 1 1 (s.coreNow c) [r] .next))
    let truth := fun (q : Bool) => (if q then 1 else 0 : Cell)
    two (.and c) (a &&& b) ∧ two (.or c) (a ||| b) ∧ two (.xor c) (a ^^^ b) ∧ one (.not c) (~~~b) ∧
    two (.ceq c) (truth (decide (a.toInt = b.toInt))) ∧ two (.cne c) (truth (decide (a.toInt ≠ b.toInt))) ∧
    two (.clt c) (truth (decide (a.toInt < b.toInt))) ∧ two (.cle c) (truth (decide (a.toInt ≤ b.toInt))) ∧
    two (.cgt c) (truth (decide (a.toInt > b.toInt))) ∧ two (.cge c) (truth (decide (a.toInt ≥ b.toInt))) ∧
    two (.cltu c) (truth (decide (a.toNat % 2 ^ 32 < b.toNat % 2 ^ 32))) ∧
    one (.cz c) (truth (decide (b.toInt = 0))) ∧ one (.cn c) (truth (decide (b.toInt < 0)))) ∧
  (∀ (s : State) (c : Fin 16),
    let k := s.coreNow c
    let ok := s.stackReady c (s.core c).dataId
    let a := s.operand c 1
    let b := s.operand c 0
    (∀ m p : Byte, s.ready c 3 → ok 2 1 → m.toNat ≤ 2 → (m.toNat < 2 → p = 0) →
      exec (.crcb c m p) s = .next (s.joined c (s.after c 3 2 k
        [BitVec.ofNat 40 (crcStep m p (a.toNat % 2 ^ crcWidth m) (b.toNat % 256))] .next)) ∧
      exec (.crcw c m p) s = .next (s.joined c (s.after c 3 2 k
        [BitVec.ofNat 40 (crcStep m p (crcStep m p (crcStep m p (crcStep m p (a.toNat % 2 ^ crcWidth m)
          (b.toNat % 256)) (b.toNat / 2 ^ 8 % 256)) (b.toNat / 2 ^ 16 % 256)) (b.toNat / 2 ^ 24 % 256))] .next))) ∧
    (∀ m p : Byte, s.ready c 3 → 2 < m.toNat ∨ (m.toNat < 2 ∧ p ≠ 0) →
      exec (.crcb c m p) s = .next (s.joined c ((takeException c Exc.illegal (s.setCore c k)).getD s)) ∧
      exec (.crcw c m p) s = .next (s.joined c ((takeException c Exc.illegal (s.setCore c k)).getD s))) ∧
    (s.ready c 1 → ok 1 1 →
      exec (.par c) s = .next (s.joined c (s.after c 1 1 k
        [BitVec.ofNat 40 (((List.range 32).filter (fun i => b.getLsbD i)).length % 2)] .next)) ∧
      (∃ r, exec (.brev8 c) s = .next (s.joined c (s.after c 1 1 k [r] .next)) ∧
        ∀ i < 40, r.getLsbD i = (decide (i < 8) && b.getLsbD (7 - i))) ∧
      (∃ r, exec (.brev16 c) s = .next (s.joined c (s.after c 1 1 k [r] .next)) ∧
        ∀ i < 40, r.getLsbD i = (decide (i < 16) && b.getLsbD (15 - i))) ∧
      (∃ r, exec (.brev32 c) s = .next (s.joined c (s.after c 1 1 k [r] .next)) ∧
        ∀ i < 40, r.getLsbD i = (decide (i < 32) && b.getLsbD (31 - i)))))

/-- One step of a CRC over a byte, as the table of R294 writes it: the byte is combined with the register, and then eight shifts
follow. -/
def Obligations.CrcStepsFollowTheTable : Prop :=
  ∀ (r b : Nat), b < 256 →
    let right := fun (x : Nat) => if x % 2 = 1 then (x / 2) ^^^ 0xEDB88320 else x / 2
    let left := fun (w poly x : Nat) => if x.testBit (w - 1) then (2 * x ^^^ poly) % 2 ^ w else 2 * x % 2 ^ w
    (r < 2 ^ 32 → crcStep 0 0 r b = right^[8] (r ^^^ b)) ∧
    (r < 2 ^ 16 → crcStep 1 0 r b = (left 16 0x1021)^[8] (r ^^^ b * 256)) ∧
    (∀ p : Byte, r < 2 ^ 8 → crcStep 2 p r b = (left 8 p.toNat)^[8] (r ^^^ b))

/-- The branches add the offset, counted from the next instruction, to the PC when they are taken, and go on otherwise: BR always,
BZ and BNZ on all 40 bits of a popped cell, the flag branches on V, C and SV; JMP and JMPI take their target. No branch changes a
flag (R298). -/
def Obligations.BranchesGoToTheirTargets : Prop :=
  ∀ (s : State) (c : Fin 16),
    let k := s.coreNow c
    let ok := s.stackReady c (s.core c).dataId
    let f := s.operand c 0
    (∀ o : BitVec 16, s.ready c 3 →
      let go := fun (q : Bool) => if q then Flow.jump (k.pc + 3 + o.signExtend 32) else Flow.next
      exec (.br c o) s = .next (s.joined c (s.after c 3 0 k [] (go true))) ∧
      (ok 1 0 → exec (.bz c o) s = .next (s.joined c (s.after c 3 1 k [] (go (decide (f = 0))))) ∧
        exec (.bnz c o) s = .next (s.joined c (s.after c 3 1 k [] (go (decide (f ≠ 0)))))) ∧
      exec (.bv c o) s = .next (s.joined c (s.after c 3 0 k [] (go (k.pswE.getLsbD 0)))) ∧
      exec (.bnv c o) s = .next (s.joined c (s.after c 3 0 k [] (go (!k.pswE.getLsbD 0)))) ∧
      exec (.bc c o) s = .next (s.joined c (s.after c 3 0 k [] (go (k.pswE.getLsbD 1)))) ∧
      exec (.bnc c o) s = .next (s.joined c (s.after c 3 0 k [] (go (!k.pswE.getLsbD 1)))) ∧
      exec (.bsv c o) s = .next (s.joined c (s.after c 3 0 k [] (go (k.pswE.getLsbD 2)))) ∧
      exec (.bnsv c o) s = .next (s.joined c (s.after c 3 0 k [] (go (!k.pswE.getLsbD 2))))) ∧
    (∀ t : Word, s.ready c 5 → exec (.jmp c t) s = .next (s.joined c (s.after c 5 0 k [] (.jump t)))) ∧
    (s.ready c 1 → ok 1 0 → exec (.jmpi c) s = .next (s.joined c (s.after c 1 1 k [] (.jump (f.setWidth 32)))))

/-- LOOP pops a count, and LS, LE, LC and LA take their values at once (R278). The loop-back of R279, at the completion of a NOP: at
LE with LA = 1 it counts LC down modulo 2^32 and goes to LS until LC is 0, which clears LA and goes on; everywhere else LC and LA
stay and the PC goes on. -/
def Obligations.LoopsCountDown : Prop :=
  (∀ (s : State) (c : Fin 16) (u : BitVec 16), s.ready c 3 → s.stackReady c (s.core c).dataId 1 0 →
    ∃ t, exec (.loop c u) s = .next (s.joined c t) ∧
      let k := s.core c
      let k' := t.core c
      k'.ls = k.pc + 3 ∧ k'.le = k.pc + 3 + u.setWidth 32 ∧ k'.lc = (s.operand c 0).setWidth 32 ∧
      k'.psw = k.psw ||| 0x00100000 ∧ k'.lsE = k'.ls ∧ k'.leE = k'.le ∧ k'.lcE = k'.lc ∧
      k'.pswE = k.pswE ||| 0x00100000 ∧ k'.pc = k.pc + 3 ∧
      k'.stack k.dataId = (k.stack k.dataId).pop ∧
      (∀ i, i ≠ k.dataId → k'.stack i = k.stack i) ∧ k'.fr = k.fr ∧ t = s.setCore c k') ∧
  (∀ (s : State) (c : Fin 16), s.ready c 1 → (s.core c).pend = 0 → (s.core c).lc = (s.core c).lcE →
    ∃ t, exec (.nop c) s = .next (s.joined c t) ∧
      let k := s.core c
      let k' := t.core c
      if k.pswE.getLsbD 20 = true ∧ k.pc = k.leE then
        k'.lc = k.lc - 1 ∧ k'.lcE = k.lc - 1 ∧
        (if k.lc = 1 then k'.pc = k.pc + 1 ∧ k'.pswE.getLsbD 20 = false ∧ k'.psw.getLsbD 20 = false
          else k'.pc = k.lsE ∧ k'.pswE = k.pswE ∧ k'.psw = k.psw)
      else k'.pc = k.pc + 1 ∧ k'.lc = k.lc ∧ k'.lcE = k.lcE ∧ k'.pswE = k.pswE ∧ k'.psw = k.psw)

/-- CALL and CALLI push the frame registers of the mask, lowest first, and a link cell, and go to their target; a RET at the target
pops them again, and leaves the frame registers, the return stack pointer and, but for the length of the call, the PC as they were
before the call (R269, R270). A RET pops the link cell and the cells of its mask, the highest register first, and goes to the return
address. -/
def Obligations.CallAndReturn : Prop :=
  (∀ (s : State) (c : Fin 16) (m : BitVec 16),
    let k := s.coreNow c
    let r := k.stack k.retId
    let d := k.stack k.dataId
    let regs := (List.range 16).filter (fun i => m.getLsbD i)
    let cells := fun (len : Nat) => regs.map (fun i => (k.frame i).signExtend 64) ++
      [(0 : BitVec 16) ++ m ++ (k.pc + BitVec.ofNat 32 len)]
    let pushed := fun (len : Nat) => (cells len).foldl Stack.push r
    r.check k.retId 0 (regs.length + 1) = none → r.cells.length + regs.length + 1 ≤ k.retId.depth →
    (∀ p ∈ r.cells, r.ptr.toNat ≤ p.1) →
    (∀ t : Word, s.ready c 7 →
      exec (.call c m t) s = .next (s.joined c (s.setCore c ((k.setStack k.retId (pushed 7)).complete 7 (.jump t))))) ∧
    (s.ready c 3 → s.stackReady c k.dataId 1 0 →
      exec (.calli c m) s = .next (s.joined c (s.setCore c (((k.setStack k.retId (pushed 3)).setStack k.dataId d.pop).complete 3
        (.jump ((s.operand c 0).setWidth 32)))))) ∧
    (∀ (t : Word) (u : State), s.ready c 7 → exec (.call c m t) s = .next u → u.ready c 1 →
      ∃ v, exec (.ret c) u = .next v ∧ (v.core c).pc = k.pc + 7 ∧ (v.core c).stack k.retId = r ∧
        (v.core c).stack k.dataId = d ∧ ∀ i, (v.core c).frame i = k.frame i)) ∧
  (∀ (s : State) (c : Fin 16),
    let k := s.coreNow c
    let r := k.stack k.retId
    let link := r.top 0
    let regs := ((List.range 16).filter (fun i => link.getLsbD (32 + i))).reverse
    s.ready c 1 → s.stackReady c k.retId (regs.length + 1) 0 →
      ∃ v, exec (.ret c) s = .next (s.joined c v) ∧ v = s.setCore c (v.core c) ∧ (v.core c).pc = link.setWidth 32 ∧
        (v.core c).stack k.retId = r.drop (regs.length + 1) ∧ (∀ i, i ≠ k.retId → (v.core c).stack i = k.stack i) ∧
        (∀ j < regs.length, (v.core c).frame (regs.getD j 0) = (r.top (j + 1)).setWidth 40) ∧
        (∀ i, i ∉ regs → (v.core c).frame i = k.frame i) ∧ (v.core c).psw = k.psw ∧ (v.core c).pswE = k.pswE)

/-- A load from the core's own TCM completes at once: the cell that held the address stays, the data waits in the load shadow,
sign-extended, zero-extended or scaled as the load's row says, and the PC goes on (R276, R295). A load from shared memory waits,
with the PC where it is, until its data returns, and then its shadow begins (R277). The data of a load lands when the instruction in
its shadow, here a NOP, has completed: in the cell that held the address, or nowhere once that cell has been popped (R276). -/
def Obligations.LoadsLandTheirData : Prop :=
  (∀ (s : State) (c : Fin 16),
    let k := s.coreNow c
    let i := k.dataId
    let at_ := (k.stack i).ptr.toNat
    let va := (s.operand c 0).toNat % 2 ^ 32
    let le := fun (a n : Nat) => ((List.range n).map (fun j => (s.byteAt (a + j)).toNat * 256 ^ j)).sum
    let loaded := fun (t : LoadKind) (a : Nat) =>
      match t with
      | .ld => (BitVec.ofNat 32 (le a 4)).signExtend 40
      | .ldh => (BitVec.ofNat 16 (le a 2)).signExtend 40
      | .ldqh => BitVec.ofInt 40 ((BitVec.ofNat 16 (le a 2)).toInt * 2 ^ 16)
      | .ldb => (BitVec.ofNat 40 (le a 1))
      | .ldbs => (BitVec.ofNat 8 (le a 1)).signExtend 40
      | .ldx => (BitVec.ofNat 40 (le a 8))
    let own := fun (x : Instr) (t : LoadKind) => ∀ p, p < 0x40000 → va % t.size = 0 →
      (s.begun c).reaches c va t.size false (decide (t.size = 4)) p → s.poisoned (s.coreAddr c p) = false →
      s.upset (s.coreAddr c p) = .none → exec x s = .next (s.joined c (s.setCore c (Core.complete { k with
        shadow := some (LoadShadow.mk i at_ (loaded t (s.coreAddr c p))) } 1 .next)))
    (s.ready c 1 → s.stackReady c i 1 1 →
      own (.ld c .none none) .ld ∧ own (.ldh c .none) .ldh ∧ own (.ldqh c .none) .ldqh ∧ own (.ldb c .none) .ldb ∧
      own (.ldbs c .none) .ldbs ∧ own (.ldx c .none) .ldx ∧
      (∀ p, regionOf p = .sram → va % 4 = 0 → (s.begun c).reaches c va 4 false true p →
        exec (.ld c .none none) s = .next (s.joined c (s.setCore c { k with loadWait := some (LoadWait.mk .ld va [p, 0]) })))) ∧
    (∀ (t : LoadKind) (p : Nat), s.coreOn c = true → (s.core c).loadWait = some (LoadWait.mk t va [p, 0]) →
      (s.core c).shadow = none → (s.core c).stores = [] → regionOf p = .sram → va % t.size = 0 →
      s.memoryWaits p = false → s.poisoned p = false → s.upset p = .none → s.agrees c →
      exec (.loadDataReturn c ⟨.none, none⟩) s = .next (s.joined c (s.setCore c (Core.complete { s.core c with
        shadow := some (LoadShadow.mk (s.core c).dataId at_ (loaded t p)) } 1 .next))))) ∧
  (∀ (s : State) (c : Fin 16) (d : LoadShadow),
    s.executes c = true → (s.core c).job = none → (s.core c).progress = 0 → (s.core c).shadow = some d →
    fetchCheck c (s.core c).pc.toNat 1 s = .ok () s → s.agrees c →
    let k := { s.coreNow c with shadow := none }
    let x := k.stack d.stack
    (d.cell < x.ptr.toNat → exec (.nop c) s = .next (s.joined c (s.setCore c (k.complete 1 .next)))) ∧
    (x.ptr.toNat ≤ d.cell → (x.cached d.cell).isSome = true →
      exec (.nop c) s = .next (s.joined c (s.setCore c ((k.complete 1 .next).setStack d.stack (x.hold d.cell (d.value.signExtend 64)))))))

/-- A store to the core's own TCM writes the bytes of its value at its address and no other byte of memory; the value is clamped
under SAT, with SV set when the clamp changed it, and its two operands leave (R274, R295; that the clamp of a store sets SV, where R274
and R275 differ, is the model's choice, log entry 82). An accepted store lands the same way
(R336). -/
def Obligations.StoresWriteTheirBytes : Prop :=
  ∀ (s : State) (c : Fin 16),
    let k := s.coreNow c
    let i := k.dataId
    let va := (s.operand c 0).toNat % 2 ^ 32
    let v := (s.operand c 1).toInt
    let sat := k.effective Psw.sat
    let clamp := fun (w : Nat) (x : Int) => if sat then min (max x (-(2 ^ (w - 1)))) (2 ^ (w - 1) - 1) else x
    let half := roundShift k.rnd v 16
    let wrote := fun (t : State) (a n : Nat) (x : Int) => ∀ b, t.byteAt b =
      if a ≤ b ∧ b < a + n then BitVec.ofInt 8 (x / 256 ^ (b - a)) else s.byteAt b
    let own := fun (x : Instr) (n : Nat) (value : Int) (sv : Bool) => ∀ p, p < 0x40000 → va % n = 0 →
      (s.begun c).reaches c va n true (decide (n = 4)) p → s.poisoned (s.coreAddr c p) = false → s.upset (s.coreAddr c p) = .none →
      ∃ t, exec x s = .next (s.joined c t) ∧ wrote t (s.coreAddr c p) n value ∧
        t = { s.after c 1 2 (if sv then k.setPsw Psw.sv true else k) [] .next with mem := t.mem, poison := t.poison, upsets := t.upsets } ∧
        (n < 8 → t.poison = s.poison ∧ t.upsets = s.upsets)
    (s.ready c 1 → s.stackReady c i 2 0 → (s.core c).stores = [] →
      own (.st c false none) 4 (clamp 32 v) (decide (clamp 32 v ≠ v)) ∧
      own (.sth c false) 2 (clamp 16 v) (decide (clamp 16 v ≠ v)) ∧
      own (.stqh c false) 2 (clamp 16 half) (decide (clamp 16 half ≠ half)) ∧
      own (.stb c) 1 v false ∧ own (.stx c) 8 v false ∧
      (∀ p, regionOf p = .sram → va % 4 = 0 → (s.begun c).reaches c va 4 true true p → (s.begun c).deviceAt c va = false →
        exec (.st c false none) s = .next (s.joined c (s.after c 1 2
          { (if clamp 32 v ≠ v then k.setPsw Psw.sv true else k) with
            stores := [Store.mk p ((List.range 4).map (fun j => BitVec.ofInt 8 (clamp 32 v / 256 ^ j))) ((s.begun c).keyAt c va)
              false k.user] } [] .next)))) ∧
    (∀ (a : Store) (rest : List Store), s.alive = true → (s.core c).stores = a :: rest → regionOf a.addr = .sram →
      s.memoryWaits a.addr = false → s.poisoned a.addr = false → s.upset a.addr = .none → a.bytes.length ≤ 4 →
      (∀ j < a.bytes.length, regionOf (a.addr + j) = .sram) →
      ∃ t, exec (.storeLand c .none) s = .next t ∧
        t = { s.setCore c { s.core c with stores := rest } with mem := t.mem } ∧
        ∀ b, t.byteAt b = if a.addr ≤ b ∧ b < a.addr + a.bytes.length then a.bytes.getD (b - a.addr) 0 else s.byteAt b)

/-- BMOV, BMAC and BCRC over one unit in the core's own TCM (R293, R303): BMOV copies a word and pops its operands, BMAC adds a
rounded product to its accumulator, BCRC steps its register over a byte. A count of 0 moves and reads nothing. -/
def Obligations.BlockInstructionsRunTheirUnits : Prop :=
  ∀ (s : State) (c : Fin 16) (n : Nat), 0 < n →
    let k := s.coreNow c
    let i := k.dataId
    let top := (s.operand c 0).toInt
    let a := (s.operand c 2).toNat % 2 ^ 32
    let b := (s.operand c 1).toNat % 2 ^ 32
    let reads := fun (va p : Nat) => p < 0x40000 ∧ (s.begun c).deviceAt c va = false ∧
      (s.begun c).reaches c va 4 false false p ∧ s.poisoned (s.coreAddr c p) = false ∧ s.upset (s.coreAddr c p) = .none
    let word := fun (p : Nat) => BitVec.ofNat 32 (((List.range 4).map (fun j => (s.byteAt (s.coreAddr c p + j)).toNat * 256 ^ j)).sum)
    (s.ready c 1 → s.stackReady c i 3 1 → a % 4 = 0 → b % 4 = 0 →
      (top ≤ 0 → exec (.bmov c n) s = .next (s.joinedBlock c [2] (s.after c 1 3 k [] .next))) ∧
      (∀ p q, top = 1 → reads a p → q < 0x40000 → q % 4 = 0 → (s.begun c).deviceAt c b = false → (s.begun c).reaches c b 4 true false q →
        s.poisoned (s.coreAddr c q) = false → s.upset (s.coreAddr c q) = .none →
        ∃ t, exec (.bmov c n) s = .next (s.joinedBlock c [2] t) ∧ t = { s.after c 1 3 k [] .next with mem := t.mem } ∧
          ∀ x, t.byteAt x = if s.coreAddr c q ≤ x ∧ x < s.coreAddr c q + 4 then
            s.byteAt (s.coreAddr c p + (x - s.coreAddr c q)) else s.byteAt x)) ∧
    (∀ m g : Byte, s.ready c 3 → s.stackReady c i 3 1 → m.toNat ≤ 2 → (m.toNat < 2 → g = 0) →
      (top ≤ 0 → exec (.bcrc c m g n) s = .next (s.joinedBlock c [1] (s.after c 3 3 k
        [BitVec.ofNat 40 ((s.operand c 2).toNat % 2 ^ crcWidth m)] .next))) ∧
      (∀ p, top = 1 → reads b p → ∃ t, exec (.bcrc c m g n) s = .next (s.joinedBlock c [1] t) ∧
        t.operand c 0 = BitVec.ofNat 40 (crcStep m g ((s.operand c 2).toNat % 2 ^ crcWidth m) (s.byteAt (s.coreAddr c p)).toNat) ∧
        (t.stack c i).ptr = (k.stack i).ptr + 16 ∧ (t.core c).psw = k.psw ∧ t = s.setCore c (t.core c))) ∧
    (s.ready c 1 → s.stackReady c i 4 1 → s.stackReady c i 3 1 → a % 4 = 0 → b % 4 = 0 → ∀ p q, top = 1 → reads a p → reads b q →
      let x := (s.operand c 3).toInt + roundShift k.rnd ((word p).toInt * (word q).toInt) 31
      k.takes x → ∃ t, exec (.bmac c n) s = .next (s.joinedBlock c [2, 1] t) ∧ t.operand c 0 = k.fitted x ∧
        (t.stack c i).ptr = (k.stack i).ptr + 24 ∧ (t.core c).psw = (k.flagged x).psw ∧ t = s.setCore c (t.core c))

/-- The system instructions of a core in supervisor mode (R259, R261, R268, R299, R347): SYNC puts every committed value into
effect, WAIT enters the wait state, ICINVA and ICINV empty the instruction cache or drop one line, TLBINVA and TLBINV drop the
unlocked TLB entries or the one that translates an address, each leaving what stands in the fetch buffer (at LE, SYNC's own completion
uses the values it has put into effect, the model's choice, log entry 105), and FENCE goes on once
nothing of the core is in flight, and waits until then. SFLUSH writes every cell of the named cache to its address in memory and empties the cache (R268), here for a supervisor stack
in the D-TCM through a segment at its reset value; a core that waits leaves its wait state when an enabled source is pending and IE
is 0 (R299). A miss fills a whole line of the instruction cache from shared memory: the line becomes the most recently used, no
other line enters, and a set that held at most four lines holds at most four (R261). -/
def Obligations.SystemAndCacheInstructions : Prop :=
  (∀ (s : State) (c : Fin 16), s.ready c 1 →
    let k := s.coreNow c
    let i := k.dataId
    let a := (s.operand c 0).toNat % 2 ^ 32
    exec (.sync c) s = .next (s.joined c (s.setCore c (Core.complete { k with
      pswE := k.psw, lcE := k.lc, lsE := k.ls, leE := k.le, evbaseE := k.evbase, ivbaseE := k.ivbase, segE := k.seg,
      pend := 0, segPend := 0, tlb := k.tlb.filter (fun t => !k.segPend.getLsbD t.seg), fetched := [] } 1 .next))) ∧
    ((s.core c).stores = [] → s.tableStoring c = false → s.copying c = false →
      exec (.fence c) s = .next (s.joined c (s.after c 1 0 k [] .next))) ∧
    ((s.core c).stores ≠ [] ∨ s.tableStoring c = true ∨ s.copying c = true → exec (.fence c) s = .next (s.joined c s)) ∧
    (k.user = false →
      exec (.wait c) s = .next (s.joined c (s.setCore c (Core.complete { k with waiting := true } 1 .next))) ∧
      exec (.icinva c) s = .next (s.joined c (s.setCore c (Core.complete { k with icache := [], fetched := s.ahead c 1 } 1 .next))) ∧
      exec (.tlbinva c) s = .next (s.joined c (s.setCore c (Core.complete
        { k with tlb := k.tlb.filter (fun t => t.locked), fetched := s.ahead c 1 } 1 .next))) ∧
      (s.stackReady c i 1 0 → exec (.tlbinv c) s = .next (s.joined c (s.after c 1 1
        { k with tlb := k.tlb.filter (fun t => !(decide (t.seg = a / 2 ^ 28 % 16) && decide (t.page = a / 2 ^ 12 % 2 ^ 16))),
                 fetched := s.ahead c 1 } [] .next))) ∧
      (∀ p, s.stackReady c i 1 0 → (s.begun c).reaches c a 1 false true p → exec (.icinv c) s = .next (s.joined c (s.after c 1 1
        { k with icache := k.icache.filter (fun l => decide (l.1 ≠ p / 32)), fetched := s.ahead c 1 } [] .next))))) ∧
  (∀ (s : State) (c : Fin 16),
    let k := s.coreNow c
    (∀ b : Byte, s.ready c 2 → k.user = false → b = 1 ∨ b = 3 → k.segE = [] → k.pkr = 0 → k.emerg = false → k.stores = [] →
      let i := if b = 1 then StackId.ds else StackId.rs
      (k.stack i).cells.Pairwise (fun p q => p.1 + 8 ≤ q.1) →
      (∀ p ∈ (k.stack i).cells, 0x20000 ≤ p.1 ∧ p.1 + 8 ≤ 0x40000) →
      ∃ t, exec (.sflush c b) s = .next (s.joined c t) ∧ (t.stack c i).cells = [] ∧ (t.stack c i).ptr = (k.stack i).ptr ∧
        (∀ p ∈ (k.stack i).cells, t.word64 c p.1 = p.2.toNat) ∧
        (∀ x, (∀ p ∈ (k.stack i).cells, ¬ (s.coreAddr c p.1 ≤ x ∧ x < s.coreAddr c p.1 + 8)) → t.byteAt x = s.byteAt x)) ∧
    (∀ j < 384, s.coreOn c = true → s.agrees c → (s.core c).waiting = true → (s.core c).effective Psw.ie = false →
      s.pendingAt c j = true → exec (.waitExit c) s = .next (s.joined c (s.setCore c { s.core c with waiting := false })))) ∧
  (∀ (s : State) (c : Fin 16) (va : Word) (p : Nat), s.coreOn c = true → s.agrees c →
    translate c { va := va.toNat, size := 1, write := false, fetch := true, user := (s.core c).user, word := false } s = .ok p s →
    regionOf p = .sram → (s.core c).hasLine p = false → s.memoryWaits p = false → (∀ j < 4, s.poisoned (p / 32 * 32 + 8 * j) = false ∧
      s.upset (p / 32 * 32 + 8 * j) = .none) →
    ∃ t lines, exec (.icacheFill c va .none) s = .next (s.joined c t) ∧
      t = s.setCore c { s.core c with icache := (p / 32, (List.range 32).map (fun j => s.byteAt (p / 32 * 32 + j))) :: lines } ∧
      (∀ l ∈ lines, l ∈ (s.core c).icache) ∧
      ((s.core c).icache.filter (fun l => decide (l.1 % 256 = p / 32 % 256))).length ≤ 4 →
        (lines.filter (fun l => decide (l.1 % 256 = p / 32 % 256))).length ≤ 3)

/-- MFC pushes a control register, sign-extended from 32 bits, as it was last written; MFC of SHADOW_PRG returns the value and
clears SHADOW_STATUS.VALID (R281, R283, R317, R327, R356). MTC pops a cell into a control register: SY registers change their
committed value only, V, C, SV, RND and SAT of the PSW and every other register change at once, read-only registers ignore the
write, and the fields that a register reserves stay as they are (R12, R259, R281, R283, R317, R327, R347, R356). -/
def Obligations.ControlRegisterAccesses : Prop :=
  (∀ (s : State) (c : Fin 16), s.ready c 2 → (s.coreNow c).user = false → s.stackReady c (s.core c).dataId 0 1 →
    let k := s.coreNow c
    (∀ q ∈ ([(0x00, k.psw), (0x02, k.lc), (0x03, k.ls), (0x04, k.le), (0x20, k.evbase), (0x21, k.ivbase), (0x22, k.cause),
        (0x23, k.faultAddr), (0x24, k.shadowPc), (0x25, k.shadowPsw), (0x27, k.shadowStatus), (0x28, k.rlevel.setWidth 32),
        (0x2A, k.icClaim), (0x2B, k.entryLevel), (0x2D, k.icFlags), (0x60, k.pkr), (0x61, k.walkInfo), (0x62, k.walkInfoHi),
        (0x10, k.du.lo), (0x11, k.du.hi), (0x12, k.ds.lo), (0x13, k.ds.hi), (0x14, k.ru.lo), (0x15, k.ru.hi), (0x16, k.rs.lo),
        (0x17, k.rs.hi), (0x08, k.du.ptr), (0x09, k.ds.ptr), (0x0A, k.ru.ptr), (0x0B, k.rs.ptr)] : List (Byte × Word)),
      exec (.mfc c q.1) s = .next (s.joined c (s.after c 2 0 k [q.2.signExtend 40] .next))) ∧
    (∀ j < 12, exec (.mfc c (0x30 + BitVec.ofNat 8 j)) s =
      .next (s.joined c (s.after c 2 0 k [(mapGet (fun _ => (0 : Word)) k.en j).signExtend 40] .next))) ∧
    (∀ j < 32, exec (.mfc c (0x40 + BitVec.ofNat 8 j)) s =
      .next (s.joined c (s.after c 2 0 k [(mapGet segReset k.seg j).signExtend 40] .next))) ∧
    exec (.mfc c 0x01) s = .next (s.joined c (s.after c 2 0 k [k.prg] .next)) ∧
    exec (.mfc c 0x18) s = .next (s.joined c (s.after c 2 0 k [BitVec.ofNat 40 (s.coreRecord c)] .next)) ∧
    exec (.mfc c 0x19) s = .next (s.joined c (s.after c 2 0 k [BitVec.ofNat 40 (k.rs.cells.length % 16 * 2 ^ 24 +
      k.ru.cells.length % 16 * 2 ^ 16 + k.ds.cells.length % 32 * 2 ^ 8 + k.du.cells.length % 32)] .next)) ∧
    exec (.mfc c 0x2C) s = .next (s.joined c (s.after c 2 0 k [(match s.arbitrate c 0 with
      | none => (0 : Word)
      | some j => BitVec.ofNat 32 (2 ^ 31 + s.prio c j * 2 ^ 16 + j)).signExtend 40] .next)) ∧
    exec (.mfc c 0x63) s = .next (s.joined c (s.after c 2 0 k [BitVec.ofNat 40 (k.tlb.length % 256 * 2 ^ 16 +
      (k.tlb.filter (fun t => t.locked)).length % 32 * 2 ^ 8 + (if k.lockFull then 4 else 0) + (if k.lockFill then 1 else 0))] .next)) ∧
    (let pair := fun (v : Nat) => exec (.mfc c 0x80) s = .next (s.joined c (s.after c 2 0 k [BitVec.ofNat 40 v] .next));
      (s.pairState (c / 2) = 0 → pair (16 * c.val)) ∧ (s.pairState (c / 2) = 1 → pair (16 * s.coreRecord c + 1)) ∧
      (s.pairState (c / 2) = 3 → pair (16 * (if s.fld (A.LOCK_STATUS (c.val / 2)) F.LOCK_STATUS_OUTCOME = 3 then c.val / 2 * 2 + 1
        else c.val / 2 * 2) + 2))) ∧
    exec (.mfc c 0x29) s = .next (s.joined c (s.after c 2 0 k [if k.globalHold then 1 else 0] .next)) ∧
    exec (.mfc c 0x26) s = .next (s.joined c (s.after c 2 0 { k with shadowStatus := k.shadowStatus &&& 0x7FFFFFFF } [k.shadowPrg] .next)) ∧
    exec (.shadowPrgRead c) s =
      .next (s.joined c (s.after c 2 0 { k with shadowStatus := k.shadowStatus &&& 0x7FFFFFFF } [k.shadowPrg] .next))) ∧
  (∀ (s : State) (c : Fin 16), s.ready c 2 → (s.coreNow c).user = false → s.stackReady c (s.core c).dataId 1 0 →
    let k := s.coreNow c
    let i := k.dataId
    let v := s.operand c 0
    let w : Word := v.setWidth 32
    let b := k.setStack i (k.stack i).pop
    let set := fun (n : Byte) (k' : Core) => exec (.mtc c n) s = .next (s.joined c (s.setCore c (k'.complete 2 .next)))
    set 0x00 { b with psw := w &&& 0x01110377, pswE := (b.pswE &&& 0xFFFFFF88) ||| (w &&& 0x77), pend := b.pend ||| 8 } ∧
    set 0x01 { b with prg := v } ∧
    set 0x02 { b with lc := w, pend := b.pend ||| 1 } ∧ set 0x03 { b with ls := w, pend := b.pend ||| 2 } ∧
    set 0x04 { b with le := w, pend := b.pend ||| 4 } ∧
    set 0x08 { b with du := { b.du with ptr := w &&& 0xFFFFFFF8 } } ∧
    set 0x09 { b with ds := { b.ds with ptr := w &&& 0xFFFFFFF8 } } ∧
    set 0x0A { b with ru := { b.ru with ptr := w &&& 0xFFFFFFF8 } } ∧
    set 0x0B { b with rs := { b.rs with ptr := w &&& 0xFFFFFFF8 } } ∧
    set 0x10 { b with du := { b.du with lo := w &&& 0xFFFFFFF8 } } ∧ set 0x11 { b with du := { b.du with hi := w &&& 0xFFFFFFF8 } } ∧
    set 0x12 { b with ds := { b.ds with lo := w &&& 0xFFFFFFF8 } } ∧ set 0x13 { b with ds := { b.ds with hi := w &&& 0xFFFFFFF8 } } ∧
    set 0x14 { b with ru := { b.ru with lo := w &&& 0xFFFFFFF8 } } ∧ set 0x15 { b with ru := { b.ru with hi := w &&& 0xFFFFFFF8 } } ∧
    set 0x16 { b with rs := { b.rs with lo := w &&& 0xFFFFFFF8 } } ∧ set 0x17 { b with rs := { b.rs with hi := w &&& 0xFFFFFFF8 } } ∧
    (∀ j < 12, set (0x30 + BitVec.ofNat 8 j) { b with en := mapSet (fun _ => 0) b.en j w }) ∧
    (∀ j < 16, set (0x40 + BitVec.ofNat 8 (2 * j)) { b with seg := mapSet segReset b.seg (2 * j) (w &&& 0xFFFFFF00),
                                                            segPend := b.segPend ||| BitVec.ofNat 16 (2 ^ j) } ∧
      set (0x41 + BitVec.ofNat 8 (2 * j)) { b with seg := mapSet segReset b.seg (2 * j + 1) (w &&& 0xFFFF0F7D),
                                                   segPend := b.segPend ||| BitVec.ofNat 16 (2 ^ j) }) ∧
    set 0x63 { b with lockFill := w.getLsbD 0, lockFull := b.lockFull && !w.getLsbD 2,
                      tlb := if w.getLsbD 1 then b.tlb.filter (fun t => !t.locked) else b.tlb, fetched := s.ahead c 2 } ∧
    set 0x20 { b with evbase := w &&& 0xFFFFFC00 } ∧ set 0x21 { b with ivbase := w &&& 0xFFFFC000 } ∧
    (∀ n ∈ ([0x18, 0x19, 0x22, 0x23, 0x24, 0x25, 0x26, 0x2A, 0x2B, 0x2C, 0x61, 0x62, 0x80] : List Byte), set n b) ∧
    (w.toNat % 32 ≤ 16 → set 0x28 { b with rlevel := w.setWidth 5 }) ∧
    (16 < w.toNat % 32 → set 0x28 { b with icFlags := b.icFlags ||| 1 }) ∧
    set 0x29 { b with globalHold := w.getLsbD 0 } ∧ set 0x2D { b with icFlags := b.icFlags &&& ~~~(w &&& 5) } ∧
    set 0x60 { b with pkr := w } ∧
    (w.getLsbD 30 = false → set 0x27 b) ∧
    (w.getLsbD 30 = true → set 0x27 { b with shadowStatus := b.shadowStatus &&& 0xBFFFFFFF } ∧
      exec (.emergClear c) s =
        .next (s.joined c (s.setCore c (Core.complete { b with shadowStatus := b.shadowStatus &&& 0xBFFFFFFF } 2 .next)))) ∧
    (w.getLsbD 1 = true → exec (.unlockAll c) s = .next (s.joined c (s.setCore c (Core.complete { b with
      lockFill := w.getLsbD 0, lockFull := b.lockFull && !w.getLsbD 2, tlb := b.tlb.filter (fun t => !t.locked),
      fetched := s.ahead c 2 } 2 .next)))))

/-- In user mode the supervisor instructions raise a privilege violation, as do MFC and MTC of every register that its table does not
open to user mode, an MTC of the PSW that would change MODE, IE, DZE or OVE, and an SFLUSH of a supervisor stack; an unassigned
register number raises an illegal-instruction exception, and so do a TRAP and an SFLUSH with a reserved number (R268, R281, R282, R298,
R299, R328, R356, R377). -/
def Obligations.PrivilegeAndIllegalInstructions : Prop :=
  ∀ (s : State) (c : Fin 16) (n : Byte),
    let raised := fun (no : Nat) => (Host.Outcome.next (s.joined c ((takeException c (Exc.plain no 0) (s.begun c)).getD s)) :
      Host.Outcome State Fault Refusal)
    let x := n.toNat
    let unassigned := (0x05 ≤ x ∧ x ≤ 0x07) ∨ (0x0C ≤ x ∧ x ≤ 0x0F) ∨ (0x1A ≤ x ∧ x ≤ 0x1F) ∨ x = 0x2E ∨ x = 0x2F ∨
      (0x3C ≤ x ∧ x ≤ 0x3F) ∨ (0x64 ≤ x ∧ x ≤ 0x7F) ∨ 0x81 ≤ x
    (s.ready c 1 → (s.coreNow c).user = true →
      ∀ i ∈ ([.wait c, .reti c, .icinv c, .icinva c, .tlbinv c, .tlbinva c] : List Instr), exec i s = raised 2) ∧
    (s.ready c 2 →
      (unassigned → exec (.mfc c n) s = raised 1 ∧ exec (.mtc c n) s = raised 1) ∧
      (16 ≤ x → exec (.trap c n) s = raised 1) ∧ (4 ≤ x → exec (.sflush c n) s = raised 1)) ∧
    (s.ready c 2 → (s.coreNow c).user = true →
      (¬ unassigned → n ∉ ([0x00, 0x02, 0x03, 0x04, 0x08, 0x0A, 0x18, 0x19, 0x60] : List Byte) → exec (.mfc c n) s = raised 2) ∧
      (¬ unassigned → n ∉ ([0x00, 0x02, 0x03, 0x04, 0x08, 0x0A] : List Byte) → exec (.mtc c n) s = raised 2) ∧
      (s.stackReady c (s.core c).dataId 1 0 → ((s.operand c 0).setWidth 32 ^^^ (s.core c).psw) &&& (0x01010300 : Word) ≠ 0 →
        exec (.mtc c 0) s = raised 2) ∧
      exec (.sflush c 1) s = raised 2 ∧ exec (.sflush c 3) s = raised 2 ∧
      exec (.shadowPrgRead c) s = raised 2 ∧ exec (.emergClear c) s = raised 2 ∧ exec (.unlockAll c) s = raised 2)

/-- The controller claims, among the routed, enabled and active sources whose priority is not below the running level, the one of
highest priority, and of those the one of lowest number, and prepares the vector IVBASE + 32 × source (R320). Entry of a TRAP, of an
undefined opcode and of an interrupt, when the frame is pushed (R286, R298, R308, R310): the core goes on in supervisor mode at the
vector, with IE, LA and PRG 0 and RSP_S 24 lower; an exception writes CAUSE and FAULT_ADDR and leaves RLEVEL, an interrupt sets
RLEVEL to the source's priority plus 1 and writes the claim and entry-level registers. The frame holds the saved PC, with the entry
code, the committed PSW with RLEVEL, and the saved PRG. -/
def Obligations.InterruptsAndEntries : Prop :=
  (∀ (s : State) (c : Fin 16) (j : Nat), s.coreOn c = true → (s.core c).effective Psw.ie = true →
    (s.core c).globalHold = false → (s.core c).claim = none → j < 384 → s.pendingAt c j = true →
    (s.core c).rlevel.toNat ≤ s.prio c j →
    (∀ i < 384, s.pendingAt c i = true → s.prio c i < s.prio c j ∨ (s.prio c i = s.prio c j ∧ j ≤ i)) →
    exec (.interruptClaim c) s = .next (s.setCore c { s.core c with
      claim := some { source := j, vector := (s.core c).ivbaseE + BitVec.ofNat 32 (32 * j) } })) ∧
  (∀ (s u : State) (c : Fin 16),
    let k := s.coreNow c
    let p := k.rs.ptr
    let frame := fun (pc : Word) (code : Nat) (prg : Cell) => ([BitVec.ofNat 64 (pc.toNat + code * 2 ^ 32),
      BitVec.ofNat 64 (k.psw.toNat + k.rlevel.toNat * 2 ^ 32), BitVec.ofNat 64 prg.toNat] : List (BitVec 64))
    let entered := fun (t : State) (level : BitVec 5) (pc : Word) =>
      let h := t.core c
      let b := u.core c
      t = u.setCore c h ∧ h.pc = pc ∧ h.psw = (b.psw ||| 0x01000000) &&& 0xFFEEFFFF ∧ h.pswE = h.psw ∧ h.rlevel = level ∧
        h.rs.ptr = p - 24 ∧ h.prg = 0 ∧ h.prgLive = false ∧ h.job = none ∧ h.waiting = false ∧ h.evbaseE = b.evbase ∧
        h.lc = b.lc ∧ h.lcE = b.lc ∧ h.ds = b.ds ∧ h.du = b.du ∧ h.ru = b.ru ∧ h.fr = b.fr
    k.rs.lo.toNat + 24 ≤ p.toNat → p.toNat ≤ k.rs.hi.toNat →
    (∀ n : Byte, s.ready c 2 → n.toNat < 16 →
      pushFrame c p.toNat (frame (k.pc + 2) (16 + n.toNat) 0) (s.begun c) = .ok () u →
      ∃ t, exec (.trap c n) s = .next (s.joined c t) ∧
        entered t (u.core c).rlevel ((u.core c).evbase + BitVec.ofNat 32 (32 * (16 + n.toNat))) ∧
        (t.core c).cause = BitVec.ofNat 32 (16 + n.toNat) ∧ (t.core c).faultAddr = 0) ∧
    (∀ op : Byte, s.ready c 1 → opcodeUndefined op = true →
      pushFrame c p.toNat (frame k.pc 1 0) (s.begun c) = .ok () u →
      ∃ t, exec (.undefinedOpcode c op) s = .next (s.joined c t) ∧ entered t (u.core c).rlevel ((u.core c).evbase + 32) ∧
        (t.core c).cause = 1 ∧ (t.core c).faultAddr = 0) ∧
    (∀ q : Claim, s.coreOn c = true → s.agrees c → (s.core c).claim = some q → q.source < 384 → (s.core c).shadow = none →
      pushFrame c p.toNat (frame k.pc (32 + q.source) (s.core c).progress) (s.setCore c { s.core c with
        shadow := none, icClaim := BitVec.ofNat 32 (32 + q.source) }) = .ok () u →
      (u.core c).halted = false →
      ∃ t, exec (.interruptEntry c) s = .next (s.joined c t) ∧ entered t (BitVec.ofNat 5 (s.prio c q.source + 1)) q.vector ∧
        (t.core c).claim = none ∧ (t.core c).icClaim = (u.core c).icClaim ∧
        (t.core c).cause = (u.core c).cause ∧ (t.core c).faultAddr = (u.core c).faultAddr))

/-- With the segments at their reset values and RSP_S in the D-TCM, a TRAP writes its three frame cells at RSP_S − 8, RSP_S − 16 and
RSP_S − 24, and no other byte of memory (R308). RETI pops the frame, PRG cell first, and in the same step restores the PC, the PSW,
committed and in effect, the running level, of which a value above 16 counts as 16, and PRG (R311). -/
def Obligations.FramesAreSavedAndRestored : Prop :=
  (∀ (s : State) (c : Fin 16) (n : Byte), s.ready c 2 → n.toNat < 16 →
    let k := s.coreNow c
    let p := k.rs.ptr.toNat
    k.segE = [] → k.pkr = 0 → k.emerg = false → k.stores = [] →
    0x20018 ≤ p → p ≤ 0x40000 → k.rs.lo.toNat + 24 ≤ p → p ≤ k.rs.hi.toNat →
    ∃ t, exec (.trap c n) s = .next (s.joined c t) ∧
      (t.core c).pc = k.evbase + BitVec.ofNat 32 (32 * (16 + n.toNat)) ∧ (t.core c).rs.ptr.toNat = p - 24 ∧
      t.word64 c (p - 8) = (k.pc + 2).toNat + (16 + n.toNat) * 2 ^ 32 ∧
      t.word64 c (p - 16) = k.psw.toNat + k.rlevel.toNat * 2 ^ 32 ∧ t.word64 c (p - 24) = 0 ∧
      ∀ x, (x < s.coreAddr c (p - 24) ∨ s.coreAddr c (p - 24) + 24 ≤ x) → t.byteAt x = s.byteAt x) ∧
  (∀ (s : State) (c : Fin 16) (prg psw pc : BitVec 64), s.ready c 1 → (s.coreNow c).user = false →
    let k := s.coreNow c
    let p := k.rs.ptr.toNat
    p + 24 ≤ k.rs.hi.toNat →
    peekCell c .rs false p (s.begun c) = .ok prg (s.begun c) →
    peekCell c .rs false (p + 8) (s.begun c) = .ok psw (s.begun c) →
    peekCell c .rs false (p + 16) (s.begun c) = .ok pc (s.begun c) →
    ∃ t, exec (.reti c) s = .next (s.joined c t) ∧
      let h := t.core c
      t = s.setCore c h ∧ h.pc = pc.setWidth 32 ∧ h.psw = psw.setWidth 32 &&& 0x01110377 ∧ h.pswE = h.psw ∧
        h.rlevel.toNat = min (psw.toNat / 2 ^ 32 % 32) 16 ∧ h.prg = prg.setWidth 40 ∧ h.prgLive = true ∧
        h.rs.ptr = k.rs.ptr + 24 ∧ h.lcE = k.lc ∧ h.lsE = k.ls ∧ h.leE = k.le ∧ h.segE = k.seg ∧ h.ds = k.ds ∧
        h.du = k.du ∧ h.ru = k.ru ∧ h.fr = k.fr ∧ h.cause = k.cause ∧ h.evbase = k.evbase)

/-- A core that does not execute, because it is not started, is halted, waits, or its device is not running, is left exactly as it
is by every instruction of the opcode map: nothing of the state changes (R53, R91, R299, R318). -/
def Obligations.StoppedCoresExecuteNothing : Prop :=
  ∀ (s : State) (c : Fin 16) (i : Instr), executedBy i = some c → s.executes c = false → exec i s = .next s

/-! ### Pairs of outputs, synchronised groups, and the arbitration of a locked pair -/

/-- Paired outputs, and groups that follow a master or the heats (R231 to R234, R237, R238). In a pair the first output takes the
interval of its duty, and the second begins where that ends; each rises its dead time after its programmed instant, and not at all where
its interval is no longer than that; an output whose bit in OUT_EN is 0 is high impedance from the boundary on. A FOLLOW group that waits
gets its first start PHASE after its master's, and one that runs ends its period PHASE after its master's next start. A heat start fixes a
restart instant PHASE after it: a HEAT group that runs has its period cut there and sets RESYNC where that instant lies before its end,
keeps it for a later period otherwise, and starts there when it waits. A period in which an earlier restart instant lies is cut there from
its start. What R234 leaves open of a period that it lengthens, and of a master that starts again, is log entry 98. -/
def Obligations.PairsAndSynchronisation : Prop :=
  (∀ (s : State) (g : Fin 48) (t0 : Nat), s.runnerOn = true → s.pgEn g = true → s.pgPending g = false → s.pgRunning g = true →
    (s.pg g).next = some t0 → (s.pg g).holdNext = false → s.pgSync g = 0 →
    (s.pg g).phase % s.pgPeriod g = s.pgPhase g % s.pgPeriod g → (s.pg g).restartAt = [] → 128 ≤ s.pgPeriod g →
    let len := s.pgPeriod g
    ∃ t, exec (.periodBoundary g) s = .next t ∧
      (∀ j : Fin 4, j.val % 2 = 0 → s.pgPaired g j = true → s.pgOutEn g j = true → s.pgOutEn g (j + 1) = true →
        let x := s.out (4 * g + j)
        let y := s.out (4 * g + j + 1)
        let duty := (s.reg (A.PG_ACTIVE g j)).toInt
        let exact := if s.bit (A.PG_CFG g) F.PG_CFG_DFMT then (2 * (duty * len) + 2 ^ 31) / 2 ^ 32 else duty
        let d := (max 0 (min exact len)).toNat
        let start := if j.val < 2 then t0 else t0 + len * s.fld (A.PG_CFG g) F.PG_CFG_CD_OFS / 4
        let rise := match s.fld (A.PG_CFG g) ⟨2 * j + 1, 2 * j⟩ with
          | 0 => start
          | 1 => start + (len - d) / 2
          | _ => start + (len - d)
        x.mode = .driven → y.mode = .driven → x.older = [] → x.prev = none → x.cur = none → y.older = [] → y.prev = none → y.cur = none →
        0 < d → (t.out (4 * g + j)).cur = some { rise := rise, fall := some (rise + d), commanded := false, counted := false } ∧
          (t.out (4 * g + j + 1)).cur = some { rise := rise + d, fall := none, commanded := false, counted := false }) ∧
      (∀ j : Fin 4, s.released = true → s.pgOutEn g j = false → (s.out (4 * g + j)).mode ≠ .held →
        s.latched (s.tripGroupOf (4 * g + j)) = false → (t.out (4 * g + j)).mode = .hiZ ∧ (t.out (4 * g + j)).pin = .z) ∧
      (∀ f : Fin 48, g.val < f.val → s.fld (A.PG_CFG f) F.PG_CFG_SYNC = 1 → s.fld (A.PG_CFG f) F.PG_CFG_SYNC_PG = g.val →
        let p := s.pg f
        (s.pgRunning f = false → s.pgEn f = true → s.pgPending f = false → p.holdStop = false → p.next = none → p.armed ≤ t0 / 64 →
          t.pg f = { p with next := some (t0 + s.pgPhase f % len), phase := s.pgPhase f % len }) ∧
        (s.pgRunning f = true → p.orphan = false → p.wrapped = false → p.start < t0 + p.phase →
          t.pg f = { p with next := some (t0 + p.phase), len := t0 + p.phase - p.start }))) ∧
  (∀ (s : State) (o : Fin 192) (rise : Nat) (fall : Option Nat),
    let x := s.out o
    let g := o.val / 4
    let n := fieldOf (s.pg g).dead (if o.val % 2 = 0 then F.PG_DEAD_DT_A else F.PG_DEAD_DT_B)
    let dead := if s.bit (A.PG_CFG g) F.PG_CFG_DT_UNIT then 64 * n else n
    let up := rise + dead
    s.pgPaired g (o % 4) = true → s.pulsesOn g (o % 4) = true → x.older = [] → x.prev = none →
    x.cur = some { rise := rise, fall := fall, commanded := false, counted := false } →
    (∀ f, fall = some f → f ≤ up → exec (.pulseCommanded o) s = .next s) ∧
    ((∀ f, fall = some f → up < f) → s.beforeBoundary g up = true → x.mode = .driven → x.pin ≠ .high →
      x.commanded = x.emitted + x.suppressed → x.commanded ≠ -1 → 0 < s.blankLen g (o % 4) →
      exec (.pulseCommanded o) s = .next ((s.passTo (up / 64)).setOut o { x with
        pin := .high, blankEnd := max x.blankEnd (up / 64 + s.blankLen g (o % 4)), commanded := x.commanded + 1,
        cur := some { rise := rise, fall := fall, commanded := true, counted := false } }).reblank)) ∧
  (∀ (s : State) (g : Fin 48), s.runnerOn = true → s.supply.entering = none → s.fld A.RUN_HEAT_CFG F.RUN_HEAT_CFG_SRC = 1 →
    s.fld (A.PG_CFG g) F.PG_CFG_SYNC = 2 → s.pgPending g = false → 128 ≤ s.pgPeriod g →
    let p := s.pg g
    let heat := max s.rc (s.heatDue.getD 0)
    let phase := s.pgPhase g % s.pgPeriod g
    let r := 64 * (heat + 1) + phase
    ∃ t, exec .heatStart s = .next t ∧
      (s.pgRunning g = true → (∀ x, x ∈ (t.pg g).restartAt ↔ x = r ∨ x ∈ p.restartAt) ∧ (t.pg g).phase = phase ∧
        (∀ e, p.next = some e → r < e → t.bit (A.PG_STATUS g) F.PG_STATUS_RESYNC = true ∧ (t.pg g).next = some r ∧
          (t.pg g).len = r - p.start ∧ (t.pg g).start = p.start) ∧
        (∀ e, p.next = some e → e ≤ r → t.pg g = { p with restartAt := (t.pg g).restartAt, phase := phase } ∧
          t.bit (A.PG_STATUS g) F.PG_STATUS_RESYNC = s.bit (A.PG_STATUS g) F.PG_STATUS_RESYNC)) ∧
      (s.pgRunning g = false → s.pgEn g = true → p.holdStop = false → p.armed ≤ heat → p.next = none →
        t.pg g = { p with next := some r, phase := phase })) ∧
  (∀ (s : State) (g : Fin 48) (t0 : Nat), s.runnerOn = true → s.pgEn g = true → s.pgPending g = false → s.pgSync g = 2 →
    (s.pg g).next = some t0 → (s.pg g).holdNext = false → 128 ≤ s.pgPeriod g →
    let len := s.pgPeriod g
    let left := (s.pg g).restartAt.filter (fun r => decide (t0 < r))
    ∃ t, exec (.periodBoundary g) s = .next t ∧ (t.pg g).start = t0 ∧ t.pgRunning g = true ∧ (t.pg g).restartAt = left ∧
      ((∀ r rest, left = r :: rest → t0 + len ≤ r) → (t.pg g).next = some (t0 + len) ∧ (t.pg g).len = len) ∧
      (∀ r rest, left = r :: rest → r < t0 + len → (t.pg g).next = some r ∧ (t.pg g).len = r - t0 ∧
        t.bit (A.PG_STATUS g) F.PG_STATUS_RESYNC = true ∧
        ∀ j : Fin 4, s.pgPaired g j = false → ∀ i, (t.out (4 * g + j)).cur = some i → i.rise < r ∧ ∀ f, i.fall = some f → f ≤ r))

/-- A mismatch and its arbitration (R358, R363, R364, R368 to R372, R460). Where the comparison of the instruction two before the present
one finds one compared bit inverted, the pair stops: its state is CHECK with outcome PENDING, DETECTED is set, MISMATCH names the group
and the bit, MISMATCH_PC the instruction and TIME the rc, the claim is withdrawn, the checker stands before the instruction that it has
not executed, and arbitration is asked for. A group that reports no code word holds the pair instead, with no arbitration; a pair whose
cores agree goes on. Arbitration tests the pair's own region before any that is requested, and the two cores' after it has passed; the
outcome then is the table's, DECIDED is set, and the one core that passed runs on alone from LIMP_PC where LIMP_EN lets it, or the pair is
held. Which bit a real difference between the cores shows in, and what each group compares of the model's core, is log entry 85. -/
def Obligations.MismatchesAreArbitrated : Prop :=
  (∀ (s : State) (c : Fin 16) (a b : DelayEntry), c.val % 2 = 0 → s.ready c 1 →
    let p := c.val / 2
    s.pairState p = 1 → s.delayed p = [a, b] → a.primary = a.checker → s.bit (A.LOCK_MISMATCH p) F.LOCK_MISMATCH_VALID = false →
    let after := s.after c 1 0 (s.coreNow c) [] .next
    let reports := fun (t : State) (state cause group bit : Nat) => t.pairState p = state ∧ t.delayed p = [] ∧
      t.fld (A.LOCK_STATUS p) F.LOCK_STATUS_CAUSE = cause ∧ t.bit (A.LOCK_FLAGS p) F.LOCK_FLAGS_DETECTED = true ∧
      t.bit (A.LOCK_MISMATCH p) F.LOCK_MISMATCH_VALID = true ∧ t.fld (A.LOCK_MISMATCH p) F.LOCK_MISMATCH_GROUP = group ∧
      t.fld (A.LOCK_MISMATCH p) F.LOCK_MISMATCH_BIT = bit ∧ t.reg (A.LOCK_MISMATCH_PC p) = a.pc ∧
      t.reg (A.LOCK_TIME p) = s.timeBase.setWidth 32 ∧ t.pairFault.getLsbD p = true ∧
      t.core c = { after.core c with claim := none } ∧ t.core (c + 1) = b.before.core ∧
      ∀ d, d ≠ c.val → d ≠ c.val + 1 → t.core d = s.core d
    ∃ t, exec (.nop c) s = .next t ∧
      (∀ i < 314, a.fault = ⟨BitVec.ofNat 314 (2 ^ i), ⟨0, []⟩⟩ →
        let first := [0, 34, 78, 150, 198, 266].filter (fun x => decide (x ≤ i))
        reports t 2 1 (first.length - 1) (i - first.getLastD 0) ∧ t.fld (A.LOCK_STATUS p) F.LOCK_STATUS_OUTCOME = 1 ∧
        t.assay = { s.assay with arbitrations := s.assay.arbitrations ++ [⟨p, [24 + p], [], []⟩] }) ∧
      (∀ (k : Fin 6) (v : Bool), a.fault = ⟨0, ⟨0, [(k, v)]⟩⟩ → reports t 4 2 k 0 ∧ t.assay = s.assay) ∧
      (a.fault = ⟨0, ⟨0, []⟩⟩ → t.pairState p = 1 ∧ (t.delayed p).length = 2 ∧ t.regs = s.regs ∧ t.assay = s.assay)) ∧
  (∀ (s : State) (p : Fin 8) (rest : List Arbitration), s.runnerOn = true → s.assay.lane0 = none → s.assay.lane1 = none →
    s.admitted 1 = true → s.assay.arbitrations = ⟨p, [24 + p.val], [], []⟩ :: rest → (∀ x ∈ rest, x.pair ≠ p ∧ 24 + p.val ∉ x.queue) →
    ∃ t, exec .assayRegionStart s = .next t ∧ t.assay.lane0 = some (24 + p.val) ∧ t.assay.lane1 = none ∧
      t.assay.arbitrations = ⟨p, [], [24 + p.val], []⟩ :: rest) ∧
  (∀ (s : State) (n : Fin 2) (p : Fin 8) (r : Nat) (result : AssayResult) (waits running failed : List Nat),
    (if n = 0 then s.assay.lane0 else s.assay.lane1) = some r → s.assay.boot = none → s.engineBusy = false → result ≠ .restoreFail →
    s.assay.arbitrations = [⟨p, waits, running, failed⟩] → r ∈ running → s.pairState p = 2 →
    let decided := fun (t : State) (outcome state : Nat) => t.fld (A.LOCK_STATUS p) F.LOCK_STATUS_OUTCOME = outcome ∧
      t.pairState p = state ∧ t.bit (A.LOCK_FLAGS p) F.LOCK_FLAGS_DECIDED = true ∧ t.assay.arbitrations = []
    let bad := fun (x : Nat) => decide (x ∈ failed) || (decide (x = r) && decide (result = .fail))
    let outcome := if bad (2 * p) then (if bad (2 * p + 1) then 6 else 3) else if bad (2 * p + 1) then 2 else 4
    let limps := (outcome = 2 ∨ outcome = 3) ∧ s.bit (A.LOCK_CTRL p) F.LOCK_CTRL_LIMP_EN = true
    ∃ t, exec (.assayRegionEnd n result) s = .next t ∧ (if n = 0 then t.assay.lane0 else t.assay.lane1) = none ∧
      (r = 24 + p.val → (result = .fail → decided t 5 4 ∧ t.cores = s.cores) ∧
        (result = .pass → t.assay.arbitrations = [⟨p, [2 * p, 2 * p + 1], [], failed⟩] ∧ t.pairState p = 2)) ∧
      (r = 2 * p.val ∨ r = 2 * p.val + 1 →
        (waits ≠ [] ∨ running.erase r ≠ [] → t.pairState p = 2 ∧
          t.assay.arbitrations = [⟨p, waits, running.erase r, if result = .fail then r :: failed else failed⟩]) ∧
        (waits = [] → running.erase r = [] →
          (¬ limps → decided t outcome 4 ∧ t.cores = s.cores) ∧
          (limps → (s.core (2 * p)).stores = [] → decided t outcome 3 ∧ t.mem = s.mem ∧
            t.core (2 * p) = { Core.reset with started := true, pc := s.reg (A.LOCK_LIMP_PC p) } ∧ t.core (2 * p + 1) = Core.reset ∧
            ∀ d, d ≠ 2 * p.val → d ≠ 2 * p.val + 1 → t.core d = s.core d))))
end

