-- ==== Sys2Proof/Laws/Map.lean ====
section
/-! SUPPORT. What the operations on sparse maps do: reading after a write, and the canonical form they keep. -/

namespace Sys2Proof.Machine

variable {α : Type}

@[simp] theorem mapGet_nil (d : Nat → α) (k : Nat) : mapGet d [] k = d k := rfl

theorem mapGet_mapInsert_self (d : Nat → α) (m : SMap α) (k : Nat) (v : α) : mapGet d (mapInsert m k v) k = v := by
  induction m with
  | nil => simp [mapInsert, mapGet]
  | cons p t ih =>
    unfold mapInsert
    split
    · simp [mapGet]
    · split
      · simp [mapGet]
      · simp [mapGet, *]

theorem mapGet_mapInsert_of_ne (d : Nat → α) (m : SMap α) {k j : Nat} (v : α) (h : j ≠ k) :
    mapGet d (mapInsert m k v) j = mapGet d m j := by
  induction m with
  | nil => simp [mapInsert, mapGet, h.symm]
  | cons p t ih =>
    unfold mapInsert
    split
    · rename_i e
      simp [mapGet, e, h.symm]
    · split
      · simp [mapGet, h.symm]
      · simp [mapGet, ih]

theorem mapGet_mapErase_self (d : Nat → α) (m : SMap α) (k : Nat) : mapGet d (mapErase m k) k = d k := by
  induction m with
  | nil => rfl
  | cons p t ih =>
    unfold mapErase
    split
    · exact ih
    · rename_i e
      simp [mapGet, e, ih]

theorem mapGet_mapErase_of_ne (d : Nat → α) (m : SMap α) {k j : Nat} (h : j ≠ k) :
    mapGet d (mapErase m k) j = mapGet d m j := by
  induction m with
  | nil => rfl
  | cons p t ih =>
    unfold mapErase
    split
    · rename_i e
      simp [mapGet, e, h.symm, ih]
    · simp [mapGet, ih]

/-- Reading a selection by number: a number that was not selected reads as an unlisted one. -/
theorem mapGet_filter (d : Nat → α) (q : Nat → Bool) (m : SMap α) (k : Nat) :
    mapGet d (m.filter (fun p => q p.1)) k = if q k then mapGet d m k else d k := by
  induction m with
  | nil => simp [mapGet]
  | cons p t ih =>
    by_cases hp : q p.1 = true
    · rw [List.filter_cons_of_pos (by simpa using hp)]
      unfold mapGet
      by_cases e : p.1 = k
      · subst e
        simp [hp]
      · simp [e, ih]
    · rw [List.filter_cons_of_neg (by simpa using hp), ih]
      by_cases e : p.1 = k
      · subst e
        simp [hp]
      · simp [mapGet, e]

variable [DecidableEq α]

/-- Reading a sparse map after a write gives the value written. -/
@[simp] theorem mapGet_mapSet_self (d : Nat → α) (m : SMap α) (k : Nat) (v : α) : mapGet d (mapSet d m k v) k = v := by
  unfold mapSet
  split
  · rename_i e
    rw [mapGet_mapErase_self, e]
  · exact mapGet_mapInsert_self d m k v

/-- A write of a sparse map leaves every other number as it was. -/
theorem mapGet_mapSet_of_ne (d : Nat → α) (m : SMap α) {k j : Nat} (v : α) (h : j ≠ k) :
    mapGet d (mapSet d m k v) j = mapGet d m j := by
  unfold mapSet
  split
  · exact mapGet_mapErase_of_ne d m h
  · exact mapGet_mapInsert_of_ne d m v h

theorem mapWfFrom_mono (d : Nat → α) {a b : Nat} (h : a ≤ b) (m : SMap α) (w : mapWfFrom d b m = true) :
    mapWfFrom d a m = true := by
  cases m with
  | nil => rfl
  | cons p t =>
    simp only [mapWfFrom, Bool.and_eq_true, decide_eq_true_eq] at w ⊢
    exact ⟨⟨h.trans w.1.1, w.1.2⟩, w.2⟩

/-- Any selection of entries of a map in canonical form is in canonical form. -/
theorem mapWfFrom_filter (d : Nat → α) (q : Nat × α → Bool) (m : SMap α) (b : Nat) (w : mapWfFrom d b m = true) :
    mapWfFrom d b (m.filter q) = true := by
  induction m generalizing b with
  | nil => rfl
  | cons p t ih =>
    simp only [mapWfFrom, Bool.and_eq_true, decide_eq_true_eq] at w
    unfold List.filter
    split
    · simp only [mapWfFrom, Bool.and_eq_true, decide_eq_true_eq]
      exact ⟨w.1, ih _ w.2⟩
    · exact mapWfFrom_mono d (w.1.1.trans (Nat.le_succ _)) _ (ih _ w.2)

theorem mapWfFrom_mapErase (d : Nat → α) (m : SMap α) (k b : Nat) (w : mapWfFrom d b m = true) :
    mapWfFrom d b (mapErase m k) = true := by
  induction m generalizing b with
  | nil => rfl
  | cons p t ih =>
    simp only [mapWfFrom, Bool.and_eq_true, decide_eq_true_eq] at w
    unfold mapErase
    split
    · exact mapWfFrom_mono d (w.1.1.trans (Nat.le_succ _)) _ (ih _ w.2)
    · simp only [mapWfFrom, Bool.and_eq_true, decide_eq_true_eq]
      exact ⟨w.1, ih _ w.2⟩

theorem mapWfFrom_mapInsert (d : Nat → α) (m : SMap α) (k b : Nat) (v : α) (hb : b ≤ k) (hv : v ≠ d k)
    (w : mapWfFrom d b m = true) : mapWfFrom d b (mapInsert m k v) = true := by
  induction m generalizing b with
  | nil => simp [mapInsert, mapWfFrom, hb, hv]
  | cons p t ih =>
    simp only [mapWfFrom, Bool.and_eq_true, decide_eq_true_eq] at w
    unfold mapInsert
    split
    · rename_i e
      simp only [mapWfFrom, Bool.and_eq_true, decide_eq_true_eq]
      exact ⟨⟨hb, hv⟩, e ▸ w.2⟩
    · split
      · simp only [mapWfFrom, Bool.and_eq_true, decide_eq_true_eq]
        exact ⟨⟨hb, hv⟩, ⟨⟨by omega, w.1.2⟩, w.2⟩⟩
      · simp only [mapWfFrom, Bool.and_eq_true, decide_eq_true_eq]
        exact ⟨w.1, ih _ (by omega) w.2⟩

/-- A write keeps the canonical form. -/
theorem mapWf_mapSet (d : Nat → α) (m : SMap α) (k : Nat) (v : α) (w : mapWf d m = true) :
    mapWf d (mapSet d m k v) = true := by
  unfold mapSet mapWf at *
  split
  · exact mapWfFrom_mapErase d m k 0 w
  · rename_i e
    exact mapWfFrom_mapInsert d m k 0 v (Nat.zero_le _) e w

theorem mapWf_filter (d : Nat → α) (q : Nat × α → Bool) (m : SMap α) (w : mapWf d m = true) :
    mapWf d (m.filter q) = true := mapWfFrom_filter d q m 0 w

/-- Two parts of a map, one below `c` and one from `c` on, joined. -/
theorem mapWfFrom_append {α : Type} [DecidableEq α] (d : Nat → α) (m n : SMap α) (b c : Nat) (h : b ≤ c)
    (w : mapWfFrom d b m = true) (below : ∀ p ∈ m, p.1 < c) (v : mapWfFrom d c n = true) :
    mapWfFrom d b (m ++ n) = true := by
  induction m generalizing b with
  | nil => exact mapWfFrom_mono d h _ v
  | cons p t ih =>
    simp only [mapWfFrom, List.cons_append, Bool.and_eq_true, decide_eq_true_eq] at w ⊢
    exact ⟨w.1, ih _ (below p (List.mem_cons_self ..)) w.2 (fun q hq => below q (List.mem_cons_of_mem _ hq))⟩

theorem mapWfFrom_filter_ge {α : Type} [DecidableEq α] (d : Nat → α) (m : SMap α) (b c : Nat)
    (w : mapWfFrom d b m = true) : mapWfFrom d c (m.filter (fun p => decide (c ≤ p.1))) = true := by
  induction m generalizing b with
  | nil => rfl
  | cons p t ih =>
    simp only [mapWfFrom, Bool.and_eq_true, decide_eq_true_eq] at w
    by_cases hc : c ≤ p.1
    · rw [List.filter_cons_of_pos (by simpa using hc)]
      simp only [mapWfFrom, Bool.and_eq_true, decide_eq_true_eq]
      exact ⟨⟨hc, w.1.2⟩, mapWfFrom_filter d _ _ _ w.2⟩
    · rw [List.filter_cons_of_neg (by simpa using hc)]
      exact ih _ w.2

theorem mapWfFrom_shift {α : Type} [DecidableEq α] (v : α) (m : SMap α) (src dst b : Nat) (h : src ≤ b)
    (w : mapWfFrom (fun _ => v) b m = true) :
    mapWfFrom (fun _ => v) (b - src + dst) (m.map (fun p => (p.1 - src + dst, p.2))) = true := by
  induction m generalizing b with
  | nil => rfl
  | cons p t ih =>
    simp only [mapWfFrom, List.map_cons, Bool.and_eq_true, decide_eq_true_eq] at w ⊢
    have h1 := ih _ (by omega) w.2
    rw [show p.1 + 1 - src + dst = p.1 - src + dst + 1 by omega] at h1
    exact ⟨⟨by omega, w.1.2⟩, h1⟩

end Sys2Proof.Machine
end

