-- ==== Sys2Proof/Laws/Good.lean ====
section
/-! SUPPORT. What every operation keeps: the canonical form of the memories, the reserved bits of the registers, and the
queue of commands. This file gives the three as one statement and proves it of the operations that write them. -/

namespace Sys2Proof.Machine

/-- What `Good` says, by the fields that it looks at. -/
def GoodParts (p : List Instr) (regs : SMap Word) (mem journal bytes : SMap Byte) (pending : List Instr) : Prop :=
  mapWf (fun _ => (0 : Byte)) mem = true ∧ mapWf (fun _ => (0 : Byte)) journal = true ∧
    mapWf (fun _ => (0xFF : Byte)) bytes = true ∧ (∀ a, mapGet resetWord regs a &&& ~~~definedMask a = 0) ∧ pending = p

/-- The memories of `s` are in canonical form, its registers' reserved bits are zero, and its queue is `p`. -/
def Good (p : List Instr) (s : State) : Prop := GoodParts p s.regs s.mem s.journal s.flash.bytes s.pending

variable {p : List Instr} {s : State}

theorem Good.wf (h : Good p s) : Memory.wf s = true := by
  simp only [Memory.wf, Bool.and_eq_true]
  exact ⟨⟨h.1, h.2.1⟩, h.2.2.1⟩

theorem Good.reserved (h : Good p s) : Regs.reserved s := h.2.2.2.1

theorem Good.queue (h : Good p s) : s.pending = p := h.2.2.2.2

theorem Good.intro (w : Memory.wf s = true) (r : Regs.reserved s) (q : s.pending = p) : Good p s := by
  unfold Memory.wf at w
  simp only [Bool.and_eq_true] at w
  exact ⟨w.1.1, w.1.2, w.2, r, q⟩

theorem Good.parts (h : Good p s) : GoodParts p s.regs s.mem s.journal s.flash.bytes s.pending := h

/-- A state written out field by field. -/
theorem Good.of_mk {regs' : SMap Word} {chans' : SMap Channel} {audit' : SMap ChannelCopy} {riserFree' : Nat}
    {assayTokens' : Nat} {alarm' : Bool} {eccReported' : Bool} {snaps' : SMap Snap} {snapCross' : List SnapEntry}
    {snapCopy' : SMap Snap} {captured' : SMap (Word × Word)} {readers' : SMap Reader} {pushes' : SMap PushPorts}
    {decs' : SMap DecState} {streams' : SMap StreamState} {wcs' : SMap WcState} {rbFrom' : Option Word} {svs' : SMap SvState} {outs' : SMap OutState}
    {pgs' : SMap PgState} {accs' : SMap AccCopy} {laws' : SMap LawState} {lawWords' : SMap Cell} {lawProg' : SMap (BitVec 64)}
    {lawTable' : SMap (BitVec 48)} {tableQ' : List TableStore} {ports' : SMap Nat} {pairFault' : BitVec 8}
    {coreHalted' : Bool} {cores' : SMap Core} {delays' : SMap (List DelayEntry)} {ladles' : SMap LadleState}
    {turn' : SMap Nat} {heatLast' : Option Nat} {heatDue' : Option Nat} {pairLock' : BitVec 8} {mem' : SMap Byte}
    {journal' : SMap Byte} {poison' : List Nat} {upsets' : SMap WordEcc} {flash' : FlashState} {tw' : SMap TwPort} {twSys' : TwSystem}
    {host' : HostState} {assay' : AssayState} {exposed' : SMap Word} {gpio' : BitVec 114} {swi' : BitVec 128}
    {supply' : SupplyState} {rc' : Nat} {timeBase' : BitVec 64} {freeCount' : Nat} {pending' : List Instr}
    (h : GoodParts p regs' mem' journal' flash'.bytes pending') :
    Good p (State.mk regs' chans' audit' riserFree' assayTokens' alarm' eccReported' snaps' snapCross' snapCopy' captured'
      readers' pushes' decs' streams' wcs' rbFrom' svs' outs' pgs' accs' laws' lawWords' lawProg' lawTable' tableQ' ports' pairFault'
      coreHalted' cores' delays' ladles' turn' heatLast' heatDue' pairLock' mem' journal' poison' upsets' flash' tw' twSys' host'
      assay' exposed' gpio' swi' supply' rc' timeBase' freeCount' pending') := h

/-! ### Choices, options and folds -/

theorem good_id (h : Good p s) : Good p (id s) := h

theorem good_ite {c : Prop} [Decidable c] {a b : State} (ha : Good p a) (hb : Good p b) :
    Good p (if c then a else b) := by split <;> assumption

theorem good_foldl {β : Type} {f : State → β → State} {l : List β} (hs : Good p s)
    (hf : ∀ s b, Good p s → Good p (f s b)) : Good p (l.foldl f s) := by
  induction l generalizing s with
  | nil => exact hs
  | cons b bs ih => exact ih (hf s b hs)

theorem good_foldl_fst {α β : Type} {f : State × α → β → State × α} {l : List β} {r : State × α} (hs : Good p r.1)
    (hf : ∀ r b, Good p r.1 → Good p (f r b).1) : Good p (l.foldl f r).1 := by
  induction l generalizing r with
  | nil => exact hs
  | cons b bs ih => exact ih (hf r b hs)

theorem good_getD {o : Option State} {d : State} (ho : ∀ t, o = some t → Good p t) (hd : Good p d) :
    Good p (o.getD d) := by
  cases o with
  | none => exact hd
  | some t => exact ho t rfl

theorem good_map_getD {α : Type} {o : Option α} {f : α → State} {d : State} (hf : ∀ a, Good p (f a)) (hd : Good p d) :
    Good p ((o.map f).getD d) := by
  cases o with
  | none => exact hd
  | some a => exact hf a

/-! ### Attempts of an instruction -/

/-- The state that an attempt answers, if it answers one, is good. -/
def Try.Good {α : Type} (p : List Instr) : Try α → Prop
  | .ok _ s => Machine.Good p s
  | .exc _ s => Machine.Good p s
  | .wait => True

theorem Try.ok_good {α : Type} {a : α} (h : Machine.Good p s) : (Try.ok a s).Good p := h
theorem Try.exc_good {α : Type} {e : Exc} (h : Machine.Good p s) : (Try.exc e s : Try α).Good p := h
theorem Try.good_of_ok {α : Type} {t : Try α} {a : α} (e : t = .ok a s) (h : t.Good p) : Machine.Good p s := by
  subst e
  exact h
theorem Try.good_of_exc {α : Type} {t : Try α} {x : Exc} (e : t = .exc x s) (h : t.Good p) : Machine.Good p s := by
  subst e
  exact h
theorem Try.wait_good {α : Type} : (Try.wait : Try α).Good p := trivial

theorem Try.ite_good {α : Type} {c : Prop} [Decidable c] {a b : Try α} (ha : a.Good p) (hb : b.Good p) :
    (if c then a else b).Good p := by split <;> assumption

theorem Try.bind_good {α β : Type} {t : Try α} {f : α → State → Try β} (ht : t.Good p)
    (hf : ∀ a s, Machine.Good p s → (f a s).Good p) : (t.bind f).Good p := by
  cases t with
  | ok a s => exact hf a s ht
  | exc e s => exact ht
  | wait => trivial

theorem tryEach_good {α : Type} {f : α → State → Try Unit} {l : List α} (hs : Good p s)
    (hf : ∀ a s, Good p s → (f a s).Good p) : (tryEach f l s).Good p := by
  induction l generalizing s with
  | nil => exact hs
  | cons x xs ih => exact Try.bind_good (hf x s hs) (fun _ _ h => ih h)

/-! ### The register map -/

/-- The bits that the fields of a row of the register table define. -/
def RegDef.defined (d : RegDef) : Word := d.fields.foldl (fun m f => m ||| fieldMask ⟨f.hi, f.lo⟩) 0

/-- No reset word of a row has a reserved bit. -/
def RegDef.resetFits (d : RegDef) : Bool :=
  if d.base = A.DEC_CFG 0 then
    decide (d.dims = [(0x80, 160)]) &&
      (List.range 160).all (fun n => decide (BitVec.ofNat 32 (d.reset + n) &&& ~~~d.defined = 0))
  else decide (BitVec.ofNat 32 d.reset &&& ~~~d.defined = 0) &&
    (decide (d.base ≠ A.PG_ACTIVE 0 0) || decide ((0xFA00 : Word) &&& ~~~d.defined = 0))

theorem blocks_resetFits : RegTable.blocks.all (fun b => b.regs.all RegDef.resetFits) = true := by decide

theorem resetWord_reserved (a : Nat) : resetWord a &&& ~~~definedMask a = 0 := by
  unfold resetWord definedMask
  cases hd : regDefAt a with
  | none => simp
  | some d =>
    unfold regDefAt at hd
    cases hb : blockAt a with
    | none => simp [hb] at hd
    | some b =>
      simp only [hb] at hd
      have hmem : d ∈ b.regs := List.mem_of_find?_eq_some hd
      have hhas : d.has a = true := by simpa using List.find?_some hd
      have hblk : b ∈ RegTable.blocks := List.mem_of_find?_eq_some hb
      have fits : d.resetFits = true := List.all_eq_true.mp (List.all_eq_true.mp blocks_resetFits b hblk) d hmem
      unfold RegDef.resetFits at fits
      split at fits
      · rename_i e
        simp only [Bool.and_eq_true, decide_eq_true_eq, List.all_eq_true, List.mem_range] at fits
        have hn : (a - d.base) / 0x80 < 160 := by
          unfold RegDef.has at hhas
          rw [fits.1] at hhas
          simp only [dimsMatch, Bool.and_eq_true, decide_eq_true_eq] at hhas
          exact hhas.2.2
        simp only [if_pos e]
        exact fits.2 _ hn
      · rename_i e
        simp only [Bool.and_eq_true, Bool.or_eq_true, decide_eq_true_eq] at fits
        simp only [if_neg e]
        split
        · rename_i g
          exact fits.2.resolve_left (fun n => n g.1)
        · exact fits.1

theorem State.setReg_good (a : Nat) (w : Word) (h : Good p s) : Good p (s.setReg a w) := by
  refine ⟨h.1, h.2.1, h.2.2.1, fun b => ?_, h.2.2.2.2⟩
  show mapGet resetWord (mapSet resetWord s.regs a (w &&& definedMask a)) b &&& ~~~definedMask b = 0
  by_cases e : b = a
  · subst e
    rw [mapGet_mapSet_self]
    ext i
    simp only [BitVec.getElem_and, BitVec.getElem_not]
    cases (definedMask b)[i] <;> simp
  · rw [mapGet_mapSet_of_ne _ _ _ e]
    exact h.2.2.2.1 b

end Sys2Proof.Machine
end

