-- ==== Sys2Proof/Laws/GoodOps.lean ====
section
/-! SUPPORT. The operations of Ops.lean keep the memories, the reserved bits of the registers, and the queue. -/

namespace Sys2Proof.Machine

theorem State.setFld_good {pq : List Instr} {s : State} (a : Nat) (f : Fld) (v : Nat) (hg : Good pq s) :
    Good pq (State.setFld s a f v) := by
  unfold State.setFld
  try dsimp only
  iterate 60 all_goals with_reducible first
    | assumption | apply State.setReg_good

theorem State.setBit_good {pq : List Instr} {s : State} (a : Nat) (f : Fld) (hg : Good pq s) :
    Good pq (State.setBit s a f) := by
  unfold State.setBit
  try dsimp only
  iterate 60 all_goals with_reducible first
    | assumption | apply State.setFld_good

theorem State.clrBit_good {pq : List Instr} {s : State} (a : Nat) (f : Fld) (hg : Good pq s) :
    Good pq (State.clrBit s a f) := by
  unfold State.clrBit
  try dsimp only
  iterate 60 all_goals with_reducible first
    | assumption | apply State.setFld_good

theorem State.putBit_good {pq : List Instr} {s : State} (a : Nat) (f : Fld) (b : Bool) (hg : Good pq s) :
    Good pq (State.putBit s a f b) := by
  unfold State.putBit
  try dsimp only
  iterate 60 all_goals with_reducible first
    | assumption | apply State.clrBit_good | apply State.setBit_good | apply good_ite

theorem State.setBitIf_good {pq : List Instr} {s : State} (b : Bool) (a : Nat) (f : Fld) (hg : Good pq s) :
    Good pq (State.setBitIf s b a f) := by
  unfold State.setBitIf
  try dsimp only
  iterate 60 all_goals with_reducible first
    | assumption | apply State.setBit_good | apply good_ite

theorem State.doIf_good {pq : List Instr} {s : State} (b : Bool) (f : State → State) (hg : Good pq s) (h_f : ∀ y0, Good pq y0 → Good pq (f y0)) :
    Good pq (State.doIf s b f) := by
  unfold State.doIf
  try dsimp only
  iterate 60 all_goals with_reducible first
    | assumption | intro _ | apply h_f | apply good_ite

theorem State.countEvent_good {pq : List Instr} {s : State} (a : Nat) (fullAt : Nat) (full : Fld) (hg : Good pq s) :
    Good pq (State.countEvent s a fullAt full) := by
  unfold State.countEvent
  try dsimp only
  iterate 60 all_goals with_reducible first
    | assumption | apply State.setBitIf_good | apply State.setReg_good | apply good_ite

theorem State.countEvents_good {pq : List Instr} {s : State} (a : Nat) (k : Nat) (fullAt : Nat) (full : Fld) (hg : Good pq s) :
    Good pq (State.countEvents s a k fullAt full) := by
  unfold State.countEvents
  try dsimp only
  iterate 60 all_goals with_reducible first
    | assumption | apply State.setBitIf_good | apply State.setReg_good | apply good_ite

theorem State.countSat_good {pq : List Instr} {s : State} (a : Nat) (f : Fld) (hg : Good pq s) :
    Good pq (State.countSat s a f) := by
  unfold State.countSat
  try dsimp only
  iterate 60 all_goals with_reducible first
    | assumption | apply State.setFld_good | apply good_ite

theorem State.countWrap_good {pq : List Instr} {s : State} (a : Nat) (f : Fld) (hg : Good pq s) :
    Good pq (State.countWrap s a f) := by
  unfold State.countWrap
  try dsimp only
  iterate 60 all_goals with_reducible first
    | assumption | apply State.setFld_good

theorem State.tickRc_good {pq : List Instr} {s : State} (hg : Good pq s) :
    Good pq (State.tickRc s) := by
  unfold State.tickRc
  try dsimp only
  iterate 60 all_goals with_reducible first
    | assumption | apply Good.of_mk | apply Good.parts

theorem State.advanceTo_good {pq : List Instr} {s : State} (r : Nat) (hg : Good pq s) :
    Good pq (State.advanceTo s r) := by
  unfold State.advanceTo
  try dsimp only
  iterate 60 all_goals with_reducible first
    | assumption | apply good_ite | split | apply Good.of_mk | apply Good.parts

theorem State.spent_good {pq : List Instr} {s : State} (hg : Good pq s) :
    Good pq (State.spent s) := by
  unfold State.spent
  try dsimp only
  iterate 60 all_goals with_reducible first
    | assumption | apply Good.of_mk | apply Good.parts

end Sys2Proof.Machine
end

