-- ==== Sys2Proof/Laws/GoodRunner.lean ====
section
/-! SUPPORT. The operations of Runner.lean keep the memories, the reserved bits of the registers, and the queue. -/

namespace Sys2Proof.Machine

theorem State.setChan_good {pq : List Instr} {s : State} (n : Nat) (c : Channel) (hg : Good pq s) :
    Good pq (State.setChan s n c) := by
  unfold State.setChan
  try dsimp only
  iterate 60 all_goals with_reducible first
    | assumption | apply Good.of_mk | apply Good.parts

theorem State.raiseAlarm_good {pq : List Instr} {s : State} (hg : Good pq s) :
    Good pq (State.raiseAlarm s) := by
  unfold State.raiseAlarm
  try dsimp only
  iterate 60 all_goals with_reducible first
    | assumption | apply Good.of_mk | apply Good.parts

theorem State.auditChannel_good {pq : List Instr} {s : State} (n : Nat) (hg : Good pq s) :
    Good pq (State.auditChannel s n) := by
  unfold State.auditChannel
  try dsimp only
  iterate 60 all_goals with_reducible first
    | assumption | apply State.raiseAlarm_good | apply State.setBit_good | apply good_ite

theorem State.countStall_good {pq : List Instr} {s : State} (n : Nat) (k : Nat) (hg : Good pq s) :
    Good pq (State.countStall s n k) := by
  unfold State.countStall
  try dsimp only
  iterate 60 all_goals with_reducible first
    | assumption | apply State.countEvents_good

theorem creditBack_good {pq : List Instr} (n : Nat) {s : State} (hg : Good pq s) :
    Good pq (creditBack n s) := by
  unfold creditBack
  try dsimp only
  iterate 60 all_goals with_reducible first
    | assumption | apply State.countStall_good | apply State.setChan_good | apply good_ite | split | apply Good.of_mk
    | apply Good.parts

theorem State.leaveTokens_good {pq : List Instr} {s : State} (n : Nat) (queue : List Token) (gone : List (Bool × Bool)) (hg : Good pq s) :
    Good pq (State.leaveTokens s n queue gone) := by
  unfold State.leaveTokens
  try dsimp only
  iterate 60 all_goals with_reducible first
    | assumption | intro _ | apply creditBack_good | apply State.setChan_good | apply State.doIf_good
    | apply State.setBitIf_good | apply Good.of_mk | apply Good.parts

theorem State.settle_good {pq : List Instr} {s : State} (n : Nat) (hg : Good pq s) :
    Good pq (State.settle s n) := by
  unfold State.settle
  try dsimp only
  iterate 60 all_goals with_reducible first
    | assumption | apply State.leaveTokens_good | apply State.auditChannel_good

theorem State.settleInto_good {pq : List Instr} {s : State} (code : Nat) (hg : Good pq s) :
    Good pq (State.settleInto s code) := by
  unfold State.settleInto
  try dsimp only
  iterate 60 all_goals with_reducible first
    | assumption | intro _ | apply State.settle_good | apply good_foldl

theorem State.noteHwm_good {pq : List Instr} {s : State} (n : Nat) (k : Nat) (hg : Good pq s) :
    Good pq (State.noteHwm s n k) := by
  unfold State.noteHwm
  try dsimp only
  iterate 60 all_goals with_reducible first
    | assumption | apply State.setFld_good | apply good_ite

theorem State.issueToken_good {pq : List Instr} {s : State} (n : Nat) (payload : Payload) (riser : Bool) (remote : Bool) (hg : Good pq s) :
    Good pq (State.issueToken s n payload riser remote) := by
  unfold State.issueToken
  try dsimp only
  iterate 60 all_goals with_reducible first
    | assumption | apply State.noteHwm_good | apply State.settle_good | apply State.auditChannel_good
    | apply State.setChan_good | apply State.setBitIf_good | apply good_ite | split | apply Good.of_mk
    | apply Good.parts

theorem State.offer_good {pq : List Instr} {s : State} (n : Nat) (payload : Payload) (remote : Bool) (hg : Good pq s) :
    Good pq (State.offer s n payload remote).1 := by
  unfold State.offer
  try dsimp only
  iterate 60 all_goals with_reducible first
    | assumption | apply State.issueToken_good | apply State.countStall_good | apply State.setChan_good
    | apply good_ite | split | apply Good.of_mk | apply Good.parts

theorem State.offerOnce_good {pq : List Instr} {s : State} (n : Nat) (payload : Payload) (hg : Good pq s) :
    Good pq (State.offerOnce s n payload).1 := by
  unfold State.offerOnce
  try dsimp only
  iterate 60 all_goals with_reducible first
    | assumption | apply State.issueToken_good | apply State.countStall_good | apply good_ite | split

theorem State.withdraw_good {pq : List Instr} {s : State} (n : Nat) (hg : Good pq s) :
    Good pq (State.withdraw s n) := by
  unfold State.withdraw
  try dsimp only
  iterate 60 all_goals with_reducible first
    | assumption | apply State.setChan_good | apply good_ite

theorem passChannel_good {pq : List Instr} (r : Nat) (n : Nat) {s : State} (hg : Good pq s) :
    Good pq (passChannel r n s) := by
  unfold passChannel
  try dsimp only
  iterate 60 all_goals with_reducible first
    | assumption | apply State.countStall_good | apply State.setChan_good | apply good_ite | split

theorem channelDisable_good {pq : List Instr} (n : Nat) {s : State} (hg : Good pq s) :
    Good pq (channelDisable n s) := by
  unfold channelDisable
  try dsimp only
  iterate 60 all_goals with_reducible first
    | assumption | apply State.setChan_good | apply State.clrBit_good | apply State.setBit_good | apply good_ite

theorem channelDisabled_good {pq : List Instr} (n : Nat) {s : State} (hg : Good pq s) :
    Good pq (channelDisabled n s) := by
  unfold channelDisabled
  try dsimp only
  iterate 60 all_goals with_reducible first
    | assumption | apply State.setChan_good | apply State.clrBit_good | apply State.setBit_good | apply good_ite

theorem channelEnable_good {pq : List Instr} (n : Nat) {s : State} (hg : Good pq s) :
    Good pq (channelEnable n s) := by
  unfold channelEnable
  try dsimp only
  iterate 60 all_goals with_reducible first
    | assumption | apply State.setChan_good | apply State.clrBit_good | apply State.setBit_good | apply good_ite

theorem auditSnap_good {pq : List Instr} {s : State} (hg : Good pq s) :
    Good pq (auditSnap s) := by
  unfold auditSnap
  try dsimp only
  iterate 60 all_goals with_reducible first
    | assumption | apply State.setBit_good | apply Good.of_mk | apply Good.parts

theorem hwmClear_good {pq : List Instr} {s : State} (hg : Good pq s) :
    Good pq (hwmClear s) := by
  unfold hwmClear
  try dsimp only
  iterate 60 all_goals with_reducible first
    | assumption | intro _ | apply State.setFld_good | apply good_foldl

theorem issueNotice_good {pq : List Instr} (g : Nat) (payload : Payload) {s : State} (hg : Good pq s) :
    Good pq (issueNotice g payload s) := by
  unfold issueNotice
  try dsimp only
  iterate 60 all_goals with_reducible first
    | assumption | apply State.issueToken_good | apply State.setBit_good | apply good_ite | split

theorem State.setReader_good {pq : List Instr} {s : State} (r : Nat) (x : Reader) (hg : Good pq s) :
    Good pq (State.setReader s r x) := by
  unfold State.setReader
  try dsimp only
  iterate 60 all_goals with_reducible first
    | assumption | apply Good.of_mk | apply Good.parts

theorem timeLoRead_good {pq : List Instr} (r : Nat) {s : State} (hg : Good pq s) :
    Good pq (timeLoRead r s).2 := by
  unfold timeLoRead
  try dsimp only
  iterate 60 all_goals with_reducible first
    | assumption | apply State.setReader_good

theorem crossSnaps_good {pq : List Instr} {s : State} (hg : Good pq s) :
    Good pq (crossSnaps s) := by
  unfold crossSnaps
  try dsimp only
  iterate 60 all_goals with_reducible first
    | assumption | intro _ | apply State.spent_good | apply good_foldl | apply good_ite | split | apply Good.of_mk
    | apply Good.parts

theorem snapAccept_good {pq : List Instr} (k : Nat) (payload : Payload) (tag : BitVec 16) {s : State} (hg : Good pq s) :
    Good pq (snapAccept k payload tag s) := by
  unfold snapAccept
  try dsimp only
  iterate 60 all_goals with_reducible first
    | assumption | apply crossSnaps_good | apply Good.of_mk | apply Good.parts

theorem snapLoRead_good {pq : List Instr} (r : Nat) (k : Nat) {s : State} (hg : Good pq s) :
    Good pq (snapLoRead r k s).2 := by
  unfold snapLoRead
  try dsimp only
  iterate 60 all_goals with_reducible first
    | assumption | apply Good.of_mk | apply Good.parts

theorem State.setPush_good {pq : List Instr} {s : State} (c : Nat) (p : PushPorts) (hg : Good pq s) :
    Good pq (State.setPush s c p) := by
  unfold State.setPush
  try dsimp only
  iterate 60 all_goals with_reducible first
    | assumption | apply Good.of_mk | apply Good.parts

theorem pushLo_good {pq : List Instr} (c : Nat) (w : Word) {s : State} (hg : Good pq s) :
    Good pq (pushLo c w s) := by
  unfold pushLo
  try dsimp only
  iterate 60 all_goals with_reducible first
    | assumption | apply State.setPush_good

theorem pushHi_good {pq : List Instr} (c : Nat) (q : Nat) (w : Word) {s : State} (hg : Good pq s) :
    Good pq (pushHi c q w s) := by
  unfold pushHi
  try dsimp only
  iterate 60 all_goals with_reducible first
    | assumption | apply State.setPush_good | apply good_ite

theorem issuePush_good {pq : List Instr} (c : Nat) {s : State} (hg : Good pq s) :
    Good pq (issuePush c s) := by
  unfold issuePush
  try dsimp only
  iterate 60 all_goals with_reducible first
    | assumption | apply State.setPush_good | apply State.offer_good | apply good_ite | split

end Sys2Proof.Machine
end

