-- ==== Sys2Proof/Laws/GoodOutputs.lean ====
section
/-! SUPPORT. The operations of Outputs.lean keep the memories, the reserved bits of the registers, and the queue. -/

namespace Sys2Proof.Machine

theorem State.setOut_good {pq : List Instr} {s : State} (o : Nat) (x : OutState) (hg : Good pq s) :
    Good pq (State.setOut s o x) := by
  unfold State.setOut
  try dsimp only
  iterate 60 all_goals with_reducible first
    | assumption | apply Good.of_mk | apply Good.parts

theorem State.putOut_good {pq : List Instr} {s : State} (o : Nat) (x : OutState) (hg : Good pq s) :
    Good pq (State.putOut s o x) := by
  unfold State.putOut
  try dsimp only
  iterate 60 all_goals with_reducible first
    | assumption | apply State.setOut_good | apply State.raiseAlarm_good | apply State.setBitIf_good
    | apply State.setBit_good | apply good_ite

theorem tripOutput_good {pq : List Instr} (r : Nat) (o : Nat) {s : State} (hg : Good pq s) :
    Good pq (tripOutput r o s) := by
  unfold tripOutput
  try dsimp only
  iterate 60 all_goals with_reducible first
    | assumption | apply State.putOut_good | apply good_ite

theorem tripOutputs_good {pq : List Instr} (g : Nat) (r : Nat) {s : State} (hg : Good pq s) :
    Good pq (tripOutputs g r s) := by
  unfold tripOutputs
  try dsimp only
  iterate 60 all_goals with_reducible first
    | assumption | intro _ | apply tripOutput_good | apply good_foldl | apply good_ite

theorem globalForce_good {pq : List Instr} (o : Nat) {s : State} (hg : Good pq s) :
    Good pq (globalForce o s) := by
  unfold globalForce
  try dsimp only
  iterate 60 all_goals with_reducible first
    | assumption | apply State.setOut_good | apply good_ite

theorem safeHighDeadTime_good {pq : List Instr} (o : Nat) {s : State} (hg : Good pq s) :
    Good pq (safeHighDeadTime o s) := by
  unfold safeHighDeadTime
  try dsimp only
  iterate 60 all_goals with_reducible first
    | assumption | apply State.setOut_good | apply good_ite

theorem safeHighForceDelay_good {pq : List Instr} (o : Nat) {s : State} (hg : Good pq s) :
    Good pq (safeHighForceDelay o s) := by
  unfold safeHighForceDelay
  try dsimp only
  iterate 60 all_goals with_reducible first
    | assumption | apply State.setOut_good | apply good_ite

theorem forceHoldExpiry_good {pq : List Instr} (o : Nat) {s : State} (hg : Good pq s) :
    Good pq (forceHoldExpiry o s) := by
  unfold forceHoldExpiry
  try dsimp only
  iterate 60 all_goals with_reducible first
    | assumption | apply State.setOut_good | apply good_ite

end Sys2Proof.Machine
end

