-- ==== Sys2Proof/Laws/GoodQuench.lean ====
section
/-! SUPPORT. The operations of Quench.lean keep the memories, the reserved bits of the registers, and the queue. -/

namespace Sys2Proof.Machine

theorem State.setWc_good {pq : List Instr} {s : State} (n : Nat) (w : WcState) (hg : Good pq s) :
    Good pq (State.setWc s n w) := by
  unfold State.setWc
  try dsimp only
  iterate 60 all_goals with_reducible first
    | assumption | apply Good.of_mk | apply Good.parts

theorem countTrip_good {pq : List Instr} (n : Nat) {s : State} (hg : Good pq s) :
    Good pq (countTrip n s) := by
  unfold countTrip
  try dsimp only
  iterate 60 all_goals with_reducible first
    | assumption | apply State.countEvent_good | apply State.setBit_good

theorem capture_good {pq : List Instr} (n : Nat) {s : State} (hg : Good pq s) :
    Good pq (capture n s) := by
  unfold capture
  try dsimp only
  iterate 60 all_goals with_reducible first
    | assumption | intro _ | apply countTrip_good | apply State.setWc_good | apply State.doIf_good | apply good_ite
    | split | apply Good.of_mk | apply Good.parts

theorem captureAt_good {pq : List Instr} (r : Nat) (n : Nat) {s : State} (hg : Good pq s) :
    Good pq (captureAt r n s) := by
  unfold captureAt
  try dsimp only
  iterate 60 all_goals with_reducible first
    | assumption | intro _ | apply countTrip_good | apply State.setWc_good | apply State.doIf_good | apply good_ite
    | split | apply Good.of_mk | apply Good.parts

theorem lawStall_good {pq : List Instr} (r : Nat) (n : Nat) {s : State} (hg : Good pq s) :
    Good pq (lawStall r n s) := by
  unfold lawStall
  try dsimp only
  iterate 60 all_goals with_reducible first
    | assumption | apply State.countEvents_good | apply good_ite | split | apply Good.of_mk | apply Good.parts

theorem passWaits_good {pq : List Instr} (r : Nat) {s : State} (hg : Good pq s) :
    Good pq (passWaits r s) := by
  unfold passWaits
  try dsimp only
  iterate 60 all_goals with_reducible first
    | assumption | intro _ | apply lawStall_good | apply passChannel_good | apply good_foldl

theorem State.passTo_good {pq : List Instr} {s : State} (r : Nat) (hg : Good pq s) :
    Good pq (State.passTo s r) := by
  unfold State.passTo
  try dsimp only
  iterate 60 all_goals with_reducible first
    | assumption | intro _ | apply passWaits_good | apply captureAt_good | apply State.advanceTo_good
    | apply State.doIf_good | apply good_foldl | apply good_ite | split

theorem State.passCredit_good {pq : List Instr} {s : State} (n : Nat) (hg : Good pq s) :
    Good pq (State.passCredit s n) := by
  unfold State.passCredit
  try dsimp only
  iterate 60 all_goals with_reducible first
    | assumption | apply State.passTo_good | apply good_ite | split | apply Good.of_mk | apply Good.parts

theorem State.captureAll_good {pq : List Instr} {s : State} (hg : Good pq s) :
    Good pq (State.captureAll s) := by
  unfold State.captureAll
  try dsimp only
  iterate 60 all_goals with_reducible first
    | assumption | intro _ | apply capture_good | apply good_foldl | split

theorem untrip_good {pq : List Instr} (n : Nat) {s : State} (hg : Good pq s) :
    Good pq (untrip n s) := by
  unfold untrip
  try dsimp only
  iterate 60 all_goals with_reducible first
    | assumption | apply State.setReg_good | apply good_ite | split | apply Good.of_mk | apply Good.parts

theorem State.reblank_good {pq : List Instr} {s : State} (hg : Good pq s) :
    Good pq (State.reblank s) := by
  unfold State.reblank
  try dsimp only
  iterate 60 all_goals with_reducible first
    | assumption | intro _ | apply untrip_good | apply State.setWc_good | apply good_foldl | apply good_ite | split
    | apply Good.of_mk | apply Good.parts

theorem comparatorCrossing_good {pq : List Instr} (n : Nat) (above : Bool) (below : Bool) {s : State} (hg : Good pq s) :
    Good pq (comparatorCrossing n above below s) := by
  unfold comparatorCrossing
  try dsimp only
  iterate 60 all_goals with_reducible first
    | assumption | apply capture_good | apply State.setWc_good | apply good_ite

theorem comparatorReady_good {pq : List Instr} (n : Nat) {s : State} (hg : Good pq s) :
    Good pq (comparatorReady n s) := by
  unfold comparatorReady
  try dsimp only
  iterate 60 all_goals with_reducible first
    | assumption | apply capture_good | apply State.setBit_good | apply good_ite

theorem thresholdWrite_good {pq : List Instr} (n : Nat) (w : Word) {s : State} (hg : Good pq s) :
    Good pq (thresholdWrite n w s) := by
  unfold thresholdWrite
  try dsimp only
  iterate 60 all_goals with_reducible first
    | assumption | apply State.setBit_good | apply State.setReg_good | apply good_ite

theorem rbSelWrite_good {pq : List Instr} (w : Word) {s : State} (hg : Good pq s) :
    Good pq (rbSelWrite w s) := by
  unfold rbSelWrite
  try dsimp only
  iterate 60 all_goals with_reducible first
    | assumption | apply State.clrBit_good | apply State.setBit_good | apply State.setFld_good | apply good_ite
    | split | apply Good.of_mk | apply Good.parts

theorem rbSettled_good {pq : List Instr} {s : State} (hg : Good pq s) :
    Good pq (rbSettled s) := by
  unfold rbSettled
  try dsimp only
  iterate 60 all_goals with_reducible first
    | assumption | apply State.setBitIf_good

theorem groupLatch_good {pq : List Instr} (g : Nat) (cause : Nat) {s : State} (hg : Good pq s) :
    Good pq (groupLatch g cause s) := by
  unfold groupLatch
  try dsimp only
  iterate 60 all_goals with_reducible first
    | assumption | apply tripOutputs_good | apply issueNotice_good | apply State.setBitIf_good
    | apply State.setBit_good | apply State.setReg_good | apply good_ite

theorem groupCombine_good {pq : List Instr} (g : Nat) {s : State} (hg : Good pq s) :
    Good pq (groupCombine g s) := by
  unfold groupCombine
  try dsimp only
  iterate 60 all_goals with_reducible first
    | assumption | apply groupLatch_good | apply State.setBitIf_good | apply good_ite | split

theorem State.feedQuench_good {pq : List Instr} {s : State} (i : Nat) (hg : Good pq s) :
    Good pq (State.feedQuench s i) := by
  unfold State.feedQuench
  try dsimp only
  iterate 60 all_goals with_reducible first
    | assumption | apply State.passTo_good | apply good_ite

theorem quenchRequest_good {pq : List Instr} (i : Nat) {s : State} (hg : Good pq s) :
    Good pq (quenchRequest i s) := by
  unfold quenchRequest
  try dsimp only
  iterate 60 all_goals with_reducible first
    | assumption | intro _ | apply State.feedQuench_good | apply groupCombine_good | apply good_foldl | apply good_ite

theorem quenchArm_good {pq : List Instr} {s : State} (hg : Good pq s) :
    Good pq (quenchArm s) := by
  unfold quenchArm
  try dsimp only
  iterate 60 all_goals with_reducible first
    | assumption | intro _ | apply groupCombine_good | apply State.setBit_good | apply good_foldl

theorem groupClear_good {pq : List Instr} (g : Nat) {s : State} (hg : Good pq s) :
    Good pq (groupClear g s) := by
  unfold groupClear
  try dsimp only
  iterate 60 all_goals with_reducible first
    | assumption | apply State.clrBit_good

theorem groupSelfClear_good {pq : List Instr} (g : Nat) {s : State} (hg : Good pq s) :
    Good pq (groupSelfClear g s) := by
  unfold groupSelfClear
  try dsimp only
  iterate 60 all_goals with_reducible first
    | assumption | apply groupClear_good | apply State.passTo_good | apply good_ite | split

theorem quenchRelease_good {pq : List Instr} (bits : BitVec 16) {s : State} (hg : Good pq s) :
    Good pq (quenchRelease bits s) := by
  unfold quenchRelease
  try dsimp only
  iterate 60 all_goals with_reducible first
    | assumption | intro _ | apply groupClear_good | apply State.setBit_good | apply good_foldl | apply good_ite

theorem swReq_good {pq : List Instr} (raise : Bool) {s : State} (hg : Good pq s) :
    Good pq (swReq raise s) := by
  unfold swReq
  try dsimp only
  iterate 60 all_goals with_reducible first
    | assumption | apply State.putBit_good

theorem quenchRefuse_good {pq : List Instr} {s : State} (hg : Good pq s) :
    Good pq (quenchRefuse s) := by
  unfold quenchRefuse
  try dsimp only
  iterate 60 all_goals with_reducible first
    | assumption | apply State.setBit_good

end Sys2Proof.Machine
end

