-- ==== Sys2Proof/Laws/GoodPwm.lean ====
section
/-! SUPPORT. The operations of Pwm.lean keep the memories, the reserved bits of the registers, and the queue. -/

namespace Sys2Proof.Machine

theorem State.setPg_good {pq : List Instr} {s : State} (g : Nat) (p : PgState) (hg : Good pq s) :
    Good pq (State.setPg s g p) := by
  unfold State.setPg
  try dsimp only
  iterate 60 all_goals with_reducible first
    | assumption | apply Good.of_mk | apply Good.parts

theorem placeOutput_good {pq : List Instr} (g : Nat) (j : Nat) (t : Nat) (p : Nat) {s : State} (hg : Good pq s) :
    Good pq (placeOutput g j t p s) := by
  unfold placeOutput
  try dsimp only
  iterate 60 all_goals with_reducible first
    | assumption | apply State.putOut_good | apply State.setBitIf_good | apply good_ite

theorem placeOutputs_good {pq : List Instr} (g : Nat) (t : Nat) (p : Nat) {s : State} (hg : Good pq s) :
    Good pq (placeOutputs g t p s) := by
  unfold placeOutputs
  try dsimp only
  iterate 60 all_goals with_reducible first
    | assumption | intro _ | apply placeOutput_good | apply good_foldl

theorem countLate_good {pq : List Instr} (g : Nat) (x0 : Nat) {s : State} (hg : Good pq s) :
    Good pq (countLate g x0 s) := by
  induction x0 generalizing s with
  | zero => exact hg
  | succ k ih =>
    unfold countLate
    exact ih (State.setPg_good _ _ (State.setBit_good _ _ (State.countEvent_good _ _ _ hg)))

theorem retimeOutput_good {pq : List Instr} (g : Nat) (j : Nat) {s : State} (hg : Good pq s) :
    Good pq (retimeOutput g j s) := by
  unfold retimeOutput
  try dsimp only
  iterate 60 all_goals with_reducible first
    | assumption | apply countLate_good | apply State.putOut_good | apply State.setBitIf_good | apply good_ite | split
    | apply Good.of_mk | apply Good.parts

theorem shadowLand_good {pq : List Instr} (g : Nat) (r : Nat) (v : Word) {s : State} (hg : Good pq s) :
    Good pq (shadowLand g r v s) := by
  unfold shadowLand
  try dsimp only
  iterate 60 all_goals with_reducible first
    | assumption | apply State.setBit_good | apply State.setReg_good | apply good_ite

theorem shadowCoreWrite_good {pq : List Instr} (g : Nat) (r : Nat) (v : Word) {s : State} (hg : Good pq s) :
    Good pq (shadowCoreWrite g r v s) := by
  unfold shadowCoreWrite
  try dsimp only
  iterate 60 all_goals with_reducible first
    | assumption | apply shadowLand_good | apply State.setBit_good | apply good_ite

theorem shadowToken_good {pq : List Instr} (g : Nat) (payload : Payload) {s : State} (hg : Good pq s) :
    Good pq (shadowToken g payload s) := by
  unfold shadowToken
  try dsimp only
  iterate 60 all_goals with_reducible first
    | assumption | apply shadowCoreWrite_good | apply State.setBit_good | apply good_ite

theorem transferOne_good {pq : List Instr} (g : Nat) (r : Nat) {s : State} (hg : Good pq s) :
    Good pq (transferOne g r s) := by
  unfold transferOne
  try dsimp only
  iterate 60 all_goals with_reducible first
    | assumption | apply retimeOutput_good | apply State.setReg_good | apply good_ite

theorem transferDuties_good {pq : List Instr} (g : Nat) {s : State} (hg : Good pq s) :
    Good pq (transferDuties g s) := by
  unfold transferDuties
  try dsimp only
  iterate 60 all_goals with_reducible first
    | assumption | intro _ | apply transferOne_good | apply good_foldl

theorem transferTiming_good {pq : List Instr} (g : Nat) {s : State} (hg : Good pq s) :
    Good pq (transferTiming g s) := by
  unfold transferTiming
  try dsimp only
  iterate 60 all_goals with_reducible first
    | assumption | apply transferOne_good

theorem shadowTransfer_good {pq : List Instr} (g : Nat) (kind : TransferKind) {s : State} (hg : Good pq s) :
    Good pq (shadowTransfer g kind s) := by
  unfold shadowTransfer
  try dsimp only
  iterate 60 all_goals with_reducible first
    | assumption | apply transferTiming_good | apply transferDuties_good | apply good_ite | split

theorem commandPulse_good {pq : List Instr} (o : Nat) (t : Nat) (i : Interval) (k : Nat) {s : State} (hg : Good pq s) :
    Good pq (commandPulse o t i k s) := by
  unfold commandPulse
  try dsimp only
  iterate 60 all_goals with_reducible first
    | assumption | apply State.reblank_good | apply State.passTo_good | apply State.putOut_good

theorem pulseCommanded_good {pq : List Instr} (o : Nat) {s : State} (hg : Good pq s) :
    Good pq (pulseCommanded o s) := by
  unfold pulseCommanded
  try dsimp only
  iterate 60 all_goals with_reducible first
    | assumption | intro _ | apply commandPulse_good | apply State.setOut_good | apply good_getD | apply good_ite
    | split

theorem endPulse_good {pq : List Instr} (o : Nat) (f : Nat) {s : State} (hg : Good pq s) :
    Good pq (endPulse o f s) := by
  unfold endPulse
  try dsimp only
  iterate 60 all_goals with_reducible first
    | assumption | apply State.reblank_good | apply State.passTo_good | apply State.putOut_good

theorem pulseEnd_good {pq : List Instr} (o : Nat) {s : State} (hg : Good pq s) :
    Good pq (pulseEnd o s) := by
  unfold pulseEnd
  try dsimp only
  iterate 60 all_goals with_reducible first
    | assumption | apply endPulse_good | apply State.passTo_good | apply State.setOut_good | apply good_ite | split

theorem returnOutput_good {pq : List Instr} (g : Nat) (j : Nat) (e : Nat) {s : State} (hg : Good pq s) :
    Good pq (returnOutput g j e s) := by
  unfold returnOutput
  try dsimp only
  iterate 60 all_goals with_reducible first
    | assumption | apply tripOutput_good | apply State.setOut_good | apply good_ite

theorem returnOutputs_good {pq : List Instr} (g : Nat) (e : Nat) {s : State} (hg : Good pq s) :
    Good pq (returnOutputs g e s) := by
  unfold returnOutputs
  try dsimp only
  iterate 60 all_goals with_reducible first
    | assumption | intro _ | apply returnOutput_good | apply good_foldl

theorem periodEvent_good {pq : List Instr} (g : Nat) (forced : Bool) (late : Bool) (resync : Bool) {s : State} (hg : Good pq s) :
    Good pq (periodEvent g forced late resync s) := by
  unfold periodEvent
  try dsimp only
  iterate 60 all_goals with_reducible first
    | assumption | apply State.offerOnce_good | apply State.countEvent_good | apply State.setBit_good | apply good_ite
    | split

theorem followStart_good {pq : List Instr} (f : Nat) (t : Nat) (len : Nat) {s : State} (hg : Good pq s) :
    Good pq (followStart f t len s) := by
  unfold followStart
  try dsimp only
  iterate 60 all_goals with_reducible first
    | assumption | apply State.setPg_good | apply good_ite

theorem cutOutputs_good {pq : List Instr} (g : Nat) (r : Nat) {s : State} (hg : Good pq s) :
    Good pq (cutOutputs g r s) := by
  unfold cutOutputs
  try dsimp only
  iterate 60 all_goals with_reducible first
    | assumption | intro _ | apply State.setOut_good | apply good_foldl | apply good_ite

theorem startPeriod_good {pq : List Instr} (g : Nat) (t : Nat) {s : State} (hg : Good pq s) :
    Good pq (startPeriod g t s) := by
  unfold startPeriod
  try dsimp only
  iterate 60 all_goals with_reducible first
    | assumption | intro _ | apply cutOutputs_good | apply followStart_good | apply periodEvent_good
    | apply returnOutputs_good | apply placeOutputs_good | apply State.setPg_good | apply State.reblank_good
    | apply State.passTo_good | apply State.countWrap_good | apply State.setBitIf_good | apply State.setBit_good
    | apply good_foldl | apply good_getD | apply good_ite | split | apply Good.of_mk | apply Good.parts

theorem pgAtHeat_good {pq : List Instr} (g : Nat) {s : State} (hg : Good pq s) :
    Good pq (pgAtHeat g s) := by
  unfold pgAtHeat
  try dsimp only
  iterate 60 all_goals with_reducible first
    | assumption | intro _ | apply cutOutputs_good | apply State.setPg_good | apply State.setBit_good
    | apply good_getD | apply good_ite | split | apply Good.of_mk | apply Good.parts

theorem pgsAtHeat_good {pq : List Instr} {s : State} (hg : Good pq s) :
    Good pq (pgsAtHeat s) := by
  unfold pgsAtHeat
  try dsimp only
  iterate 60 all_goals with_reducible first
    | assumption | intro _ | apply pgAtHeat_good | apply good_foldl

theorem pgArmAt_good {pq : List Instr} (g : Nat) (r : Nat) {s : State} (hg : Good pq s) :
    Good pq (pgArmAt g r s) := by
  unfold pgArmAt
  try dsimp only
  iterate 60 all_goals with_reducible first
    | assumption | apply State.setPg_good | apply good_ite | split | apply Good.of_mk | apply Good.parts

theorem pgArm_good {pq : List Instr} (g : Nat) {s : State} (hg : Good pq s) :
    Good pq (pgArm g s) := by
  unfold pgArm
  try dsimp only
  iterate 60 all_goals with_reducible first
    | assumption | apply pgArmAt_good

theorem pgEnable_good {pq : List Instr} (g : Nat) {s : State} (hg : Good pq s) :
    Good pq (pgEnable g s) := by
  unfold pgEnable
  try dsimp only
  iterate 60 all_goals with_reducible first
    | assumption | apply pgArm_good | apply State.setPg_good | apply State.clrBit_good | apply State.setBit_good
    | apply good_ite

theorem pgDisable_good {pq : List Instr} (g : Nat) {s : State} (hg : Good pq s) :
    Good pq (pgDisable g s) := by
  unfold pgDisable
  try dsimp only
  iterate 60 all_goals with_reducible first
    | assumption | apply State.setPg_good | apply State.clrBit_good | apply State.setBit_good | apply good_ite

theorem stopOutput_good {pq : List Instr} (t : Nat) (o : Nat) {s : State} (hg : Good pq s) :
    Good pq (stopOutput t o s) := by
  unfold stopOutput
  try dsimp only
  iterate 60 all_goals with_reducible first
    | assumption | apply State.putOut_good | apply good_ite

theorem stopTimeline_good {pq : List Instr} (g : Nat) (t : Nat) {s : State} (hg : Good pq s) :
    Good pq (stopTimeline g t s) := by
  unfold stopTimeline
  try dsimp only
  iterate 60 all_goals with_reducible first
    | assumption | intro _ | apply stopOutput_good | apply State.setPg_good | apply State.passTo_good
    | apply State.clrBit_good | apply good_foldl | apply Good.of_mk | apply Good.parts

theorem orphanFollowers_good {pq : List Instr} (g : Nat) {s : State} (hg : Good pq s) :
    Good pq (orphanFollowers g s) := by
  unfold orphanFollowers
  try dsimp only
  iterate 60 all_goals with_reducible first
    | assumption | intro _ | apply State.setPg_good | apply State.setBit_good | apply good_foldl | apply good_ite

theorem pgNowDisabled_good {pq : List Instr} (g : Nat) {s : State} (hg : Good pq s) :
    Good pq (pgNowDisabled g s) := by
  unfold pgNowDisabled
  try dsimp only
  iterate 60 all_goals with_reducible first
    | assumption | apply orphanFollowers_good | apply State.captureAll_good | apply State.settleInto_good
    | apply State.clrBit_good | apply State.setBit_good | apply good_ite | split

theorem pgHoldStop_good {pq : List Instr} (g : Nat) (t : Nat) {s : State} (hg : Good pq s) :
    Good pq (pgHoldStop g t s) := by
  unfold pgHoldStop
  try dsimp only
  iterate 60 all_goals with_reducible first
    | assumption | apply stopTimeline_good | apply State.setPg_good

theorem pgHold_good {pq : List Instr} (g : Nat) {s : State} (hg : Good pq s) :
    Good pq (pgHold g s) := by
  unfold pgHold
  try dsimp only
  iterate 60 all_goals with_reducible first
    | assumption | apply pgHoldStop_good | apply State.setPg_good | apply good_ite | split | apply Good.of_mk
    | apply Good.parts

theorem stopBoundary_good {pq : List Instr} (g : Nat) {s : State} (hg : Good pq s) :
    Good pq (stopBoundary g s) := by
  unfold stopBoundary
  try dsimp only
  iterate 60 all_goals with_reducible first
    | assumption | intro _ | apply pgHold_good | apply pgNowDisabled_good | apply stopTimeline_good | apply pgArm_good
    | apply State.doIf_good | apply State.clrBit_good | apply good_getD | apply good_ite | split

theorem pgResume_good {pq : List Instr} (g : Nat) {s : State} (hg : Good pq s) :
    Good pq (pgResume g s) := by
  unfold pgResume
  try dsimp only
  iterate 60 all_goals with_reducible first
    | assumption | apply pgArm_good | apply State.setPg_good | apply good_ite | split | apply Good.of_mk
    | apply Good.parts

theorem periodBoundary_good {pq : List Instr} (g : Nat) {s : State} (hg : Good pq s) :
    Good pq (periodBoundary g s) := by
  unfold periodBoundary
  try dsimp only
  iterate 60 all_goals with_reducible first
    | assumption | apply pgHoldStop_good | apply startPeriod_good | apply good_ite | split

theorem releaseOutputs_good {pq : List Instr} {s : State} (hg : Good pq s) :
    Good pq (releaseOutputs s) := by
  unfold releaseOutputs
  try dsimp only
  iterate 60 all_goals with_reducible first
    | assumption | intro _ | apply State.setOut_good | apply good_foldl | apply good_ite

theorem accSnap_good {pq : List Instr} (g : Nat) {s : State} (hg : Good pq s) :
    Good pq (accSnap g s) := by
  unfold accSnap
  try dsimp only
  iterate 60 all_goals with_reducible first
    | assumption | intro _ | apply State.setBit_good | apply good_foldl | apply Good.of_mk | apply Good.parts

theorem delayRetrim_good {pq : List Instr} (rangeEnd : Bool) {s : State} (hg : Good pq s) :
    Good pq (delayRetrim rangeEnd s) := by
  unfold delayRetrim
  try dsimp only
  iterate 60 all_goals with_reducible first
    | assumption | apply State.setBitIf_good | apply State.setBit_good | apply good_ite

end Sys2Proof.Machine
end

