-- ==== Sys2Proof/Laws/GoodLaw.lean ====
section
/-! SUPPORT. The operations of Law.lean keep the memories, the reserved bits of the registers, and the queue. -/

namespace Sys2Proof.Machine

theorem State.setLaw_good {pq : List Instr} {s : State} (n : Nat) (x : LawState) (hg : Good pq s) :
    Good pq (State.setLaw s n x) := by
  unfold State.setLaw
  try dsimp only
  iterate 60 all_goals with_reducible first
    | assumption | apply Good.of_mk | apply Good.parts

theorem State.setLawWord_good {pq : List Instr} {s : State} (n : Nat) (w : Nat) (v : Cell) (hg : Good pq s) :
    Good pq (State.setLawWord s n w v) := by
  unfold State.setLawWord
  try dsimp only
  iterate 60 all_goals with_reducible first
    | assumption | apply Good.of_mk | apply Good.parts

theorem State.setTableEntry_good {pq : List Instr} {s : State} (i : Nat) (v : BitVec 48) (hg : Good pq s) :
    Good pq (State.setTableEntry s i v) := by
  unfold State.setTableEntry
  try dsimp only
  iterate 60 all_goals with_reducible first
    | assumption | apply Good.of_mk | apply Good.parts

theorem limitEvent_good {pq : List Instr} (n : Nat) (cause : Nat) (code : Nat) (pc : Nat) {s : State} (hg : Good pq s) :
    Good pq (limitEvent n cause code pc s) := by
  unfold limitEvent
  try dsimp only
  iterate 60 all_goals with_reducible first
    | assumption | apply State.setBit_good | apply State.setReg_good | apply good_ite

theorem State.eccEvent_good {pq : List Instr} {s : State} (hg : Good pq s) :
    Good pq (State.eccEvent s) := by
  unfold State.eccEvent
  try dsimp only
  iterate 60 all_goals with_reducible first
    | assumption | apply Good.of_mk | apply Good.parts

theorem lawCount_good {pq : List Instr} (n : Nat) (a : Nat) {s : State} (hg : Good pq s) :
    Good pq (lawCount n a s) := by
  unfold lawCount
  try dsimp only
  iterate 60 all_goals with_reducible first
    | assumption | apply State.countEvent_good

theorem lawPut_good {pq : List Instr} (n : Nat) (w : Nat) (x : Int) {s : State} (hg : Good pq s) :
    Good pq (lawPut n w x s) := by
  unfold lawPut
  try dsimp only
  iterate 60 all_goals with_reducible first
    | assumption | apply State.setLawWord_good | apply State.setBitIf_good

theorem lawSetC_good {pq : List Instr} (n : Nat) (c : Bool) {s : State} (hg : Good pq s) :
    Good pq (lawSetC n c s) := by
  unfold lawSetC
  try dsimp only
  iterate 60 all_goals with_reducible first
    | assumption | apply State.putBit_good

theorem lawClose_good {pq : List Instr} (n : Nat) {s : State} (hg : Good pq s) :
    Good pq (lawClose n s) := by
  unfold lawClose
  try dsimp only
  iterate 60 all_goals with_reducible first
    | assumption | apply State.setLaw_good

theorem lawIdleClose_good {pq : List Instr} (n : Nat) {s : State} (hg : Good pq s) :
    Good pq (lawIdleClose n s) := by
  unfold lawIdleClose
  try dsimp only
  iterate 60 all_goals with_reducible first
    | assumption | apply lawClose_good | apply good_ite

theorem endRun_good {pq : List Instr} (n : Nat) {s : State} (hg : Good pq s) :
    Good pq (endRun n s) := by
  unfold endRun
  try dsimp only
  iterate 60 all_goals with_reducible first
    | assumption | apply lawIdleClose_good | apply lawCount_good | apply State.setLaw_good | apply State.clrBit_good
    | apply State.setFld_good | apply good_ite

theorem lawFinish_good {pq : List Instr} (n : Nat) (w : BitVec 64) (pc : Nat) {s : State} (hg : Good pq s) :
    Good pq (lawFinish n w pc s) := by
  unfold lawFinish
  try dsimp only
  iterate 60 all_goals with_reducible first
    | assumption | apply endRun_good | apply limitEvent_good | apply State.setLaw_good | apply State.setFld_good
    | apply good_ite

theorem lawCorrected_good {pq : List Instr} (entry : Option Nat) {s : State} (hg : Good pq s) :
    Good pq (lawCorrected entry s) := by
  unfold lawCorrected
  try dsimp only
  iterate 60 all_goals with_reducible first
    | assumption | apply State.countSat_good | apply State.setBit_good | apply State.setReg_good | apply good_ite
    | split

theorem lawEccEnd_good {pq : List Instr} (n : Nat) {s : State} (hg : Good pq s) :
    Good pq (lawEccEnd n s) := by
  unfold lawEccEnd
  try dsimp only
  iterate 60 all_goals with_reducible first
    | assumption | apply endRun_good | apply State.eccEvent_good | apply limitEvent_good

theorem lawExec_good {pq : List Instr} (n : Nat) (body : BitVec 64 → State → State × LawNext) {s : State} (h_body : ∀ y0 y1, Good pq y1 → Good pq (body y0 y1).1) (hg : Good pq s) :
    Good pq (lawExec n body s) := by
  unfold lawExec
  try dsimp only
  iterate 60 all_goals with_reducible first
    | assumption | intro _ | apply h_body | apply lawFinish_good | apply State.setLaw_good | apply lawStall_good
    | apply State.setFld_good | apply good_ite | split

theorem lawOperation_good {pq : List Instr} (n : Nat) (code : Nat) (ecc : LawEcc) (body : BitVec 64 → State → State × LawNext) {s : State} (h_body : ∀ y0 y1, Good pq y1 → Good pq (body y0 y1).1) (hg : Good pq s) :
    Good pq (lawOperation n code ecc body s) := by
  unfold lawOperation
  try dsimp only
  iterate 60 all_goals with_reducible first
    | assumption | intro _ | apply h_body | apply lawExec_good | apply lawEccEnd_good | apply lawCorrected_good
    | apply State.passTo_good | apply State.setFld_good | apply good_ite | split | apply Good.of_mk | apply Good.parts

theorem lawWrite_good {pq : List Instr} (n : Nat) (f : BitVec 64 → State → Int) (w : BitVec 64) {s : State} (hg : Good pq s) :
    Good pq (lawWrite n f w s).1 := by
  unfold lawWrite
  try dsimp only
  iterate 60 all_goals with_reducible first
    | assumption | apply lawPut_good

theorem lawEnd_good {pq : List Instr} (x0 : Nat) (x1 : BitVec 64) {s : State} (hg : Good pq s) :
    Good pq (lawEnd x0 x1 s).1 := by
  unfold lawEnd
  try dsimp only
  iterate 60 all_goals with_reducible first
    | assumption

theorem lawNop_good {pq : List Instr} (x0 : Nat) (x1 : BitVec 64) {s : State} (hg : Good pq s) :
    Good pq (lawNop x0 x1 s).1 := by
  unfold lawNop
  try dsimp only
  iterate 60 all_goals with_reducible first
    | assumption

theorem lawMov_good {pq : List Instr} (n : Nat) (x0 : BitVec 64) {s : State} (hg : Good pq s) :
    Good pq (lawMov n x0 s).1 := by
  unfold lawMov
  try dsimp only
  iterate 60 all_goals with_reducible first
    | assumption | apply lawWrite_good

theorem lawLdi_good {pq : List Instr} (n : Nat) (x0 : BitVec 64) {s : State} (hg : Good pq s) :
    Good pq (lawLdi n x0 s).1 := by
  unfold lawLdi
  try dsimp only
  iterate 60 all_goals with_reducible first
    | assumption | apply lawWrite_good

theorem lawAdd_good {pq : List Instr} (n : Nat) (x0 : BitVec 64) {s : State} (hg : Good pq s) :
    Good pq (lawAdd n x0 s).1 := by
  unfold lawAdd
  try dsimp only
  iterate 60 all_goals with_reducible first
    | assumption | apply lawWrite_good

theorem lawSub_good {pq : List Instr} (n : Nat) (x0 : BitVec 64) {s : State} (hg : Good pq s) :
    Good pq (lawSub n x0 s).1 := by
  unfold lawSub
  try dsimp only
  iterate 60 all_goals with_reducible first
    | assumption | apply lawWrite_good

theorem lawNeg_good {pq : List Instr} (n : Nat) (x0 : BitVec 64) {s : State} (hg : Good pq s) :
    Good pq (lawNeg n x0 s).1 := by
  unfold lawNeg
  try dsimp only
  iterate 60 all_goals with_reducible first
    | assumption | apply lawWrite_good

theorem lawAbs_good {pq : List Instr} (n : Nat) (x0 : BitVec 64) {s : State} (hg : Good pq s) :
    Good pq (lawAbs n x0 s).1 := by
  unfold lawAbs
  try dsimp only
  iterate 60 all_goals with_reducible first
    | assumption | apply lawWrite_good

theorem lawMin_good {pq : List Instr} (n : Nat) (x0 : BitVec 64) {s : State} (hg : Good pq s) :
    Good pq (lawMin n x0 s).1 := by
  unfold lawMin
  try dsimp only
  iterate 60 all_goals with_reducible first
    | assumption | apply lawWrite_good

theorem lawMax_good {pq : List Instr} (n : Nat) (x0 : BitVec 64) {s : State} (hg : Good pq s) :
    Good pq (lawMax n x0 s).1 := by
  unfold lawMax
  try dsimp only
  iterate 60 all_goals with_reducible first
    | assumption | apply lawWrite_good

theorem lawShl_good {pq : List Instr} (n : Nat) (x0 : BitVec 64) {s : State} (hg : Good pq s) :
    Good pq (lawShl n x0 s).1 := by
  unfold lawShl
  try dsimp only
  iterate 60 all_goals with_reducible first
    | assumption | apply lawWrite_good

theorem lawShr_good {pq : List Instr} (n : Nat) (x0 : BitVec 64) {s : State} (hg : Good pq s) :
    Good pq (lawShr n x0 s).1 := by
  unfold lawShr
  try dsimp only
  iterate 60 all_goals with_reducible first
    | assumption | apply lawWrite_good

theorem lawMul_good {pq : List Instr} (n : Nat) (x0 : BitVec 64) {s : State} (hg : Good pq s) :
    Good pq (lawMul n x0 s).1 := by
  unfold lawMul
  try dsimp only
  iterate 60 all_goals with_reducible first
    | assumption | apply lawWrite_good

theorem lawMac_good {pq : List Instr} (n : Nat) (x0 : BitVec 64) {s : State} (hg : Good pq s) :
    Good pq (lawMac n x0 s).1 := by
  unfold lawMac
  try dsimp only
  iterate 60 all_goals with_reducible first
    | assumption | apply lawWrite_good

theorem lawMsu_good {pq : List Instr} (n : Nat) (x0 : BitVec 64) {s : State} (hg : Good pq s) :
    Good pq (lawMsu n x0 s).1 := by
  unfold lawMsu
  try dsimp only
  iterate 60 all_goals with_reducible first
    | assumption | apply lawWrite_good

theorem lawLim_good {pq : List Instr} (n : Nat) (w : BitVec 64) {s : State} (hg : Good pq s) :
    Good pq (lawLim n w s).1 := by
  unfold lawLim
  try dsimp only
  iterate 60 all_goals with_reducible first
    | assumption | apply lawSetC_good | apply lawPut_good | apply limitEvent_good | apply good_ite

theorem lawChk_good {pq : List Instr} (n : Nat) (w : BitVec 64) {s : State} (hg : Good pq s) :
    Good pq (lawChk n w s).1 := by
  unfold lawChk
  try dsimp only
  iterate 60 all_goals with_reducible first
    | assumption | apply limitEvent_good | apply good_ite

theorem lawTrip_good {pq : List Instr} (n : Nat) (w : BitVec 64) {s : State} (hg : Good pq s) :
    Good pq (lawTrip n w s).1 := by
  unfold lawTrip
  try dsimp only
  iterate 60 all_goals with_reducible first
    | assumption | apply limitEvent_good

theorem lawSkip_good {pq : List Instr} (n : Nat) (w : BitVec 64) {s : State} (hg : Good pq s) :
    Good pq (lawSkip n w s).1 := by
  unfold lawSkip
  try dsimp only
  iterate 60 all_goals with_reducible first
    | assumption | apply State.setLaw_good | apply good_ite

theorem lawBr_good {pq : List Instr} (n : Nat) (w : BitVec 64) {s : State} (hg : Good pq s) :
    Good pq (lawBr n w s).1 := by
  unfold lawBr
  try dsimp only
  iterate 60 all_goals with_reducible first
    | assumption

theorem lawDjnz_good {pq : List Instr} (n : Nat) (w : BitVec 64) {s : State} (hg : Good pq s) :
    Good pq (lawDjnz n w s).1 := by
  unfold lawDjnz
  try dsimp only
  iterate 60 all_goals with_reducible first
    | assumption | apply lawPut_good

theorem lawSelmin_good {pq : List Instr} (n : Nat) (w : BitVec 64) {s : State} (hg : Good pq s) :
    Good pq (lawSelmin n w s).1 := by
  unfold lawSelmin
  try dsimp only
  iterate 60 all_goals with_reducible first
    | assumption | apply State.setLawWord_good | apply good_ite | split

theorem lawWdut_good {pq : List Instr} (n : Nat) (w : BitVec 64) {s : State} (hg : Good pq s) :
    Good pq (lawWdut n w s).1 := by
  unfold lawWdut
  try dsimp only
  iterate 60 all_goals with_reducible first
    | assumption | apply lawSetC_good | apply State.setLaw_good

theorem lawOut_good {pq : List Instr} (n : Nat) (w : BitVec 64) {s : State} (hg : Good pq s) :
    Good pq (lawOut n w s).1 := by
  unfold lawOut
  try dsimp only
  iterate 60 all_goals with_reducible first
    | assumption | apply State.offer_good | apply good_ite | split

theorem State.servePort_good {pq : List Instr} {s : State} (p : Nat) (hg : Good pq s) :
    Good pq (State.servePort s p) := by
  unfold State.servePort
  try dsimp only
  iterate 60 all_goals with_reducible first
    | assumption | apply Good.of_mk | apply Good.parts

theorem tableFatal_good {pq : List Instr} (i : Nat) {s : State} (hg : Good pq s) :
    Good pq (tableFatal i s) := by
  unfold tableFatal
  try dsimp only
  iterate 60 all_goals with_reducible first
    | assumption | apply State.eccEvent_good | apply State.setBit_good | apply State.setReg_good

theorem lookupEntry_good {pq : List Instr} (n : Nat) (i : Nat) (ecc : TableEcc) {s : State} (hg : Good pq s) :
    Good pq (lookupEntry n i ecc s).2 := by
  unfold lookupEntry
  try dsimp only
  iterate 60 all_goals with_reducible first
    | assumption | apply tableFatal_good | apply lawCorrected_good | apply limitEvent_good | apply good_ite | split

theorem lawStoreRead_good {pq : List Instr} (entry : Option Nat) (ecc : WordEcc) {s : State} (hg : Good pq s) :
    Good pq (lawStoreRead entry ecc s).2 := by
  unfold lawStoreRead
  try dsimp only
  iterate 60 all_goals with_reducible first
    | assumption | apply tableFatal_good | apply lawCorrected_good | apply State.eccEvent_good | apply good_ite
    | split

theorem lutServed_good {pq : List Instr} (n : Nat) (ecc : TableEcc) (w : BitVec 64) {s : State} (hg : Good pq s) :
    Good pq (lutServed n ecc w s) := by
  unfold lutServed
  try dsimp only
  iterate 60 all_goals with_reducible first
    | assumption | apply lookupEntry_good | apply lawSetC_good | apply lawPut_good

theorem lutxServed_good {pq : List Instr} (n : Nat) (ecc : TableEcc) (w : BitVec 64) {s : State} (hg : Good pq s) :
    Good pq (lutxServed n ecc w s) := by
  unfold lutxServed
  try dsimp only
  iterate 60 all_goals with_reducible first
    | assumption | apply lookupEntry_good | apply lawSetC_good | apply lawPut_good

theorem lookup_good {pq : List Instr} (n : Nat) (served : BitVec 64 → State → State) (w : BitVec 64) {s : State} (h_served : ∀ y0 y1, Good pq y1 → Good pq (served y0 y1)) (hg : Good pq s) :
    Good pq (lookup n served w s).1 := by
  unfold lookup
  try dsimp only
  iterate 60 all_goals with_reducible first
    | assumption | intro _ | apply h_served | apply State.servePort_good | apply good_ite | split

theorem serveWaiting_good {pq : List Instr} (n : Nat) (ecc : TableEcc) {s : State} (hg : Good pq s) :
    Good pq (serveWaiting n ecc s) := by
  unfold serveWaiting
  try dsimp only
  iterate 60 all_goals with_reducible first
    | assumption | apply lutxServed_good | apply lutServed_good | apply lawFinish_good | apply good_ite

theorem landStore_good {pq : List Instr} (t : TableStore) {s : State} (hg : Good pq s) :
    Good pq (landStore t s) := by
  unfold landStore
  try dsimp only
  iterate 60 all_goals with_reducible first
    | assumption | apply State.servePort_good | apply State.setTableEntry_good | apply Good.of_mk | apply Good.parts

theorem landTableStore_good {pq : List Instr} (p : Nat) {s : State} (hg : Good pq s) :
    Good pq (landTableStore p s) := by
  unfold landTableStore
  try dsimp only
  iterate 60 all_goals with_reducible first
    | assumption | apply landStore_good | apply good_ite | split

theorem lookupServed_good {pq : List Instr} (p : Nat) (ecc : TableEcc) {s : State} (hg : Good pq s) :
    Good pq (lookupServed p ecc s) := by
  unfold lookupServed
  try dsimp only
  iterate 60 all_goals with_reducible first
    | assumption | apply landTableStore_good | apply serveWaiting_good | apply State.servePort_good
    | apply State.passTo_good | apply good_ite | split | apply Good.of_mk | apply Good.parts

theorem serveAtPort_good {pq : List Instr} (p : Nat) (n : Nat) {s : State} (hg : Good pq s) :
    Good pq (serveAtPort p n s) := by
  unfold serveAtPort
  try dsimp only
  iterate 60 all_goals with_reducible first
    | assumption | intro _ | apply serveWaiting_good | apply lookup_good | apply lutxServed_good
    | apply lutServed_good | apply State.servePort_good | apply lawOperation_good | apply good_ite | split

theorem awaitPort_good {pq : List Instr} (p : Nat) (x0 : Nat) {s : State} (hg : Good pq s) :
    Good pq (awaitPort p x0 s) := by
  induction x0 generalizing s with
  | zero => exact hg
  | succ k ih =>
    unfold awaitPort
    refine good_ite (ih (State.passTo_good _ hg)) ?_
    split
    · exact ih (serveAtPort_good _ _ hg)
    · exact hg

theorem applyLatch_good {pq : List Instr} (n : Nat) (l : Latch) {s : State} (hg : Good pq s) :
    Good pq (applyLatch n l s) := by
  unfold applyLatch
  try dsimp only
  iterate 60 all_goals with_reducible first
    | assumption | apply State.setLawWord_good | apply State.setBit_good | apply good_ite

theorem applyLatches_good {pq : List Instr} (n : Nat) {s : State} (hg : Good pq s) :
    Good pq (applyLatches n s) := by
  unfold applyLatches
  try dsimp only
  iterate 60 all_goals with_reducible first
    | assumption | intro _ | apply applyLatch_good | apply State.setLaw_good | apply good_foldl

theorem latchApply_good {pq : List Instr} (n : Nat) {s : State} (hg : Good pq s) :
    Good pq (latchApply n s) := by
  unfold latchApply
  try dsimp only
  iterate 60 all_goals with_reducible first
    | assumption | apply applyLatches_good | apply State.passTo_good | apply good_ite | split

theorem startRun_good {pq : List Instr} (n : Nat) (entry : Nat) (earliest : Nat) {s : State} (hg : Good pq s) :
    Good pq (startRun n entry earliest s) := by
  unfold startRun
  try dsimp only
  iterate 60 all_goals with_reducible first
    | assumption | apply lawSetC_good | apply lawCount_good | apply State.setLaw_good | apply State.setBit_good
    | apply good_ite

theorem dispatch_good {pq : List Instr} (n : Nat) (e : Nat) (trigger : Option Latch) {s : State} (hg : Good pq s) :
    Good pq (dispatch n e trigger s) := by
  unfold dispatch
  try dsimp only
  iterate 60 all_goals with_reducible first
    | assumption | apply startRun_good | apply applyLatches_good | apply State.setLawWord_good
    | apply State.setLaw_good | apply good_ite | split

theorem lawDispatch_good {pq : List Instr} (n : Nat) (ecc : LawEcc) {s : State} (hg : Good pq s) :
    Good pq (lawDispatch n ecc s) := by
  unfold lawDispatch
  try dsimp only
  iterate 60 all_goals with_reducible first
    | assumption | apply dispatch_good | apply lawCorrected_good | apply lawIdleClose_good | apply State.passTo_good
    | apply good_ite | split

theorem lawAccept_good {pq : List Instr} (n : Nat) (q : Nat) (payload : Payload) {s : State} (hg : Good pq s) :
    Good pq (lawAccept n q payload s) := by
  unfold lawAccept
  try dsimp only
  iterate 60 all_goals with_reducible first
    | assumption | apply lawIdleClose_good | apply lawCount_good | apply State.setLaw_good | apply good_ite

theorem lawAtHeat_good {pq : List Instr} (n : Nat) {s : State} (hg : Good pq s) :
    Good pq (lawAtHeat n s) := by
  unfold lawAtHeat
  try dsimp only
  iterate 60 all_goals with_reducible first
    | assumption | apply lawClose_good | apply State.setLaw_good | apply State.setBit_good | apply good_ite

theorem lawsAtHeat_good {pq : List Instr} {s : State} (hg : Good pq s) :
    Good pq (lawsAtHeat s) := by
  unfold lawsAtHeat
  try dsimp only
  iterate 60 all_goals with_reducible first
    | assumption | intro _ | apply lawAtHeat_good | apply good_foldl

theorem issueLaw_good {pq : List Instr} (n : Nat) (q : Nat) {s : State} (hg : Good pq s) :
    Good pq (issueLaw n q s) := by
  unfold issueLaw
  try dsimp only
  iterate 60 all_goals with_reducible first
    | assumption | intro _ | apply lawOut_good | apply lawExec_good | apply State.passTo_good | apply good_ite

theorem lawShadowLand_good {pq : List Instr} (n : Nat) {s : State} (hg : Good pq s) :
    Good pq (lawShadowLand n s) := by
  unfold lawShadowLand
  try dsimp only
  iterate 60 all_goals with_reducible first
    | assumption | apply State.setLaw_good | apply shadowLand_good | apply good_ite | split

theorem lawDisable_good {pq : List Instr} (n : Nat) {s : State} (hg : Good pq s) :
    Good pq (lawDisable n s) := by
  unfold lawDisable
  try dsimp only
  iterate 60 all_goals with_reducible first
    | assumption | apply lawIdleClose_good | apply State.setLaw_good | apply State.clrBit_good
    | apply State.setBit_good | apply good_ite

theorem lawDisabledNow_good {pq : List Instr} (n : Nat) {s : State} (hg : Good pq s) :
    Good pq (lawDisabledNow n s) := by
  unfold lawDisabledNow
  try dsimp only
  iterate 60 all_goals with_reducible first
    | assumption | intro _ | apply lawIdleClose_good | apply State.setLaw_good | apply State.settleInto_good
    | apply State.clrBit_good | apply State.setBit_good | apply good_foldl | apply good_ite

theorem lawEnable_good {pq : List Instr} (n : Nat) {s : State} (hg : Good pq s) :
    Good pq (lawEnable n s) := by
  unfold lawEnable
  try dsimp only
  iterate 60 all_goals with_reducible first
    | assumption | apply State.setLaw_good | apply State.clrBit_good | apply State.setBit_good | apply good_ite

theorem stateLoWrite_good {pq : List Instr} (r : Nat) (v : Word) {s : State} (hg : Good pq s) :
    Good pq (stateLoWrite r v s) := by
  unfold stateLoWrite
  try dsimp only
  iterate 60 all_goals with_reducible first
    | assumption | apply State.setReader_good

theorem stateHiWrite_good {pq : List Instr} (r : Nat) (n : Nat) (w : Nat) (v : Word) {s : State} (hg : Good pq s) :
    Good pq (stateHiWrite r n w v s) := by
  unfold stateHiWrite
  try dsimp only
  iterate 60 all_goals with_reducible first
    | assumption | apply State.setLawWord_good

theorem stateLoRead_good {pq : List Instr} (r : Nat) (n : Nat) (w : Nat) {s : State} (hg : Good pq s) :
    Good pq (stateLoRead r n w s).2 := by
  unfold stateLoRead
  try dsimp only
  iterate 60 all_goals with_reducible first
    | assumption | apply State.setReader_good

theorem tableLoWrite_good {pq : List Instr} (r : Nat) (v : Word) {s : State} (hg : Good pq s) :
    Good pq (tableLoWrite r v s) := by
  unfold tableLoWrite
  try dsimp only
  iterate 60 all_goals with_reducible first
    | assumption | apply State.setReader_good

theorem tableHiWrite_good {pq : List Instr} (r : Nat) (i : Nat) (v : Word) {s : State} (hg : Good pq s) :
    Good pq (tableHiWrite r i v s) := by
  unfold tableHiWrite
  try dsimp only
  iterate 60 all_goals with_reducible first
    | assumption | apply Good.of_mk | apply Good.parts

theorem flushTable_good {pq : List Instr} (r : Nat) {s : State} (hg : Good pq s) :
    Good pq (flushTable r s) := by
  unfold flushTable
  try dsimp only
  iterate 60 all_goals with_reducible first
    | assumption | intro _ | apply awaitPort_good | apply landStore_good | apply good_foldl

theorem tableLoRead_good {pq : List Instr} (r : Nat) (i : Nat) {s : State} (hg : Good pq s) :
    Good pq (tableLoRead r i s).2 := by
  unfold tableLoRead
  try dsimp only
  iterate 60 all_goals with_reducible first
    | assumption | apply flushTable_good | apply awaitPort_good | apply State.servePort_good
    | apply State.setReader_good

end Sys2Proof.Machine
end

