-- ==== Sys2Proof/Laws/GoodDecim.lean ====
section
/-! SUPPORT. The operations of Decim.lean keep the memories, the reserved bits of the registers, and the queue. -/

namespace Sys2Proof.Machine

theorem State.setPath_good {pq : List Instr} {s : State} (n : Nat) (fine : Bool) (p : PathState) (hg : Good pq s) :
    Good pq (State.setPath s n fine p) := by
  unfold State.setPath
  try dsimp only
  iterate 60 all_goals with_reducible first
    | assumption | apply good_ite | split | apply Good.of_mk | apply Good.parts

theorem State.setStream_good {pq : List Instr} {s : State} (n : Nat) (x : StreamState) (hg : Good pq s) :
    Good pq (State.setStream s n x) := by
  unfold State.setStream
  try dsimp only
  iterate 60 all_goals with_reducible first
    | assumption | apply Good.of_mk | apply Good.parts

theorem State.markStream_good {pq : List Instr} {s : State} (src : Nat) (up : Bool) (hg : Good pq s) :
    Good pq (State.markStream s src up) := by
  unfold State.markStream
  try dsimp only
  iterate 60 all_goals with_reducible first
    | assumption | apply State.setStream_good | apply good_ite | split | apply Good.of_mk | apply Good.parts

theorem modulatorRunning_good {pq : List Instr} (n : Nat) {s : State} (hg : Good pq s) :
    Good pq (modulatorRunning n s) := by
  unfold modulatorRunning
  try dsimp only
  iterate 60 all_goals with_reducible first
    | assumption | apply State.markStream_good | apply State.setBit_good | apply good_ite

theorem modulatorStopped_good {pq : List Instr} (n : Nat) {s : State} (hg : Good pq s) :
    Good pq (modulatorStopped n s) := by
  unfold modulatorStopped
  try dsimp only
  iterate 60 all_goals with_reducible first
    | assumption | apply State.markStream_good | apply State.clrBit_good

theorem overload_good {pq : List Instr} (n : Nat) {s : State} (hg : Good pq s) :
    Good pq (overload n s) := by
  unfold overload
  try dsimp only
  iterate 60 all_goals with_reducible first
    | assumption | apply State.setBitIf_good

theorem xbRunning_good {pq : List Instr} (n : Nat) {s : State} (hg : Good pq s) :
    Good pq (xbRunning n s) := by
  unfold xbRunning
  try dsimp only
  iterate 60 all_goals with_reducible first
    | assumption | apply State.markStream_good | apply State.passTo_good | apply State.setBit_good | apply good_ite

theorem xbStopped_good {pq : List Instr} (n : Nat) {s : State} (hg : Good pq s) :
    Good pq (xbStopped n s) := by
  unfold xbStopped
  try dsimp only
  iterate 60 all_goals with_reducible first
    | assumption | apply State.markStream_good | apply State.clrBit_good

theorem countViolations_good {pq : List Instr} (n : Nat) (x0 : Nat) {s : State} (hg : Good pq s) :
    Good pq (countViolations n x0 s) := by
  induction x0 generalizing s with
  | zero => exact hg
  | succ k ih =>
    unfold countViolations
    refine ih (good_ite (State.setReg_good _ _ hg) hg)

theorem streamFlags_good {pq : List Instr} (src : Nat) (bits : List (Bool × Bool)) {s : State} (hg : Good pq s) :
    Good pq (streamFlags src bits s) := by
  unfold streamFlags
  try dsimp only
  iterate 60 all_goals with_reducible first
    | assumption | apply countViolations_good | apply State.setBitIf_good | apply good_ite

theorem deliverCells_good {pq : List Instr} (src : Nat) (cells : List StreamCell) {s : State} (hg : Good pq s) :
    Good pq (deliverCells src cells s) := by
  unfold deliverCells
  try dsimp only
  iterate 60 all_goals with_reducible first
    | assumption | intro _ | apply streamFlags_good | apply State.setStream_good | apply good_map_getD
    | apply good_getD | apply good_ite | split | apply Good.of_mk | apply Good.parts

theorem stuck_good {pq : List Instr} (n : Nat) (cells : List StreamCell) {s : State} (hg : Good pq s) :
    Good pq (stuck n cells s) := by
  unfold stuck
  try dsimp only
  iterate 60 all_goals with_reducible first
    | assumption | apply deliverCells_good | apply good_ite

theorem State.auditPath_good {pq : List Instr} {s : State} (n : Nat) (fine : Bool) (hg : Good pq s) :
    Good pq (State.auditPath s n fine) := by
  unfold State.auditPath
  try dsimp only
  iterate 60 all_goals with_reducible first
    | assumption | apply State.raiseAlarm_good | apply State.setBit_good | apply good_ite

theorem pathOutput_good {pq : List Instr} (n : Nat) (fine : Bool) (viol : Bool) {s : State} (hg : Good pq s) :
    Good pq (pathOutput n fine viol s) := by
  unfold pathOutput
  try dsimp only
  iterate 60 all_goals with_reducible first
    | assumption | apply State.auditPath_good | apply State.setPath_good | apply State.countEvent_good
    | apply State.setBitIf_good | apply State.setBit_good | apply good_ite

theorem stopAtResult_good {pq : List Instr} (n : Nat) (fine : Bool) {s : State} (hg : Good pq s) :
    Good pq (stopAtResult n fine s) := by
  unfold stopAtResult
  try dsimp only
  iterate 60 all_goals with_reducible first
    | assumption | apply State.setPath_good | apply good_ite

theorem pathResult_good {pq : List Instr} (n : Nat) (fine : Bool) (cells : List StreamCell) {s : State} (hg : Good pq s) :
    Good pq (pathResult n fine cells s) := by
  unfold pathResult
  try dsimp only
  iterate 60 all_goals with_reducible first
    | assumption | apply stopAtResult_good | apply pathOutput_good | apply deliverCells_good
    | apply State.setPath_good | apply good_ite

theorem issuePath_good {pq : List Instr} (n : Nat) (fine : Bool) {s : State} (hg : Good pq s) :
    Good pq (issuePath n fine s) := by
  unfold issuePath
  try dsimp only
  iterate 60 all_goals with_reducible first
    | assumption | apply State.auditPath_good | apply State.setPath_good | apply State.offer_good
    | apply State.setBitIf_good | apply State.setReg_good | apply good_ite | split

theorem startPath_good {pq : List Instr} (n : Nat) (fine : Bool) {s : State} (hg : Good pq s) :
    Good pq (startPath n fine s) := by
  unfold startPath
  try dsimp only
  iterate 60 all_goals with_reducible first
    | assumption | apply State.setPath_good | apply State.clrBit_good

theorem pathStart_good {pq : List Instr} (n : Nat) (fine : Bool) {s : State} (hg : Good pq s) :
    Good pq (pathStart n fine s) := by
  unfold pathStart
  try dsimp only
  iterate 60 all_goals with_reducible first
    | assumption | apply startPath_good | apply State.setPath_good | apply State.setBit_good | apply good_ite

theorem pathDisable_good {pq : List Instr} (n : Nat) (fine : Bool) {s : State} (hg : Good pq s) :
    Good pq (pathDisable n fine s) := by
  unfold pathDisable
  try dsimp only
  iterate 60 all_goals with_reducible first
    | assumption | apply State.setPath_good | apply State.clrBit_good

theorem pathsAtHeat_good {pq : List Instr} {s : State} (hg : Good pq s) :
    Good pq (pathsAtHeat s) := by
  unfold pathsAtHeat
  try dsimp only
  iterate 60 all_goals with_reducible first
    | assumption | apply good_ite | split | apply Good.of_mk | apply Good.parts

theorem pathDisabled_good {pq : List Instr} (n : Nat) (fine : Bool) {s : State} (hg : Good pq s) :
    Good pq (pathDisabled n fine s) := by
  unfold pathDisabled
  try dsimp only
  iterate 60 all_goals with_reducible first
    | assumption | apply startPath_good | apply State.setBit_good | apply good_ite

theorem decSnap_good {pq : List Instr} (n : Nat) {s : State} (hg : Good pq s) :
    Good pq (decSnap n s) := by
  unfold decSnap
  try dsimp only
  iterate 60 all_goals with_reducible first
    | assumption | apply State.setBit_good | apply State.setFld_good | apply State.setReg_good

end Sys2Proof.Machine
end

