-- ==== Sys2Proof/Laws/GoodSurvey.lean ====
section
/-! SUPPORT. The operations of Survey.lean keep the memories, the reserved bits of the registers, and the queue. -/

namespace Sys2Proof.Machine

theorem State.setSv_good {pq : List Instr} {s : State} (n : Nat) (x : SvState) (hg : Good pq s) :
    Good pq (State.setSv s n x) := by
  unfold State.setSv
  try dsimp only
  iterate 60 all_goals with_reducible first
    | assumption | apply Good.of_mk | apply Good.parts

theorem svTurn_good {pq : List Instr} (n : Nat) (keep : Bool) {s : State} (hg : Good pq s) :
    Good pq (svTurn n keep s) := by
  unfold svTurn
  try dsimp only
  iterate 60 all_goals with_reducible first
    | assumption | apply State.setSv_good | apply State.putBit_good | apply good_ite | split | apply Good.of_mk
    | apply Good.parts

theorem svBegin_good {pq : List Instr} (n : Nat) {s : State} (hg : Good pq s) :
    Good pq (svBegin n s) := by
  unfold svBegin
  try dsimp only
  iterate 60 all_goals with_reducible first
    | assumption | apply svTurn_good | apply State.setSv_good | apply State.setBit_good | apply good_ite | split
    | apply Good.of_mk | apply Good.parts

theorem converterStartupDone_good {pq : List Instr} (n : Nat) {s : State} (hg : Good pq s) :
    Good pq (converterStartupDone n s) := by
  unfold converterStartupDone
  try dsimp only
  iterate 60 all_goals with_reducible first
    | assumption | apply svTurn_good | apply good_ite

theorem passTrigger_good {pq : List Instr} (n : Nat) {s : State} (hg : Good pq s) :
    Good pq (passTrigger n s) := by
  unfold passTrigger
  try dsimp only
  iterate 60 all_goals with_reducible first
    | assumption | apply svBegin_good | apply State.setSv_good | apply State.setBit_good | apply State.setFld_good
    | apply good_ite | split

theorem surveyStart_good {pq : List Instr} (n : Nat) {s : State} (hg : Good pq s) :
    Good pq (surveyStart n s) := by
  unfold surveyStart
  try dsimp only
  iterate 60 all_goals with_reducible first
    | assumption | apply passTrigger_good | apply good_ite | split

theorem surveyTrigger_good {pq : List Instr} (n : Nat) {s : State} (hg : Good pq s) :
    Good pq (surveyTrigger n s) := by
  unfold surveyTrigger
  try dsimp only
  iterate 60 all_goals with_reducible first
    | assumption | apply passTrigger_good | apply good_ite | split

theorem endPass_good {pq : List Instr} (n : Nat) {s : State} (hg : Good pq s) :
    Good pq (endPass n s) := by
  unfold endPass
  try dsimp only
  iterate 60 all_goals with_reducible first
    | assumption | apply State.clrBit_good | apply State.setFld_good

theorem entryEnd_good {pq : List Instr} (n : Nat) (raw : BitVec 24) {s : State} (hg : Good pq s) :
    Good pq (entryEnd n raw s) := by
  unfold entryEnd
  try dsimp only
  iterate 60 all_goals with_reducible first
    | assumption | apply endPass_good | apply svTurn_good | apply State.setSv_good | apply State.setBit_good
    | apply State.setFld_good | apply State.setReg_good | apply good_ite | split | apply Good.of_mk | apply Good.parts

theorem urgentEnd_good {pq : List Instr} (n : Nat) (raw : BitVec 24) (u : Word) {s : State} (hg : Good pq s) :
    Good pq (urgentEnd n raw u s) := by
  unfold urgentEnd
  try dsimp only
  iterate 60 all_goals with_reducible first
    | assumption | apply svTurn_good | apply State.setSv_good | apply State.clrBit_good | apply State.setBit_good
    | apply State.setReg_good

theorem conversionEnd_good {pq : List Instr} (n : Nat) (raw : BitVec 24) {s : State} (hg : Good pq s) :
    Good pq (conversionEnd n raw s) := by
  unfold conversionEnd
  try dsimp only
  iterate 60 all_goals with_reducible first
    | assumption | apply urgentEnd_good | apply entryEnd_good | apply good_ite | split

theorem urgentRequest_good {pq : List Instr} (n : Nat) (w : Word) {s : State} (hg : Good pq s) :
    Good pq (urgentRequest n w s) := by
  unfold urgentRequest
  try dsimp only
  iterate 60 all_goals with_reducible first
    | assumption | apply svBegin_good | apply State.setSv_good | apply State.setBitIf_good | apply State.setBit_good
    | apply State.setReg_good | apply good_ite

theorem surveyDisable_good {pq : List Instr} (n : Nat) {s : State} (hg : Good pq s) :
    Good pq (surveyDisable n s) := by
  unfold surveyDisable
  try dsimp only
  iterate 60 all_goals with_reducible first
    | assumption | apply endPass_good | apply State.setSv_good | apply State.clrBit_good | apply good_ite | split

theorem surveyEnable_good {pq : List Instr} (n : Nat) {s : State} (hg : Good pq s) :
    Good pq (surveyEnable n s) := by
  unfold surveyEnable
  try dsimp only
  iterate 60 all_goals with_reducible first
    | assumption | apply State.clrBit_good | apply State.setBit_good | apply good_ite

theorem surveyDisabled_good {pq : List Instr} (n : Nat) {s : State} (hg : Good pq s) :
    Good pq (surveyDisabled n s) := by
  unfold surveyDisabled
  try dsimp only
  iterate 60 all_goals with_reducible first
    | assumption | apply State.setSv_good | apply State.setBitIf_good | apply good_ite

theorem issueSurvey_good {pq : List Instr} (n : Nat) {s : State} (hg : Good pq s) :
    Good pq (issueSurvey n s) := by
  unfold issueSurvey
  try dsimp only
  iterate 60 all_goals with_reducible first
    | assumption | apply svTurn_good | apply State.setSv_good | apply State.offer_good | apply good_ite | split

theorem svHold_good {pq : List Instr} (n : Nat) {s : State} (hg : Good pq s) :
    Good pq (svHold n s) := by
  unfold svHold
  try dsimp only
  iterate 60 all_goals with_reducible first
    | assumption | apply State.setSv_good | apply State.clrBit_good | apply Good.of_mk | apply Good.parts

theorem svResume_good {pq : List Instr} (n : Nat) {s : State} (hg : Good pq s) :
    Good pq (svResume n s) := by
  unfold svResume
  try dsimp only
  iterate 60 all_goals with_reducible first
    | assumption | apply svBegin_good | apply State.setSv_good

theorem judgeTj_good {pq : List Instr} {s : State} (hg : Good pq s) :
    Good pq (judgeTj s) := by
  unfold judgeTj
  try dsimp only
  iterate 60 all_goals with_reducible first
    | assumption | apply State.setBitIf_good | apply Good.of_mk | apply Good.parts

theorem thermalScan_good {pq : List Instr} (raws : List (BitVec 24)) {s : State} (hg : Good pq s) :
    Good pq (thermalScan raws s) := by
  unfold thermalScan
  try dsimp only
  iterate 60 all_goals with_reducible first
    | assumption | intro _ | apply judgeTj_good | apply State.setReg_good | apply good_foldl | apply good_ite

end Sys2Proof.Machine
end

