-- ==== Sys2Proof/Laws/GoodCoreState.lean ====
section
/-! SUPPORT. The operations of CoreState.lean keep the memories, the reserved bits of the registers, and the queue. -/

namespace Sys2Proof.Machine

theorem State.setCore_good {pq : List Instr} {s : State} (c : Nat) (k : Core) (hg : Good pq s) :
    Good pq (State.setCore s c k) := by
  unfold State.setCore
  try dsimp only
  iterate 60 all_goals with_reducible first
    | assumption | apply Good.of_mk | apply Good.parts

end Sys2Proof.Machine
end

