-- ==== Sys2Proof/Laws/GoodMemory.lean ====
section
/-! SUPPORT. The operations of Memory.lean keep the memories, the reserved bits of the registers, and the queue. -/

namespace Sys2Proof.Machine

theorem State.putByte_good {pq : List Instr} {s : State} (a : Nat) (b : Byte) (hg : Good pq s) :
    Good pq (State.putByte s a b) := by
  unfold State.putByte
  split
  · exact ⟨hg.1, mapWf_mapSet _ _ _ _ hg.2.1, hg.2.2⟩
  · exact ⟨mapWf_mapSet _ _ _ _ hg.1, hg.2⟩

theorem State.putBytes_good {pq : List Instr} {s : State} (x0 : Nat) (x1 : List Byte) (hg : Good pq s) :
    Good pq (State.putBytes s x0 x1) := by
  induction x1 generalizing s x0 with
  | nil => exact hg
  | cons b bs ih =>
    unfold State.putBytes
    exact ih _ (State.putByte_good _ _ hg)

theorem State.strike_good {pq : List Instr} {s : State} (a : Nat) (e : WordEcc) (hg : Good pq s) :
    Good pq (State.strike s a e) := by
  unfold State.strike
  try dsimp only
  iterate 60 all_goals with_reducible first
    | assumption | apply Good.of_mk | apply Good.parts

theorem State.fatalEcc_good {pq : List Instr} {s : State} (a : Nat) (hg : Good pq s) :
    Good pq (State.fatalEcc s a) := by
  unfold State.fatalEcc
  try dsimp only
  iterate 60 all_goals with_reducible first
    | assumption | apply State.eccEvent_good | apply State.setBit_good | apply State.setReg_good | apply good_ite
    | split | apply Good.of_mk | apply Good.parts

theorem State.countCorr_good {pq : List Instr} {s : State} (a : Nat) (hg : Good pq s) :
    Good pq (State.countCorr s a) := by
  unfold State.countCorr
  try dsimp only
  iterate 60 all_goals with_reducible first
    | assumption | apply State.setReg_good | apply good_ite

theorem State.correctedEcc_good {pq : List Instr} {s : State} (a : Nat) (hg : Good pq s) :
    Good pq (State.correctedEcc s a) := by
  unfold State.correctedEcc
  try dsimp only
  iterate 60 all_goals with_reducible first
    | assumption | apply State.countCorr_good | apply State.setBit_good | apply good_ite | split

theorem State.eccRead_good {pq : List Instr} {s : State} (a : Nat) (ecc : WordEcc) (hg : Good pq s) :
    Good pq (State.eccRead s a ecc).1 := by
  unfold State.eccRead
  try dsimp only
  iterate 60 all_goals with_reducible first
    | assumption | apply State.correctedEcc_good | apply State.fatalEcc_good | apply State.strike_good
    | apply good_ite | split | apply Good.of_mk | apply Good.parts

theorem State.landBytes_good {pq : List Instr} {s : State} (a : Nat) (bs : List Byte) (ecc : WordEcc) (hg : Good pq s) :
    Good pq (State.landBytes s a bs ecc) := by
  unfold State.landBytes
  try dsimp only
  iterate 60 all_goals with_reducible first
    | assumption | apply State.eccRead_good | apply State.strike_good | apply State.putBytes_good
    | apply State.setBit_good | apply good_ite | split | apply Good.of_mk | apply Good.parts

theorem State.landStores_good {pq : List Instr} {s : State} (c : Nat) (hg : Good pq s) :
    Good pq (State.landStores s c) := by
  unfold State.landStores
  try dsimp only
  iterate 60 all_goals with_reducible first
    | assumption | intro _ | apply State.landBytes_good | apply State.setCore_good | apply good_foldl

theorem State.landWindow_good {pq : List Instr} {s : State} (a : Nat) (bs : List Byte) (ecc : WordEcc) (hg : Good pq s) :
    Good pq (State.landWindow s a bs ecc) := by
  unfold State.landWindow
  try dsimp only
  iterate 60 all_goals with_reducible first
    | assumption | apply State.landBytes_good | apply good_ite | split

end Sys2Proof.Machine
end

