-- ==== Sys2Proof/Laws/GoodSources.lean ====
section
/-! SUPPORT. The operations of Sources.lean keep the memories, the reserved bits of the registers, and the queue. -/

namespace Sys2Proof.Machine

theorem State.stillHigh_good {pq : List Instr} {s : State} (hg : Good pq s) :
    Good pq (State.stillHigh s) := by
  unfold State.stillHigh
  try dsimp only
  iterate 60 all_goals with_reducible first
    | assumption | apply good_ite | split | apply Good.of_mk | apply Good.parts

theorem State.latching_good {pq : List Instr} (f : State → State) {s : State} (h_f : ∀ y0, Good pq y0 → Good pq (f y0)) (hg : Good pq s) :
    Good pq (State.latching f s) := by
  unfold State.latching
  try dsimp only
  iterate 60 all_goals with_reducible first
    | assumption | intro _ | apply h_f | apply State.stillHigh_good | apply good_ite | split

end Sys2Proof.Machine
end

