-- ==== Sys2Proof/Laws/GoodCoreMem.lean ====
section
/-! SUPPORT. The operations of CoreMem.lean keep the memories, the reserved bits of the registers, and the queue. -/

namespace Sys2Proof.Machine

theorem walkFault_good {pq : List Instr} (c : Nat) (level : Nat) (p : Nat) (cause : Nat) (a : Access') {s : State} (hg : Good pq s) :
    Good pq (walkFault c level p cause a s).2 := by
  unfold walkFault
  try dsimp only
  iterate 60 all_goals with_reducible first
    | assumption | apply State.setCore_good

theorem walkRead_good {pq : List Instr} (c : Nat) (level : Nat) (p : Nat) (a : Access') {s : State} (hg : Good pq s) :
    (walkRead c level p a s).Good pq := by
  unfold walkRead
  refine Try.ite_good (walkFault_good _ _ _ _ _ hg) (Try.ite_good Try.wait_good (Try.ite_good ?_ ?_))
  · exact walkFault_good _ _ _ _ _ (State.eccRead_good _ _ hg)
  · have hr := State.eccRead_good (s.coreAddr c p) .none hg
    generalize (s.eccRead (s.coreAddr c p) .none).1 = u at hr ⊢
    generalize State.word64 u c p = e
    with_reducible refine Try.ite_good ?_ (Try.ite_good ?_ ?_)
    · exact walkFault_good _ _ _ _ _ hr
    · exact Try.exc_good hr
    · exact Try.ok_good hr

theorem orEntry_good {pq : List Instr} (c : Nat) (p : Nat) (i : Nat) {s : State} (hg : Good pq s) :
    Good pq (orEntry c p i s) := by
  unfold orEntry
  try dsimp only
  iterate 60 all_goals with_reducible first
    | assumption | apply State.putByte_good

theorem pageEntry_good {pq : List Instr} (c : Nat) (a : Access') {s : State} (hg : Good pq s) :
    (pageEntry c a s).Good pq := by
  unfold pageEntry
  try dsimp only
  iterate 60 all_goals with_reducible first
    | assumption | intro _ | apply orEntry_good | apply walkRead_good | apply State.setCore_good | apply good_getD
    | apply Try.bind_good | apply Try.ok_good | apply Try.exc_good | exact Try.wait_good | apply Try.ite_good | split

theorem mapAddr_good {pq : List Instr} (c : Nat) (a : Access') {s : State} (hg : Good pq s) :
    (mapAddr c a s).Good pq := by
  unfold mapAddr
  try dsimp only
  iterate 60 all_goals with_reducible first
    | assumption | intro _ | apply pageEntry_good | apply Try.bind_good | apply Try.ok_good | apply Try.exc_good
    | exact Try.wait_good | apply Try.ite_good | split

theorem regionCheck_good {pq : List Instr} (a : Access') (p : Nat) {s : State} (hg : Good pq s) :
    (regionCheck a p s).Good pq := by
  unfold regionCheck
  try dsimp only
  iterate 60 all_goals with_reducible first
    | assumption | intro _ | apply Try.bind_good | apply Try.ok_good | apply Try.exc_good | exact Try.wait_good
    | apply Try.ite_good

theorem translate_good {pq : List Instr} (c : Nat) (a : Access') {s : State} (hg : Good pq s) :
    (translate c a s).Good pq := by
  unfold translate
  try dsimp only
  iterate 60 all_goals with_reducible first
    | assumption | intro _ | apply regionCheck_good | apply mapAddr_good | apply Try.bind_good

theorem setDirty_good {pq : List Instr} (c : Nat) (va : Nat) {s : State} (hg : Good pq s) :
    Good pq (setDirty c va s) := by
  unfold setDirty
  try dsimp only
  iterate 60 all_goals with_reducible first
    | assumption | apply orEntry_good | apply State.setCore_good | apply good_ite | split

theorem readBytes_good {pq : List Instr} (c : Nat) (a : Access') (p : Nat) (n : Nat) (ecc : WordEcc) {s : State} (hg : Good pq s) :
    (readBytes c a p n ecc s).Good pq := by
  unfold readBytes
  try dsimp only
  iterate 60 all_goals with_reducible first
    | assumption | intro _ | apply State.landStores_good | apply State.eccRead_good | apply Try.bind_good
    | apply Try.ok_good | apply Try.exc_good | exact Try.wait_good | apply Try.ite_good | split

theorem writeNow_good {pq : List Instr} (c : Nat) (p : Nat) (bs : List Byte) {s : State} (hg : Good pq s) :
    (writeNow c p bs s).Good pq := by
  unfold writeNow
  try dsimp only
  iterate 60 all_goals with_reducible first
    | assumption | intro _ | apply State.landStores_good | apply State.landBytes_good | apply Try.bind_good
    | apply Try.ok_good | apply Try.exc_good | exact Try.wait_good | apply Try.ite_good

theorem writeTcm_good {pq : List Instr} (c : Nat) (a : Access') (p : Nat) (bs : List Byte) {s : State} (hg : Good pq s) :
    (writeTcm c a p bs s).Good pq := by
  unfold writeTcm
  try dsimp only
  iterate 60 all_goals with_reducible first
    | assumption | intro _ | apply State.landBytes_good | apply State.eccRead_good | apply State.putBytes_good
    | apply Try.bind_good | apply Try.ok_good | apply Try.exc_good | exact Try.wait_good | apply Try.ite_good | split

theorem writeStore_good {pq : List Instr} (c : Nat) (a : Access') (p : Nat) (bs : List Byte) {s : State} (hg : Good pq s) :
    (writeStore c a p bs s).Good pq := by
  unfold writeStore
  try dsimp only
  iterate 60 all_goals with_reducible first
    | assumption | intro _ | apply writeTcm_good | apply writeNow_good | apply State.setCore_good
    | apply Try.bind_good | apply Try.ok_good | apply Try.exc_good | exact Try.wait_good | apply Try.ite_good

theorem stackAccess_good {pq : List Instr} (c : Nat) (i : StackId) (user : Bool) (write : Bool) (va : Nat) {s : State} (hg : Good pq s) :
    (stackAccess c i user write va s).Good pq := by
  unfold stackAccess
  try dsimp only
  iterate 60 all_goals with_reducible first
    | assumption | intro _ | apply translate_good | apply Try.bind_good | apply Try.ok_good | apply Try.exc_good
    | exact Try.wait_good | apply Try.ite_good

theorem spillCell_good {pq : List Instr} (c : Nat) (i : StackId) (user : Bool) (va : Nat) (v : BitVec 64) {s : State} (hg : Good pq s) :
    (spillCell c i user va v s).Good pq := by
  unfold spillCell
  try dsimp only
  iterate 60 all_goals with_reducible first
    | assumption | intro _ | apply stackAccess_good | apply writeNow_good | apply setDirty_good | apply Try.bind_good
    | apply Try.ok_good | apply Try.exc_good | exact Try.wait_good | apply Try.ite_good | split

theorem fillCell_good {pq : List Instr} (c : Nat) (i : StackId) (user : Bool) (va : Nat) {s : State} (hg : Good pq s) :
    (fillCell c i user va s).Good pq := by
  unfold fillCell
  try dsimp only
  iterate 60 all_goals with_reducible first
    | assumption | intro _ | apply stackAccess_good | apply readBytes_good | apply Try.bind_good | apply Try.ok_good

theorem State.setStack_good {pq : List Instr} {s : State} (c : Nat) (i : StackId) (x : Stack) (hg : Good pq s) :
    Good pq (State.setStack s c i x) := by
  unfold State.setStack
  try dsimp only
  iterate 60 all_goals with_reducible first
    | assumption | apply State.setCore_good

theorem spillOne_good {pq : List Instr} (c : Nat) (i : StackId) (user : Bool) (lo : Nat) (hi : Nat) {s : State} (hg : Good pq s) :
    (spillOne c i user lo hi s).Good pq := by
  unfold spillOne
  try dsimp only
  iterate 60 all_goals with_reducible first
    | assumption | intro _ | apply State.setStack_good | apply spillCell_good | apply Try.bind_good
    | apply Try.ok_good | apply Try.exc_good | exact Try.wait_good | apply Try.ite_good | split

theorem cacheCell_good {pq : List Instr} (c : Nat) (i : StackId) (user : Bool) (lo : Nat) (hi : Nat) (a : Nat) {s : State} (hg : Good pq s) :
    (cacheCell c i user lo hi a s).Good pq := by
  unfold cacheCell
  try dsimp only
  iterate 60 all_goals with_reducible first
    | assumption | intro _ | apply spillOne_good | apply State.setStack_good | apply fillCell_good
    | apply Try.bind_good | apply Try.ok_good | apply Try.exc_good | exact Try.wait_good | apply Try.ite_good | split

theorem prepare_good {pq : List Instr} (c : Nat) (i : StackId) (user : Bool) (pops : Nat) (pushes : Nat) {s : State} (hg : Good pq s) :
    (prepare c i user pops pushes s).Good pq := by
  unfold prepare
  try dsimp only
  iterate 60 all_goals with_reducible first
    | assumption | intro _ | apply cacheCell_good | apply spillOne_good | apply Try.bind_good | apply tryEach_good
    | apply Try.ok_good | apply Try.exc_good | exact Try.wait_good | apply Try.ite_good | split

end Sys2Proof.Machine
end

