-- ==== Sys2Proof/Laws/GoodLockstep.lean ====
section
/-! SUPPORT. The operations of Lockstep.lean keep the memories, the reserved bits of the registers, and the queue. -/

namespace Sys2Proof.Machine

theorem copyWindow_wf {v : Byte} (src dst : Nat) (m' m : SMap Byte) (w' : mapWf (fun _ => v) m' = true)
    (w : mapWf (fun _ => v) m = true) : mapWf (fun _ => v) (copyWindow src dst m' m) = true := by
  unfold copyWindow
  rw [List.append_assoc]
  refine mapWfFrom_append _ _ _ 0 dst (Nat.zero_le _) (mapWfFrom_filter _ _ _ _ w) (fun p hp => ?_) ?_
  · simpa using (List.mem_filter.mp hp).2
  · refine mapWfFrom_append _ _ _ _ (dst + 0x40000) (Nat.le_add_right ..) ?_ (fun p hp => ?_) (mapWfFrom_filter_ge _ _ _ _ w)
    · have h := mapWfFrom_shift v _ src dst src (Nat.le_refl _) (mapWfFrom_filter_ge (fun _ => v) _ 0 src
        (mapWfFrom_filter (fun _ => v) (fun p => decide (p.1 < src + 0x40000)) _ _ w'))
      rw [List.filter_filter, Nat.sub_self, Nat.zero_add] at h
      exact h
    · simp only [List.mem_map, List.mem_filter, Bool.and_eq_true, decide_eq_true_eq] at hp
      obtain ⟨q, ⟨_, h1, h2⟩, rfl⟩ := hp
      show q.1 - src + dst < dst + 0x40000
      omega

theorem setPairState_good {pq : List Instr} (p : Nat) (st : Nat) {s : State} (hg : Good pq s) :
    Good pq (setPairState p st s) := by
  unfold setPairState
  try dsimp only
  iterate 60 all_goals with_reducible first
    | assumption | apply State.setFld_good

theorem State.setDelayed_good {pq : List Instr} {s : State} (p : Nat) (q : List DelayEntry) (hg : Good pq s) :
    Good pq (State.setDelayed s p q) := by
  unfold State.setDelayed
  try dsimp only
  iterate 60 all_goals with_reducible first
    | assumption | apply Good.of_mk | apply Good.parts

/-- Entries written one after the other keep the canonical form. -/
theorem mapWf_foldl {α β : Type} [DecidableEq α] (v : α) (f : β → Nat × α) (l : List β) (m : SMap α)
    (w : mapWf (fun _ => v) m = true) :
    mapWf (fun _ => v) (l.foldl (fun x p => mapSet (fun _ => v) x (f p).1 (f p).2) m) = true := by
  induction l generalizing m with
  | nil => exact w
  | cons p l ih => exact ih _ (mapWf_mapSet _ _ _ _ w)

theorem State.backTo_good {pq : List Instr} {s : State} (c : Nat) (m : CheckerMark) (hg : Good pq s) :
    Good pq (State.backTo s c m) := by
  exact ⟨mapWf_foldl 0 (fun p : Nat × Byte => (tcmBase c + p.1, p.2)) m.tcm _ (mapWf_filter _ _ _ hg.1), hg.2⟩

theorem stopChecker_good {pq : List Instr} (p : Nat) {s : State} (hg : Good pq s) :
    Good pq (stopChecker p s) := by
  unfold stopChecker
  try dsimp only
  iterate 60 all_goals with_reducible first
    | assumption | apply State.backTo_good | apply good_ite | split | apply Good.of_mk | apply Good.parts

theorem pairDetect_good {pq : List Instr} (p : Nat) (cause : Nat) (group : Nat) (bit : Nat) (pc : Word) {s : State} (hg : Good pq s) :
    Good pq (pairDetect p cause group bit pc s) := by
  unfold pairDetect
  try dsimp only
  iterate 60 all_goals with_reducible first
    | assumption | apply stopChecker_good | apply State.setDelayed_good | apply setPairState_good
    | apply State.setCore_good | apply quenchRequest_good | apply State.setBit_good | apply State.setFld_good
    | apply State.setReg_good | apply good_ite | split | apply Good.of_mk | apply Good.parts

theorem compareEntry_good {pq : List Instr} (p : Nat) {s : State} (e : DelayEntry) (hg : Good pq s) :
    Good pq (compareEntry p s e) := by
  unfold compareEntry
  try dsimp only
  iterate 60 all_goals with_reducible first
    | assumption | intro _ | apply pairDetect_good | apply State.spent_good | apply good_getD | apply good_ite | split
    | apply Good.of_mk | apply Good.parts

theorem delayEntry_good {pq : List Instr} (p : Nat) (e : DelayEntry) {s : State} (hg : Good pq s) :
    Good pq (delayEntry p e s) := by
  unfold delayEntry
  try dsimp only
  iterate 60 all_goals with_reducible first
    | assumption | apply compareEntry_good | apply State.setDelayed_good | apply good_ite | split

theorem drainPair_good {pq : List Instr} (p : Nat) (x0 : List DelayEntry) {s : State} (hg : Good pq s) :
    Good pq (drainPair p x0 s) := by
  induction x0 generalizing s with
  | nil => exact hg
  | cons e q ih => exact ih (compareEntry_good _ _ (State.setDelayed_good _ _ hg))

theorem drainDelays_good {pq : List Instr} {s : State} (hg : Good pq s) :
    Good pq (drainDelays s) := by
  unfold drainDelays
  try dsimp only
  iterate 60 all_goals with_reducible first
    | assumption | intro _ | apply drainPair_good | apply good_foldl

theorem State.asChecker_good {pq : List Instr} {s : State} (c : Nat) (hg : Good pq s) :
    Good pq (State.asChecker s c) := by
  exact ⟨copyWindow_wf _ _ _ _ hg.1 (copyWindow_wf _ _ _ _ hg.1 hg.1), hg.2⟩

theorem joinChecker_good {pq : List Instr} (c : Nat) {s1 : State} {s2 : State} (hg_s1 : Good pq s1) (hg_s2 : Good pq s2) :
    Good pq (joinChecker c s1 s2) := by
  unfold joinChecker
  split
  · have h := State.eccEvent_good hg_s1
    exact ⟨copyWindow_wf _ _ _ _ hg_s2.1 h.1, h.2⟩
  · exact ⟨copyWindow_wf _ _ _ _ hg_s2.1 hg_s1.1, hg_s1.2⟩

theorem pairedReads_good {pq : List Instr} (c : Nat) (can : Bool) (fault : CmpReport) (reads : State → List Nat) (f : Bool → State → State) {s : State} (h_f : ∀ y0 y1, Good pq y1 → Good pq (f y0 y1)) (hg : Good pq s) :
    Good pq (pairedReads c can fault reads f s) := by
  unfold pairedReads
  try dsimp only
  iterate 60 all_goals with_reducible first
    | assumption | intro _ | apply h_f | apply joinChecker_good | apply State.asChecker_good | apply delayEntry_good
    | apply good_ite | split

theorem paired_good {pq : List Instr} (c : Nat) (can : Bool) (fault : CmpReport) (f : Bool → State → State) {s : State} (h_f : ∀ y0 y1, Good pq y1 → Good pq (f y0 y1)) (hg : Good pq s) :
    Good pq (paired c can fault f s) := by
  unfold paired
  try dsimp only
  iterate 60 all_goals with_reducible first
    | assumption | intro _ | apply h_f | apply pairedReads_good

end Sys2Proof.Machine
end

