-- ==== Sys2Proof/Laws/GoodLadle.lean ====
section
/-! SUPPORT. The operations of Ladle.lean keep the memories, the reserved bits of the registers, and the queue. -/

namespace Sys2Proof.Machine

theorem State.setLadle_good {pq : List Instr} {s : State} (n : Nat) (x : LadleState) (hg : Good pq s) :
    Good pq (State.setLadle s n x) := by
  unfold State.setLadle
  try dsimp only
  iterate 60 all_goals with_reducible first
    | assumption | apply Good.of_mk | apply Good.parts

theorem ladleReject_good {pq : List Instr} (n : Nat) {s : State} (hg : Good pq s) :
    Good pq (ladleReject n s) := by
  unfold ladleReject
  try dsimp only
  iterate 60 all_goals with_reducible first
    | assumption | apply State.setBit_good

theorem State.ladleWithdraw_good {pq : List Instr} {s : State} (n : Nat) (hg : Good pq s) :
    Good pq (State.ladleWithdraw s n) := by
  unfold State.ladleWithdraw
  try dsimp only
  iterate 60 all_goals with_reducible first
    | assumption | intro _ | apply State.withdraw_good | apply good_map_getD | apply good_getD | apply Good.of_mk
    | apply Good.parts

theorem ladleOff_good {pq : List Instr} (n : Nat) {s : State} (hg : Good pq s) :
    Good pq (ladleOff n s) := by
  unfold ladleOff
  try dsimp only
  iterate 60 all_goals with_reducible first
    | assumption | apply State.ladleWithdraw_good | apply State.setLadle_good | apply State.settleInto_good
    | apply State.clrBit_good | apply State.setBit_good | apply Good.of_mk | apply Good.parts

theorem ladleEnable_good {pq : List Instr} (n : Nat) {s : State} (hg : Good pq s) :
    Good pq (ladleEnable n s) := by
  unfold ladleEnable
  try dsimp only
  iterate 60 all_goals with_reducible first
    | assumption | apply ladleReject_good | apply State.clrBit_good | apply State.setBit_good | apply good_ite

theorem ladleDisable_good {pq : List Instr} (n : Nat) {s : State} (hg : Good pq s) :
    Good pq (ladleDisable n s) := by
  unfold ladleDisable
  try dsimp only
  iterate 60 all_goals with_reducible first
    | assumption | apply ladleOff_good | apply State.setLadle_good | apply State.clrBit_good | apply good_ite | split
    | apply Good.of_mk | apply Good.parts

theorem ladleGo_good {pq : List Instr} (by' : Option Nat) (n : Nat) {s : State} (hg : Good pq s) :
    Good pq (ladleGo by' n s) := by
  unfold ladleGo
  try dsimp only
  iterate 60 all_goals with_reducible first
    | assumption | apply State.ladleWithdraw_good | apply ladleReject_good | apply State.setLadle_good
    | apply State.setBit_good | apply State.setFld_good | apply good_ite | split

theorem ladleFaultClear_good {pq : List Instr} (n : Nat) {s : State} (hg : Good pq s) :
    Good pq (ladleFaultClear n s) := by
  unfold ladleFaultClear
  try dsimp only
  iterate 60 all_goals with_reducible first
    | assumption | apply State.clrBit_good | apply good_ite

theorem ladleFail_good {pq : List Instr} (n : Nat) (cause : Nat) (addr : Nat) {s : State} (hg : Good pq s) :
    Good pq (ladleFail n cause addr s) := by
  unfold ladleFail
  try dsimp only
  iterate 60 all_goals with_reducible first
    | assumption | apply ladleOff_good | apply State.clrBit_good | apply State.setBit_good | apply State.setFld_good
    | apply State.setReg_good | apply good_ite | split

theorem ladleUnitEnd_good {pq : List Instr} (n : Nat) {s : State} (hg : Good pq s) :
    Good pq (ladleUnitEnd n s) := by
  unfold ladleUnitEnd
  try dsimp only
  iterate 60 all_goals with_reducible first
    | assumption | apply ladleOff_good | apply State.setLadle_good | apply State.clrBit_good | apply State.setBit_good
    | apply good_ite | split | apply Good.of_mk | apply Good.parts

theorem sinkAccept_good {pq : List Instr} (n : Nat) (payload : Payload) {s : State} (hg : Good pq s) :
    Good pq (sinkAccept n payload s) := by
  unfold sinkAccept
  try dsimp only
  iterate 60 all_goals with_reducible first
    | assumption | apply State.setLadle_good

theorem issueLadle_good {pq : List Instr} (n : Nat) {s : State} (hg : Good pq s) :
    Good pq (issueLadle n s) := by
  unfold issueLadle
  try dsimp only
  iterate 60 all_goals with_reducible first
    | assumption | apply ladleUnitEnd_good | apply State.offer_good | apply good_ite | split

end Sys2Proof.Machine
end

