-- ==== Sys2Proof/Laws/GoodTwiast.lean ====
section
/-! SUPPORT. The operations of Twiast.lean keep the memories, the reserved bits of the registers, and the queue. -/

namespace Sys2Proof.Machine

theorem State.setPort_good {pq : List Instr} {s : State} (p : Nat) (x : TwPort) (hg : Good pq s) :
    Good pq (State.setPort s p x) := by
  unfold State.setPort
  try dsimp only
  iterate 60 all_goals with_reducible first
    | assumption | apply Good.of_mk | apply Good.parts

theorem setLink_good {pq : List Instr} (p : Nat) (l : TwLink) {s : State} (hg : Good pq s) :
    Good pq (setLink p l s) := by
  unfold setLink
  try dsimp only
  iterate 60 all_goals with_reducible first
    | assumption | apply State.setPort_good | apply State.setFld_good

theorem crcError_good {pq : List Instr} (p : Nat) {s : State} (hg : Good pq s) :
    Good pq (crcError p s) := by
  unfold crcError
  try dsimp only
  iterate 60 all_goals with_reducible first
    | assumption | apply State.countEvent_good

theorem receive_good {pq : List Instr} (p : Nat) (type : Nat) (flit : FlitWord) (body : State → State) {s : State} (h_body : ∀ y0, Good pq y0 → Good pq (body y0)) (hg : Good pq s) :
    Good pq (receive p type flit body s) := by
  unfold receive
  try dsimp only
  iterate 60 all_goals with_reducible first
    | assumption | intro _ | apply h_body | apply crcError_good | apply good_ite | split

theorem twConsFault_good {pq : List Instr} (p : Nat) {s : State} (hg : Good pq s) :
    Good pq (twConsFault p s) := by
  unfold twConsFault
  try dsimp only
  iterate 60 all_goals with_reducible first
    | assumption | apply State.raiseAlarm_good | apply State.setBit_good

theorem twCount_good {pq : List Instr} (p : Nat) (k : Nat) (n : Nat) {s : State} (hg : Good pq s) :
    Good pq (twCount p k n s) := by
  unfold twCount
  try dsimp only
  iterate 60 all_goals with_reducible first
    | assumption | apply State.setPort_good | apply State.setBitIf_good

theorem twAudit_good {pq : List Instr} (p : Nat) {s : State} (hg : Good pq s) :
    Good pq (twAudit p s) := by
  unfold twAudit
  try dsimp only
  iterate 60 all_goals with_reducible first
    | assumption | apply twConsFault_good | apply good_ite

theorem twAuditSnap_good {pq : List Instr} (p : Nat) {s : State} (hg : Good pq s) :
    Good pq (twAuditSnap p s) := by
  unfold twAuditSnap
  try dsimp only
  iterate 60 all_goals with_reducible first
    | assumption | apply State.setPort_good | apply State.setBit_good

theorem holdDead_good {pq : List Instr} (p : Nat) {s : State} (hg : Good pq s) :
    Good pq (holdDead p s) := by
  unfold holdDead
  try dsimp only
  iterate 60 all_goals with_reducible first
    | assumption | apply twAudit_good | apply twCount_good | apply State.setPort_good | apply State.setBit_good
    | apply State.setReg_good | apply good_ite | split

theorem deadClear_good {pq : List Instr} (p : Nat) {s : State} (hg : Good pq s) :
    Good pq (deadClear p s) := by
  unfold deadClear
  try dsimp only
  iterate 60 all_goals with_reducible first
    | assumption | apply holdDead_good | apply State.setPort_good | apply State.clrBit_good

theorem receiveToken_good {pq : List Instr} (p : Nat) (flit : FlitWord) {s : State} (hg : Good pq s) :
    Good pq (receiveToken p flit s) := by
  unfold receiveToken
  try dsimp only
  iterate 60 all_goals with_reducible first
    | assumption | apply holdDead_good | apply twAudit_good | apply twCount_good | apply State.setPort_good
    | apply good_ite

theorem unlockTime_good {pq : List Instr} (flag : Fld) {s : State} (hg : Good pq s) :
    Good pq (unlockTime flag s) := by
  unfold unlockTime
  try dsimp only
  iterate 60 all_goals with_reducible first
    | assumption | intro _ | apply State.latching_good | apply State.clrBit_good | apply State.setBit_good

theorem timeSourceDown_good {pq : List Instr} (p : Nat) {s : State} (hg : Good pq s) :
    Good pq (timeSourceDown p s) := by
  unfold timeSourceDown
  try dsimp only
  iterate 60 all_goals with_reducible first
    | assumption | apply unlockTime_good | apply State.clrBit_good | apply good_ite | split

theorem linkDown_good {pq : List Instr} (p : Nat) {s : State} (hg : Good pq s) :
    Good pq (linkDown p s) := by
  unfold linkDown
  try dsimp only
  iterate 60 all_goals with_reducible first
    | assumption | apply timeSourceDown_good | apply setLink_good | apply State.setBit_good

theorem resend_good {pq : List Instr} (p : Nat) {s : State} (hg : Good pq s) :
    Good pq (resend p s) := by
  unfold resend
  try dsimp only
  iterate 60 all_goals with_reducible first
    | assumption | apply linkDown_good | apply State.setPort_good | apply State.countEvent_good
    | apply State.setBit_good | apply good_ite

theorem acknowledge_good {pq : List Instr} (p : Nat) (n : Nat) {s : State} (hg : Good pq s) :
    Good pq (acknowledge p n s) := by
  unfold acknowledge
  try dsimp only
  iterate 60 all_goals with_reducible first
    | assumption | apply twAudit_good | apply twCount_good | apply State.setPort_good

theorem receiveLink_good {pq : List Instr} (p : Nat) (flit : FlitWord) {s : State} (hg : Good pq s) :
    Good pq (receiveLink p flit s) := by
  unfold receiveLink
  try dsimp only
  iterate 60 all_goals with_reducible first
    | assumption | apply acknowledge_good | apply resend_good | apply twConsFault_good | apply State.setPort_good
    | apply good_ite

theorem receiveAudit_good {pq : List Instr} (p : Nat) (flit : FlitWord) {s : State} (hg : Good pq s) :
    Good pq (receiveAudit p flit s) := by
  unfold receiveAudit
  try dsimp only
  iterate 60 all_goals with_reducible first
    | assumption | apply twConsFault_good | apply good_ite

theorem goUp_good {pq : List Instr} (p : Nat) (r : BitVec 48) (fresh : Bool) {s : State} (hg : Good pq s) :
    Good pq (goUp p r fresh s) := by
  unfold goUp
  try dsimp only
  iterate 60 all_goals with_reducible first
    | assumption | apply acknowledge_good | apply twConsFault_good | apply setLink_good | apply State.setPort_good
    | apply State.setBit_good | apply good_ite | split | apply Good.of_mk | apply Good.parts

theorem receiveInit_good {pq : List Instr} (p : Nat) (flit : FlitWord) {s : State} (hg : Good pq s) :
    Good pq (receiveInit p flit s) := by
  unfold receiveInit
  try dsimp only
  iterate 60 all_goals with_reducible first
    | assumption | apply goUp_good | apply State.setBit_good | apply State.setReg_good | apply good_ite

theorem startTrain_good {pq : List Instr} (p : Nat) {s : State} (hg : Good pq s) :
    Good pq (startTrain p s) := by
  unfold startTrain
  try dsimp only
  iterate 60 all_goals with_reducible first
    | assumption | apply setLink_good | apply State.clrBit_good

theorem portEnable_good {pq : List Instr} (p : Nat) {s : State} (hg : Good pq s) :
    Good pq (portEnable p s) := by
  unfold portEnable
  try dsimp only
  iterate 60 all_goals with_reducible first
    | assumption | apply startTrain_good | apply State.setPort_good | apply State.setBit_good | apply good_ite

theorem portDisable_good {pq : List Instr} (p : Nat) {s : State} (hg : Good pq s) :
    Good pq (portDisable p s) := by
  unfold portDisable
  try dsimp only
  iterate 60 all_goals with_reducible first
    | assumption | apply State.setPort_good | apply State.clrBit_good | apply good_ite

theorem portDisabled_good {pq : List Instr} (p : Nat) {s : State} (hg : Good pq s) :
    Good pq (portDisabled p s) := by
  unfold portDisabled
  try dsimp only
  iterate 60 all_goals with_reducible first
    | assumption | apply startTrain_good | apply timeSourceDown_good | apply setLink_good | apply State.setPort_good
    | apply State.settleInto_good | apply State.setBit_good | apply good_ite

theorem linkStep_good {pq : List Instr} (p : Nat) (fr : TwLink) (dst : TwLink) {s : State} (hg : Good pq s) :
    Good pq (linkStep p fr dst s) := by
  unfold linkStep
  try dsimp only
  iterate 60 all_goals with_reducible first
    | assumption | apply setLink_good | apply good_ite

theorem bringUpTimeout_good {pq : List Instr} (p : Nat) {s : State} (hg : Good pq s) :
    Good pq (bringUpTimeout p s) := by
  unfold bringUpTimeout
  try dsimp only
  iterate 60 all_goals with_reducible first
    | assumption | apply setLink_good | apply State.countSat_good | apply good_ite

theorem linkLoss_good {pq : List Instr} (p : Nat) {s : State} (hg : Good pq s) :
    Good pq (linkLoss p s) := by
  unfold linkLoss
  try dsimp only
  iterate 60 all_goals with_reducible first
    | assumption | apply linkDown_good | apply good_ite

theorem sendToken_good {pq : List Instr} (p : Nat) (t : TwToken) {s : State} (hg : Good pq s) :
    Good pq (sendToken p t s) := by
  unfold sendToken
  try dsimp only
  iterate 60 all_goals with_reducible first
    | assumption | apply twAudit_good | apply twCount_good | apply State.setPort_good

theorem takeLanded_good {pq : List Instr} (q : Nat) (t : TwToken) {s : State} (hg : Good pq s) :
    Good pq (takeLanded q t s) := by
  unfold takeLanded
  try dsimp only
  iterate 60 all_goals with_reducible first
    | assumption | apply holdDead_good | apply twAudit_good | apply twCount_good | apply State.setPort_good

theorem tokenSlot_good {pq : List Instr} (p : Nat) {s : State} (hg : Good pq s) :
    Good pq (tokenSlot p s) := by
  unfold tokenSlot
  try dsimp only
  iterate 60 all_goals with_reducible first
    | assumption | apply takeLanded_good | apply sendToken_good | apply State.setPort_good | apply good_ite | split

theorem sendLink_good {pq : List Instr} (p : Nat) {s : State} (hg : Good pq s) :
    Good pq (sendLink p s) := by
  unfold sendLink
  try dsimp only
  iterate 60 all_goals with_reducible first
    | assumption | apply State.setPort_good

theorem sendDue_good {pq : List Instr} (p : Nat) (d : ControlDue) {s : State} (hg : Good pq s) :
    Good pq (sendDue p d s) := by
  unfold sendDue
  try dsimp only
  iterate 60 all_goals with_reducible first
    | assumption | apply sendLink_good | apply State.setPort_good | apply good_ite | split

theorem flitTransmit_good {pq : List Instr} (p : Nat) (due : Option ControlDue) {s : State} (hg : Good pq s) :
    Good pq (flitTransmit p due s) := by
  unfold flitTransmit
  try dsimp only
  iterate 60 all_goals with_reducible first
    | assumption | apply sendDue_good | apply sendLink_good | apply tokenSlot_good | apply State.setPort_good
    | apply good_ite | split

theorem retryTimeout_good {pq : List Instr} (p : Nat) {s : State} (hg : Good pq s) :
    Good pq (retryTimeout p s) := by
  unfold retryTimeout
  try dsimp only
  iterate 60 all_goals with_reducible first
    | assumption | apply resend_good | apply good_ite

theorem twAccept_good {pq : List Instr} (p : Nat) (payload : Payload) {s : State} (hg : Good pq s) :
    Good pq (twAccept p payload s) := by
  unfold twAccept
  try dsimp only
  iterate 60 all_goals with_reducible first
    | assumption | apply twCount_good | apply State.setPort_good | apply State.spent_good

theorem issueTwiast_good {pq : List Instr} (p : Nat) {s : State} (hg : Good pq s) :
    Good pq (issueTwiast p s) := by
  unfold issueTwiast
  try dsimp only
  iterate 60 all_goals with_reducible first
    | assumption | apply twAudit_good | apply twCount_good | apply State.setPort_good | apply State.offer_good
    | apply good_ite | split

theorem queueControl_good {pq : List Instr} (p : Nat) (f : FlitWord) {s : State} (hg : Good pq s) :
    Good pq (queueControl p f s) := by
  unfold queueControl
  try dsimp only
  iterate 60 all_goals with_reducible first
    | assumption | apply State.setPort_good | apply good_ite

theorem applyTheta_good {pq : List Instr} (sum : Int) (n : Nat) {s : State} (hg : Good pq s) :
    Good pq (applyTheta sum n s) := by
  unfold applyTheta
  try dsimp only
  iterate 60 all_goals with_reducible first
    | assumption | intro _ | apply unlockTime_good | apply State.latching_good | apply State.spent_good
    | apply State.putBit_good | apply State.clrBit_good | apply State.setFld_good | apply good_ite | split
    | apply Good.of_mk | apply Good.parts

theorem receiveResp_good {pq : List Instr} (p : Nat) (flit : FlitWord) (arrived : Stamp) {s : State} (hg : Good pq s) :
    Good pq (receiveResp p flit arrived s) := by
  unfold receiveResp
  try dsimp only
  iterate 60 all_goals with_reducible first
    | assumption | intro _ | apply applyTheta_good | apply good_foldl | apply good_ite | split | apply Good.of_mk
    | apply Good.parts

theorem receiveReq_good {pq : List Instr} (p : Nat) (arrived : Stamp) (answered : Stamp) {s : State} (hg : Good pq s) :
    Good pq (receiveReq p arrived answered s) := by
  unfold receiveReq
  try dsimp only
  iterate 60 all_goals with_reducible first
    | assumption | apply queueControl_good

theorem timeExchange_good {pq : List Instr} (sent : Stamp) {s : State} (hg : Good pq s) :
    Good pq (timeExchange sent s) := by
  unfold timeExchange
  try dsimp only
  iterate 60 all_goals with_reducible first
    | assumption | apply queueControl_good | apply good_ite | split | apply Good.of_mk | apply Good.parts

theorem timeLost_good {pq : List Instr} {s : State} (hg : Good pq s) :
    Good pq (timeLost s) := by
  unfold timeLost
  try dsimp only
  iterate 60 all_goals with_reducible first
    | assumption | apply unlockTime_good | apply State.clrBit_good | apply good_ite | split

theorem adopt_good {pq : List Instr} (h : HeatPlan) {s : State} (hg : Good pq s) :
    Good pq (adopt h s) := by
  unfold adopt
  try dsimp only
  iterate 60 all_goals with_reducible first
    | assumption | apply State.setBitIf_good | apply State.setBit_good | apply State.setFld_good | apply Good.of_mk
    | apply Good.parts

theorem floodHeat_good {pq : List Instr} (h : HeatPlan) (except : Nat) {s : State} (hg : Good pq s) :
    Good pq (floodHeat h except s) := by
  unfold floodHeat
  try dsimp only
  iterate 60 all_goals with_reducible first
    | assumption | intro _ | apply queueControl_good | apply good_foldl | apply good_ite

theorem receiveHeat_good {pq : List Instr} (p : Nat) (flit : FlitWord) {s : State} (hg : Good pq s) :
    Good pq (receiveHeat p flit s) := by
  unfold receiveHeat
  try dsimp only
  iterate 60 all_goals with_reducible first
    | assumption | apply floodHeat_good | apply adopt_good | apply good_ite

theorem heatIssue_good {pq : List Instr} {s : State} (hg : Good pq s) :
    Good pq (heatIssue s) := by
  unfold heatIssue
  try dsimp only
  iterate 60 all_goals with_reducible first
    | assumption | intro _ | apply floodHeat_good | apply adopt_good | apply State.setBit_good | apply good_getD
    | apply good_ite | split | apply Good.of_mk | apply Good.parts

theorem heatRepeat_good {pq : List Instr} {s : State} (hg : Good pq s) :
    Good pq (heatRepeat s) := by
  unfold heatRepeat
  try dsimp only
  iterate 60 all_goals with_reducible first
    | assumption | apply floodHeat_good | apply good_ite | split

theorem heatForget_good {pq : List Instr} {s : State} (hg : Good pq s) :
    Good pq (heatForget s) := by
  unfold heatForget
  try dsimp only
  iterate 60 all_goals with_reducible first
    | assumption | apply Good.of_mk | apply Good.parts

end Sys2Proof.Machine
end

