-- ==== Sys2Proof/Laws/GoodRunnerAccept.lean ====
section
/-! SUPPORT. The operations of RunnerAccept.lean keep the memories, the reserved bits of the registers, and the queue. -/

namespace Sys2Proof.Machine

theorem State.atCredit_good {pq : List Instr} {s : State} (code : Nat) (hg : Good pq s) :
    Good pq (State.atCredit s code) := by
  unfold State.atCredit
  try dsimp only
  iterate 60 all_goals with_reducible first
    | assumption | apply State.passCredit_good | apply good_ite | split | apply Good.of_mk | apply Good.parts

theorem tokenIssue_good {pq : List Instr} (code : Nat) {s : State} (hg : Good pq s) :
    Good pq (tokenIssue code s) := by
  unfold tokenIssue
  try dsimp only
  iterate 60 all_goals with_reducible first
    | assumption | apply State.atCredit_good | apply issueTwiast_good | apply issueLadle_good | apply issueSurvey_good
    | apply issuePath_good | apply issueLaw_good | apply issuePush_good | apply good_ite | split | apply Good.of_mk
    | apply Good.parts

theorem consumerTake_good {pq : List Instr} (code : Nat) (t : Token) {s : State} (hg : Good pq s) :
    Good pq (consumerTake code t s) := by
  unfold consumerTake
  try dsimp only
  iterate 60 all_goals with_reducible first
    | assumption | apply twAccept_good | apply sinkAccept_good | apply lawAccept_good | apply shadowToken_good
    | apply snapAccept_good | apply good_ite

theorem markHead_good {pq : List Instr} (n : Nat) (q : Nat) {s : State} (hg : Good pq s) :
    Good pq (markHead n q s) := by
  unfold markHead
  try dsimp only
  iterate 60 all_goals with_reducible first
    | assumption | apply State.setChan_good | apply good_ite | split

theorem tokenAccept_good {pq : List Instr} (code : Nat) {s : State} (hg : Good pq s) :
    Good pq (tokenAccept code s) := by
  unfold tokenAccept
  try dsimp only
  iterate 60 all_goals with_reducible first
    | assumption | apply markHead_good | apply consumerTake_good | apply State.settle_good | apply good_ite | split
    | apply Good.of_mk | apply Good.parts

theorem heatEffects_good {pq : List Instr} {s : State} (hg : Good pq s) :
    Good pq (heatEffects s) := by
  unfold heatEffects
  try dsimp only
  iterate 60 all_goals with_reducible first
    | assumption | apply pathsAtHeat_good | apply lawsAtHeat_good | apply pgsAtHeat_good | apply State.countWrap_good
    | apply State.setBit_good | apply Good.of_mk | apply Good.parts

theorem heatEnds_good {pq : List Instr} {s : State} (hg : Good pq s) :
    Good pq (heatEnds s) := by
  unfold heatEnds
  try dsimp only
  iterate 60 all_goals with_reducible first
    | assumption | apply State.clrBit_good | apply Good.of_mk | apply Good.parts

theorem heatBoundary_good {pq : List Instr} (start : State → State) {s : State} (h_start : ∀ y0, Good pq y0 → Good pq (start y0)) (hg : Good pq s) :
    Good pq (heatBoundary start s) := by
  unfold heatBoundary
  try dsimp only
  iterate 60 all_goals with_reducible first
    | assumption | intro _ | apply h_start | apply heatEnds_good | apply good_ite

theorem localHeat_good {pq : List Instr} {s : State} (hg : Good pq s) :
    Good pq (localHeat s) := by
  unfold localHeat
  try dsimp only
  iterate 60 all_goals with_reducible first
    | assumption | intro _ | apply heatBoundary_good | apply heatEffects_good | apply State.passTo_good
    | apply good_getD | apply Good.of_mk | apply Good.parts

theorem groupHeat_good {pq : List Instr} {s : State} (hg : Good pq s) :
    Good pq (groupHeat s) := by
  unfold groupHeat
  try dsimp only
  iterate 60 all_goals with_reducible first
    | assumption | intro _ | apply heatBoundary_good | apply heatEffects_good | apply good_ite

theorem systemHeat_good {pq : List Instr} {s : State} (hg : Good pq s) :
    Good pq (systemHeat s) := by
  unfold systemHeat
  try dsimp only
  iterate 60 all_goals with_reducible first
    | assumption | intro _ | apply heatBoundary_good | apply heatEffects_good | apply State.passTo_good
    | apply State.setReg_good | apply good_ite | split | apply Good.of_mk | apply Good.parts

theorem heatStart_good {pq : List Instr} {s : State} (hg : Good pq s) :
    Good pq (heatStart s) := by
  unfold heatStart
  try dsimp only
  iterate 60 all_goals with_reducible first
    | assumption | apply systemHeat_good | apply groupHeat_good | apply localHeat_good | apply good_ite | split

end Sys2Proof.Machine
end

