-- ==== Sys2Proof/Laws/GoodAssay.lean ====
section
/-! SUPPORT. The operations of Assay.lean keep the memories, the reserved bits of the registers, and the queue. -/

namespace Sys2Proof.Machine

theorem Good.clearMem {pq : List Instr} {s : State} (lo hi : Nat) (hg : Good pq s) :
    Good pq { s with mem := clearMap lo hi s.mem } :=
  ⟨mapWf_filter _ _ _ hg.1, hg.2⟩

theorem State.setAssay_good {pq : List Instr} {s : State} (x : AssayState) (hg : Good pq s) :
    Good pq (State.setAssay s x) := by
  unfold State.setAssay
  try dsimp only
  iterate 60 all_goals with_reducible first
    | assumption | apply Good.of_mk | apply Good.parts

theorem startRegion_good {pq : List Instr} {s : State} (r : Nat) (hg : Good pq s) :
    Good pq (startRegion s r) := by
  unfold startRegion
  try dsimp only
  iterate 60 all_goals with_reducible first
    | assumption | apply boot_good | apply State.setAssay_good | apply State.setReg_good | apply good_ite | split
    | apply Good.of_mk | apply Good.parts

theorem assayRegionStart_good {pq : List Instr} {s : State} (hg : Good pq s) :
    Good pq (assayRegionStart s) := by
  unfold assayRegionStart
  try dsimp only
  iterate 60 all_goals with_reducible first
    | assumption | intro _ | apply startRegion_good | apply State.reset_good | apply good_foldl | apply good_ite
    | split

theorem clearRegs_good {pq : List Instr} (lo : Nat) (hi : Nat) {s : State} (hg : Good pq s) :
    Good pq (clearRegs lo hi s) := by
  refine ⟨hg.1, hg.2.1, hg.2.2.1, fun a => ?_, hg.2.2.2.2⟩
  have e := mapGet_filter resetWord (fun k => decide (k < lo) || decide (hi ≤ k)) s.regs a
  change mapGet resetWord (s.regs.filter _) a &&& ~~~definedMask a = 0
  rw [e]
  split
  · exact hg.2.2.2.1 a
  · exact resetWord_reserved a

theorem regionReset_good {pq : List Instr} (r : Nat) {s : State} (hg : Good pq s) :
    Good pq (regionReset r s) := by
  unfold regionReset
  try dsimp only
  iterate 60 all_goals with_reducible first
    | assumption | apply Good.clearMem | apply clearRegs_good | apply State.setCore_good | apply good_ite
    | apply Good.of_mk | apply Good.parts

theorem limpRestart_good {pq : List Instr} (p : Nat) {s : State} (hg : Good pq s) :
    Good pq (limpRestart p s) := by
  unfold limpRestart
  try dsimp only
  iterate 60 all_goals with_reducible first
    | assumption | apply State.landStores_good | apply State.setCore_good | apply State.reset_good | apply Good.of_mk
    | apply Good.parts

theorem decidePair_good {pq : List Instr} (p : Nat) (outcome : Nat) {s : State} (hg : Good pq s) :
    Good pq (decidePair p outcome s) := by
  unfold decidePair
  try dsimp only
  iterate 60 all_goals with_reducible first
    | assumption | apply limpRestart_good | apply State.setAssay_good | apply setPairState_good
    | apply State.setBit_good | apply State.setFld_good | apply good_ite | split | apply Good.of_mk | apply Good.parts

theorem arbitrate_good {pq : List Instr} (x : Arbitration) (r : Nat) (failed : Bool) {s : State} (hg : Good pq s) :
    Good pq (arbitrate x r failed s) := by
  unfold arbitrate
  try dsimp only
  iterate 60 all_goals with_reducible first
    | assumption | apply decidePair_good | apply State.setAssay_good | apply good_ite

theorem holdCore_good {pq : List Instr} (r : Nat) {s : State} (hg : Good pq s) :
    Good pq (holdCore r s) := by
  unfold holdCore
  try dsimp only
  iterate 60 all_goals with_reducible first
    | assumption | apply State.setAssay_good | apply setPairState_good | apply good_ite

theorem recordResult_good {pq : List Instr} (r : Nat) (last : Nat) (boot : Bool) {s : State} (hg : Good pq s) :
    Good pq (recordResult r last boot s) := by
  unfold recordResult
  try dsimp only
  iterate 60 all_goals with_reducible first
    | assumption | apply boot_good | apply State.countSat_good | apply State.setBitIf_good | apply State.putBit_good
    | apply State.setBit_good | apply State.setFld_good | apply good_ite

theorem laneResult_good {pq : List Instr} (lane : Nat) (r : Nat) (result : AssayResult) (boot : Bool) {s : State} (hg : Good pq s) :
    Good pq (laneResult lane r result boot s) := by
  unfold laneResult
  try dsimp only
  iterate 60 all_goals with_reducible first
    | assumption | apply boot_good | apply recordResult_good | apply regionReset_good | apply State.setAssay_good
    | apply State.eccEvent_good | apply good_ite | split | apply Good.of_mk | apply Good.parts

theorem assayRegionEnd_good {pq : List Instr} (lane : Nat) (result : AssayResult) {s : State} (hg : Good pq s) :
    Good pq (assayRegionEnd lane result s) := by
  unfold assayRegionEnd
  try dsimp only
  iterate 60 all_goals with_reducible first
    | assumption | apply laneResult_good | apply holdCore_good | apply arbitrate_good | apply good_ite | split
    | apply Good.of_mk | apply Good.parts

theorem rejectAssay_good {pq : List Instr} {s : State} (hg : Good pq s) :
    Good pq (rejectAssay s) := by
  unfold rejectAssay
  try dsimp only
  iterate 60 all_goals with_reducible first
    | assumption | apply State.setBit_good

theorem assayRequest_good {pq : List Instr} (k : Nat) (bits : Word) {s : State} (hg : Good pq s) :
    Good pq (assayRequest k bits s) := by
  unfold assayRequest
  try dsimp only
  iterate 60 all_goals with_reducible first
    | assumption | apply rejectAssay_good | apply State.setReg_good | apply good_ite

theorem assayCancel_good {pq : List Instr} (k : Nat) (bits : Word) {s : State} (hg : Good pq s) :
    Good pq (assayCancel k bits s) := by
  unfold assayCancel
  try dsimp only
  iterate 60 all_goals with_reducible first
    | assumption | apply State.setReg_good

end Sys2Proof.Machine
end

