-- ==== Sys2Proof/Laws/GoodFlash.lean ====
section
/-! SUPPORT. The operations of Flash.lean keep the memories, the reserved bits of the registers, and the queue. -/

namespace Sys2Proof.Machine

/-- Bytes written to the array keep its canonical form. -/
theorem flashPut_wf (x : Nat) (bs : List Byte) (m : SMap Byte) (w : mapWf (fun _ => (0xFF : Byte)) m = true) :
    mapWf (fun _ => (0xFF : Byte)) (flashPut x bs m) = true := by
  induction bs generalizing x m with
  | nil => exact w
  | cons b bs ih =>
    unfold flashPut
    exact ih _ _ (mapWf_mapSet _ _ _ _ w)

theorem State.setFlash_good {pq : List Instr} {s : State} (f : FlashState) (hg : Good pq s)
    (hf : f.bytes = s.flash.bytes) : Good pq (s.setFlash f) :=
  ⟨hg.1, hg.2.1, hf ▸ hg.2.2.1, hg.2.2.2⟩

theorem State.cleanFlash_good {pq : List Instr} {s : State} (a : Nat) (b : Nat) (hg : Good pq s) :
    Good pq (State.cleanFlash s a b) := by
  unfold State.cleanFlash
  try dsimp only
  iterate 60 all_goals with_reducible first
    | assumption | apply Good.of_mk | apply Good.parts

theorem programLine_good {pq : List Instr} (l : Nat) (data : List Byte) {s : State} (hg : Good pq s) :
    Good pq (programLine l data s) := by
  exact ⟨hg.1, hg.2.1, flashPut_wf _ _ _ hg.2.2.1, hg.2.2.2⟩

theorem eraseBlock_good {pq : List Instr} (b : Nat) {s : State} (hg : Good pq s) :
    Good pq (eraseBlock b s) := by
  exact ⟨hg.1, hg.2.1, mapWf_filter _ _ _ hg.2.2.1, hg.2.2.2⟩

theorem tearLine_good {pq : List Instr} {s : State} (l : Nat) (hg : Good pq s) :
    Good pq (tearLine s l) := by
  unfold tearLine
  try dsimp only
  iterate 60 all_goals with_reducible first
    | assumption | apply State.setFlash_good | rfl | apply Good.of_mk | apply Good.parts

theorem spoilLine_good {pq : List Instr} {s : State} (l : Nat) (hg : Good pq s) :
    Good pq (spoilLine s l) := by
  unfold spoilLine
  try dsimp only
  iterate 60 all_goals with_reducible first
    | assumption | apply tearLine_good | apply Good.of_mk | apply Good.parts

theorem countErase_good {pq : List Instr} (b : Nat) {s : State} (hg : Good pq s) :
    Good pq (countErase b s) := by
  unfold countErase
  try dsimp only
  iterate 60 all_goals with_reducible first
    | assumption | apply State.setFlash_good | apply State.setReg_good | rfl

theorem finishErase_good {pq : List Instr} (b : Nat) (verified : Bool) {s : State} (hg : Good pq s) :
    Good pq (finishErase b verified s).1 := by
  unfold finishErase
  try dsimp only
  iterate 60 all_goals with_reducible first
    | assumption | apply boot_good | apply countErase_good | apply eraseBlock_good | apply State.setFlash_good
    | apply State.setBit_good | rfl | apply good_ite | split

theorem loadSel_good {pq : List Instr} {s : State} (hg : Good pq s) :
    Good pq (loadSel s) := by
  unfold loadSel
  try dsimp only
  iterate 60 all_goals with_reducible first
    | assumption | apply State.setReg_good | apply good_ite | split

theorem innerErase_good {pq : List Instr} (b : Nat) (erased : Bool) {s : State} (hg : Good pq s) :
    Good pq (innerErase b erased s).1 := by
  unfold innerErase
  try dsimp only
  iterate 60 all_goals with_reducible first
    | assumption | apply finishErase_good | apply good_ite | split

theorem innerProgram_good {pq : List Instr} (l : Nat) (data : List Byte) (verified : Bool) {s : State} (hg : Good pq s) :
    Good pq (innerProgram l data verified s).1 := by
  unfold innerProgram
  try dsimp only
  iterate 60 all_goals with_reducible first
    | assumption | apply tearLine_good | apply programLine_good | apply State.setFlash_good | rfl | apply good_ite
    | split

theorem runSwap_good {pq : List Instr} (verified : Bool) (erased : Bool) {s : State} (hg : Good pq s) :
    Good pq (runSwap verified erased s).1 := by
  unfold runSwap
  try dsimp only
  iterate 60 all_goals with_reducible first
    | assumption | apply innerProgram_good | apply innerErase_good | apply State.setReg_good | apply good_ite | split

theorem judgeKey_good {pq : List Instr} {s : State} (hg : Good pq s) :
    Good pq (judgeKey s) := by
  unfold judgeKey
  try dsimp only
  iterate 60 all_goals with_reducible first
    | assumption | apply State.putBit_good

theorem writeKey_good {pq : List Instr} (h : BitVec 256) (verified : Bool) (erased : Bool) {s : State} (hg : Good pq s) :
    Good pq (writeKey h verified erased s).1 := by
  unfold writeKey
  try dsimp only
  iterate 60 all_goals with_reducible first
    | assumption | apply judgeKey_good | apply innerProgram_good | apply innerErase_good | apply good_ite | split

theorem clearPassword_good {pq : List Instr} {s : State} (hg : Good pq s) :
    Good pq (clearPassword s) := by
  unfold clearPassword
  try dsimp only
  iterate 60 all_goals with_reducible first
    | assumption | intro _ | apply State.setReg_good | apply good_foldl

theorem startJob_good {pq : List Instr} (j : FlashJob) (rec : Option (Nat × Nat)) {s : State} (hg : Good pq s) :
    Good pq (startJob j rec s) := by
  unfold startJob
  try dsimp only
  iterate 60 all_goals with_reducible first
    | assumption | apply State.setFlash_good | apply State.setBit_good | rfl

theorem acceptFlash_good {pq : List Instr} (code : Nat) (x : Nat) {s : State} (hg : Good pq s) :
    Good pq (acceptFlash code x s) := by
  unfold acceptFlash
  try dsimp only
  iterate 60 all_goals with_reducible first
    | assumption | apply startJob_good | apply clearPassword_good | apply State.setFlash_good
    | apply State.clrBit_good | rfl | apply good_ite | split | apply Good.of_mk | apply Good.parts

theorem flashCommand_good {pq : List Instr} (user : Bool) (code : Nat) (x : Nat) {s : State} (hg : Good pq s) :
    Good pq (flashCommand user code x s) := by
  unfold flashCommand
  try dsimp only
  iterate 60 all_goals with_reducible first
    | assumption | apply acceptFlash_good | apply State.setBit_good | apply good_ite

theorem endJob_good {pq : List Instr} (keep : Nat → Bool) (r : State × Nat) (hg_r : Good pq r.1) :
    Good pq (endJob keep r) := by
  unfold endJob
  try dsimp only
  iterate 60 all_goals with_reducible first
    | assumption | apply State.setFlash_good | apply State.clrBit_good | apply State.setBit_good
    | apply State.setFld_good | rfl

theorem runUnlock_good {pq : List Instr} (h : BitVec 256) {s : State} (hg : Good pq s) :
    Good pq (runUnlock h s).1 := by
  unfold runUnlock
  try dsimp only
  iterate 60 all_goals with_reducible first
    | assumption | apply State.setFlash_good | apply State.setBitIf_good | apply State.setBit_good | rfl
    | apply good_ite | split

theorem showProt_good {pq : List Instr} {s : State} (hg : Good pq s) :
    Good pq (showProt s) := by
  unfold showProt
  try dsimp only
  iterate 60 all_goals with_reducible first
    | assumption | apply State.setReg_good

theorem runSetProt_good {pq : List Instr} (m : BitVec 64) {s : State} (hg : Good pq s) :
    Good pq (runSetProt m s).1 := by
  unfold runSetProt
  try dsimp only
  iterate 60 all_goals with_reducible first
    | assumption | apply showProt_good | apply State.setFlash_good | rfl | apply good_ite | split

theorem runProgram_good {pq : List Instr} (x : Nat) (data : List Byte) (verified : Bool) {s : State} (hg : Good pq s) :
    Good pq (runProgram x data verified s).1 := by
  unfold runProgram
  try dsimp only
  iterate 60 all_goals with_reducible first
    | assumption | apply tearLine_good | apply programLine_good | apply State.setFlash_good | rfl | apply good_ite
    | split | apply Good.of_mk | apply Good.parts

theorem runErase_good {pq : List Instr} (b : Nat) (begun : Bool) (verified : Bool) {s : State} (hg : Good pq s) :
    Good pq (runErase b begun verified s).1 := by
  unfold runErase
  try dsimp only
  iterate 60 all_goals with_reducible first
    | assumption | apply finishErase_good | apply good_ite | split

theorem keyJudged_good {pq : List Instr} (b : Nat) (r : State × Nat) (hg_r : Good pq r.1) :
    Good pq (keyJudged b r).1 := by
  unfold keyJudged
  try dsimp only
  iterate 60 all_goals with_reducible first
    | assumption | apply judgeKey_good | apply good_ite | split

theorem commandEnd_good {pq : List Instr} (verified : Bool) (erased : Bool) {s : State} (hg : Good pq s) :
    Good pq (commandEnd verified erased s) := by
  unfold commandEnd
  try dsimp only
  iterate 60 all_goals with_reducible first
    | assumption | apply keyJudged_good | apply runErase_good | apply runProgram_good | apply runSetProt_good
    | apply runUnlock_good | apply endJob_good | apply writeKey_good | apply runSwap_good | apply State.setFlash_good
    | apply State.clrBit_good | apply State.setBit_good | apply State.setReg_good | rfl | apply good_ite | split
    | apply Good.of_mk | apply Good.parts

theorem flashLockoutExpiry_good {pq : List Instr} {s : State} (hg : Good pq s) :
    Good pq (flashLockoutExpiry s) := by
  unfold flashLockoutExpiry
  try dsimp only
  iterate 60 all_goals with_reducible first
    | assumption | apply State.setFlash_good | apply State.clrBit_good | rfl

theorem interruptedClear_good {pq : List Instr} {s : State} (hg : Good pq s) :
    Good pq (interruptedClear s) := by
  unfold interruptedClear
  try dsimp only
  iterate 60 all_goals with_reducible first
    | assumption | apply State.setReg_good

theorem tearBlock_good {pq : List Instr} (b : Nat) {s : State} (hg : Good pq s) :
    Good pq (tearBlock b s) := by
  unfold tearBlock
  try dsimp only
  iterate 60 all_goals with_reducible first
    | assumption | intro _ | apply tearLine_good | apply good_foldl

theorem swapAbandon_good {pq : List Instr} {s : State} (hg : Good pq s) :
    Good pq (swapAbandon s) := by
  unfold swapAbandon
  try dsimp only
  iterate 60 all_goals with_reducible first
    | assumption | intro _ | apply runSwap_good | apply spoilLine_good | apply eraseBlock_good
    | apply State.spent_good | apply good_foldl | apply good_ite | split | apply Good.of_mk | apply Good.parts

theorem keyAbandon_good {pq : List Instr} (h : BitVec 256) {s : State} (hg : Good pq s) :
    Good pq (keyAbandon h s) := by
  unfold keyAbandon
  try dsimp only
  iterate 60 all_goals with_reducible first
    | assumption | apply tearBlock_good | apply writeKey_good | apply tearLine_good | apply eraseBlock_good
    | apply State.spent_good | apply good_ite | split

theorem flashAbandon_good {pq : List Instr} {s : State} (hg : Good pq s) :
    Good pq (flashAbandon s) := by
  unfold flashAbandon
  try dsimp only
  iterate 60 all_goals with_reducible first
    | assumption | apply keyAbandon_good | apply swapAbandon_good | apply tearBlock_good | apply tearLine_good
    | apply State.setFlash_good | rfl | apply good_ite | split | apply Good.of_mk | apply Good.parts

theorem flashStart_good {pq : List Instr} {s : State} (hg : Good pq s) :
    Good pq (flashStart s) := by
  unfold flashStart
  try dsimp only
  iterate 60 all_goals with_reducible first
    | assumption | apply showProt_good | apply judgeKey_good | apply loadSel_good | apply State.setFlash_good
    | apply State.putBit_good | apply State.setReg_good | rfl | apply good_ite | split

end Sys2Proof.Machine
end

