-- ==== Sys2Proof/Laws/GoodSession.lean ====
section
/-! SUPPORT. The operations of Session.lean keep the memories, the reserved bits of the registers, and the queue. -/

namespace Sys2Proof.Machine

theorem State.setHost_good {pq : List Instr} {s : State} (h : HostState) (hg : Good pq s) :
    Good pq (State.setHost s h) := by
  unfold State.setHost
  try dsimp only
  iterate 60 all_goals with_reducible first
    | assumption | apply Good.of_mk | apply Good.parts

theorem State.putFieldBit_good {pq : List Instr} {s : State} (a : Nat) (f : Fld) (i : Nat) (b : Bool) (hg : Good pq s) :
    Good pq (State.putFieldBit s a f i b) := by
  unfold State.putFieldBit
  try dsimp only
  iterate 60 all_goals with_reducible first
    | assumption | apply State.setFld_good

theorem tapSettle_good {pq : List Instr} {s : State} (hg : Good pq s) :
    Good pq (tapSettle s) := by
  unfold tapSettle
  try dsimp only
  iterate 60 all_goals with_reducible first
    | assumption | apply State.setHost_good | apply good_ite | split

theorem closeSession_good {pq : List Instr} (p : Nat) {s : State} (hg : Good pq s) :
    Good pq (closeSession p s) := by
  unfold closeSession
  try dsimp only
  iterate 60 all_goals with_reducible first
    | assumption | intro _ | apply tapSettle_good | apply State.putFieldBit_good | apply State.setHost_good
    | apply State.latching_good | apply State.setBit_good | apply good_ite | split | apply Good.of_mk
    | apply Good.parts

theorem respondTo_good {pq : List Instr} (p : Nat) (code : Nat) (tag : Byte) (source : BitVec 144) (result : Nat) (payload : List Byte) {s : State} (hg : Good pq s) :
    Good pq (respondTo p code tag source result payload s) := by
  unfold respondTo
  try dsimp only
  iterate 60 all_goals with_reducible first
    | assumption | apply State.setHost_good | apply good_ite | split | apply Good.of_mk | apply Good.parts

theorem respond_good {pq : List Instr} (p : Nat) (code : Nat) (req : MgmtReq) (result : Nat) (payload : List Byte) {s : State} (hg : Good pq s) :
    Good pq (respond p code req result payload s) := by
  unfold respond
  try dsimp only
  iterate 60 all_goals with_reducible first
    | assumption | apply respondTo_good

theorem handOn_good {pq : List Instr} (n : Nat) (frame : HandedFrame) {s : State} (hg : Good pq s) :
    Good pq (handOn n frame s) := by
  unfold handOn
  try dsimp only
  iterate 60 all_goals with_reducible first
    | assumption | apply State.setHost_good | apply Good.of_mk | apply Good.parts

theorem takeRequest_good {pq : List Instr} (p : Nat) {s : State} (hg : Good pq s) :
    Good pq (takeRequest p s) := by
  unfold takeRequest
  try dsimp only
  iterate 60 all_goals with_reducible first
    | assumption | apply State.setHost_good | apply good_ite | split | apply Good.of_mk | apply Good.parts

theorem serveNow_good {pq : List Instr} (p : Nat) (code : Nat) (req : MgmtReq) (sizeOk : Bool) (body : State → State) {s : State} (h_body : ∀ y0, Good pq y0 → Good pq (body y0)) (hg : Good pq s) :
    Good pq (serveNow p code req sizeOk body s) := by
  unfold serveNow
  try dsimp only
  iterate 60 all_goals with_reducible first
    | assumption | intro _ | apply h_body | apply respond_good | apply good_ite | split

theorem arrive_good {pq : List Instr} (p : Nat) (code : Nat) (req : MgmtReq) (now : State → State) {s : State} (h_now : ∀ y0, Good pq y0 → Good pq (now y0)) (hg : Good pq s) :
    Good pq (arrive p code req now s) := by
  unfold arrive
  try dsimp only
  iterate 60 all_goals with_reducible first
    | assumption | intro _ | apply h_now | apply takeRequest_good | apply handOn_good | apply State.setHost_good
    | apply good_ite | split | apply Good.of_mk | apply Good.parts

theorem openSession_good {pq : List Instr} (p : Nat) (req : MgmtReq) {s : State} (hg : Good pq s) :
    Good pq (openSession p req s) := by
  unfold openSession
  try dsimp only
  iterate 60 all_goals with_reducible first
    | assumption | apply respond_good | apply State.putFieldBit_good | apply State.setHost_good
    | apply State.setBit_good | apply good_ite

theorem openNow_good {pq : List Instr} (p : Nat) (req : MgmtReq) {s : State} (hg : Good pq s) :
    Good pq (openNow p req s) := by
  unfold openNow
  try dsimp only
  iterate 60 all_goals with_reducible first
    | assumption | intro _ | apply openSession_good | apply serveNow_good

theorem closeNow_good {pq : List Instr} (p : Nat) (req : MgmtReq) {s : State} (hg : Good pq s) :
    Good pq (closeNow p req s) := by
  unfold closeNow
  try dsimp only
  iterate 60 all_goals with_reducible first
    | assumption | intro _ | apply serveNow_good | apply respond_good | apply closeSession_good

theorem setKeyNow_good {pq : List Instr} (p : Nat) (req : MgmtReq) {s : State} (hg : Good pq s) :
    Good pq (setKeyNow p req s) := by
  unfold setKeyNow
  try dsimp only
  iterate 60 all_goals with_reducible first
    | assumption | intro _ | apply serveNow_good | apply respond_good | apply State.setHost_good | apply startJob_good
    | apply good_ite | split | apply Good.of_mk | apply Good.parts

theorem keyReplyEnd_good {pq : List Instr} {s : State} (hg : Good pq s) :
    Good pq (keyReplyEnd s) := by
  unfold keyReplyEnd
  try dsimp only
  iterate 60 all_goals with_reducible first
    | assumption | apply respondTo_good | apply State.setHost_good | apply good_ite | split

theorem forwardNow_good {pq : List Instr} (p : Nat) (req : MgmtReq) {s : State} (hg : Good pq s) :
    Good pq (forwardNow p req s) := by
  unfold forwardNow
  try dsimp only
  iterate 60 all_goals with_reducible first
    | assumption | intro _ | apply serveNow_good | apply respond_good | apply State.setHost_good
    | apply State.setBit_good | apply State.setReg_good | apply good_foldl | apply good_ite | split | apply Good.of_mk
    | apply Good.parts

theorem forwardEnd_good {pq : List Instr} (result : Nat) (payload : List Byte) {s : State} (hg : Good pq s) :
    Good pq (forwardEnd result payload s) := by
  unfold forwardEnd
  try dsimp only
  iterate 60 all_goals with_reducible first
    | assumption | apply respondTo_good | apply State.setHost_good | apply State.clrBit_good | apply good_ite | split

theorem replyGo_good {pq : List Instr} {s : State} (hg : Good pq s) :
    Good pq (replyGo s) := by
  unfold replyGo
  try dsimp only
  iterate 60 all_goals with_reducible first
    | assumption | apply forwardEnd_good

theorem noHandler_good {pq : List Instr} {s : State} (hg : Good pq s) :
    Good pq (noHandler s) := by
  unfold noHandler
  try dsimp only
  iterate 60 all_goals with_reducible first
    | assumption | apply forwardEnd_good

theorem badCodeNow_good {pq : List Instr} (p : Nat) (code : Nat) (req : MgmtReq) {s : State} (hg : Good pq s) :
    Good pq (badCodeNow p code req s) := by
  unfold badCodeNow
  try dsimp only
  iterate 60 all_goals with_reducible first
    | assumption | apply respond_good | apply good_ite | split

theorem mgmtOpen_good {pq : List Instr} (p : Nat) (req : MgmtReq) {s : State} (hg : Good pq s) :
    Good pq (mgmtOpen p req s) := by
  unfold mgmtOpen
  try dsimp only
  iterate 60 all_goals with_reducible first
    | assumption | intro _ | apply openNow_good | apply arrive_good

theorem mgmtClose_good {pq : List Instr} (p : Nat) (req : MgmtReq) {s : State} (hg : Good pq s) :
    Good pq (mgmtClose p req s) := by
  unfold mgmtClose
  try dsimp only
  iterate 60 all_goals with_reducible first
    | assumption | intro _ | apply closeNow_good | apply arrive_good

theorem mgmtSetKey_good {pq : List Instr} (p : Nat) (req : MgmtReq) {s : State} (hg : Good pq s) :
    Good pq (mgmtSetKey p req s) := by
  unfold mgmtSetKey
  try dsimp only
  iterate 60 all_goals with_reducible first
    | assumption | intro _ | apply setKeyNow_good | apply arrive_good

theorem mgmtForward_good {pq : List Instr} (p : Nat) (req : MgmtReq) {s : State} (hg : Good pq s) :
    Good pq (mgmtForward p req s) := by
  unfold mgmtForward
  try dsimp only
  iterate 60 all_goals with_reducible first
    | assumption | intro _ | apply forwardNow_good | apply arrive_good

theorem mgmtBadCode_good {pq : List Instr} (p : Nat) (code : Nat) (req : MgmtReq) {s : State} (hg : Good pq s) :
    Good pq (mgmtBadCode p code req s) := by
  unfold mgmtBadCode
  try dsimp only
  iterate 60 all_goals with_reducible first
    | assumption | intro _ | apply badCodeNow_good | apply arrive_good | apply good_ite | split

theorem sessionTimeout_good {pq : List Instr} (p : Nat) {s : State} (hg : Good pq s) :
    Good pq (sessionTimeout p s) := by
  unfold sessionTimeout
  try dsimp only
  iterate 60 all_goals with_reducible first
    | assumption | apply closeSession_good | apply good_ite

theorem sessionLockoutExpiry_good {pq : List Instr} (p : Nat) {s : State} (hg : Good pq s) :
    Good pq (sessionLockoutExpiry p s) := by
  unfold sessionLockoutExpiry
  try dsimp only
  iterate 60 all_goals with_reducible first
    | assumption | apply State.putFieldBit_good

theorem hostLinkUp_good {pq : List Instr} (l : HostLink) (complete : Bool) {s : State} (hg : Good pq s) :
    Good pq (hostLinkUp l complete s) := by
  unfold hostLinkUp
  try dsimp only
  iterate 60 all_goals with_reducible first
    | assumption | intro _ | apply State.setHost_good | apply State.latching_good | apply good_ite | split
    | apply Good.of_mk | apply Good.parts

theorem hostLinkLoss_good {pq : List Instr} (l : HostLink) (reference : Bool) {s : State} (hg : Good pq s) :
    Good pq (hostLinkLoss l reference s) := by
  unfold hostLinkLoss
  try dsimp only
  iterate 60 all_goals with_reducible first
    | assumption | apply closeSession_good | apply State.setHost_good | apply good_ite

theorem hostLinkWrite_good {pq : List Instr} (w : Word) {s : State} (hg : Good pq s) :
    Good pq (hostLinkWrite w s) := by
  unfold hostLinkWrite
  try dsimp only
  iterate 60 all_goals with_reducible first
    | assumption | apply State.setBitIf_good | apply State.setReg_good

theorem rejectHost_good {pq : List Instr} {s : State} (hg : Good pq s) :
    Good pq (rejectHost s) := by
  unfold rejectHost
  try dsimp only
  iterate 60 all_goals with_reducible first
    | assumption | apply State.setBit_good

theorem mgmtStore_good {pq : List Instr} (n : Nat) (a : Nat) (w : Word) {s : State} (hg : Good pq s) :
    Good pq (mgmtStore n a w s) := by
  unfold mgmtStore
  try dsimp only
  iterate 60 all_goals with_reducible first
    | assumption | apply closeSession_good | apply State.setReg_good | apply good_ite

theorem mgmtRegWrite_good {pq : List Instr} (n : Nat) (r : MgmtReg) (w : Word) {s : State} (hg : Good pq s) :
    Good pq (mgmtRegWrite n r w s) := by
  unfold mgmtRegWrite
  try dsimp only
  iterate 60 all_goals with_reducible first
    | assumption | apply mgmtStore_good | apply rejectHost_good | apply good_ite | split

theorem addressQuery_good {pq : List Instr} (n : Nat) (q : AddressQuery) {s : State} (hg : Good pq s) :
    Good pq (addressQuery n q s) := by
  unfold addressQuery
  try dsimp only
  iterate 60 all_goals with_reducible first
    | assumption | apply handOn_good | apply State.setHost_good | apply good_ite | split | apply Good.of_mk
    | apply Good.parts

theorem ppsRise_good {pq : List Instr} (n : Nat) {s : State} (hg : Good pq s) :
    Good pq (ppsRise n s) := by
  unfold ppsRise
  try dsimp only
  iterate 60 all_goals with_reducible first
    | assumption | apply State.setHost_good | apply good_ite | split | apply Good.of_mk | apply Good.parts

theorem ppsFall_good {pq : List Instr} (n : Nat) {s : State} (hg : Good pq s) :
    Good pq (ppsFall n s) := by
  unfold ppsFall
  try dsimp only
  iterate 60 all_goals with_reducible first
    | assumption | apply State.setHost_good | apply State.passTo_good | apply good_ite | split | apply Good.of_mk
    | apply Good.parts

theorem tapTake_good {pq : List Instr} (i : TapInstr) {s : State} (hg : Good pq s) :
    Good pq (tapTake i s) := by
  unfold tapTake
  try dsimp only
  iterate 60 all_goals with_reducible first
    | assumption | apply tapSettle_good | apply State.setHost_good | apply good_ite | split | apply Good.of_mk
    | apply Good.parts

theorem tapIdcode_good {pq : List Instr} {s : State} (hg : Good pq s) :
    Good pq (tapIdcode s) := by
  unfold tapIdcode
  try dsimp only
  iterate 60 all_goals with_reducible first
    | assumption | apply tapTake_good | apply State.setHost_good | apply good_ite

end Sys2Proof.Machine
end

