-- ==== Sys2Proof/Laws/GoodBalls.lean ====
section
/-! SUPPORT. The operations of Balls.lean keep the memories, the reserved bits of the registers, and the queue. -/

namespace Sys2Proof.Machine

theorem receiveAt_good {pq : List Instr} (n : Nat) (w : Word) {s : State} (hg : Good pq s) :
    Good pq (receiveAt n w s) := by
  unfold receiveAt
  try dsimp only
  iterate 60 all_goals with_reducible first
    | assumption | apply State.setHost_good | apply good_ite | split | apply Good.of_mk | apply Good.parts

theorem gpioLevel_good {pq : List Instr} (n : Nat) (high : Bool) (events : BitVec 41) {s : State} (hg : Good pq s) :
    Good pq (gpioLevel n high events s) := by
  unfold gpioLevel
  try dsimp only
  iterate 60 all_goals with_reducible first
    | assumption | apply good_ite | split | apply Good.of_mk | apply Good.parts

theorem tapPreload_good {pq : List Instr} (balls : List (Nat × Bool)) {s : State} (hg : Good pq s) :
    Good pq (tapPreload balls s) := by
  unfold tapPreload
  try dsimp only
  iterate 60 all_goals with_reducible first
    | assumption | intro _ | apply tapTake_good | apply State.setHost_good | apply good_foldl | apply good_map_getD
    | apply good_getD | apply good_ite

end Sys2Proof.Machine
end

