-- ==== Sys2Proof/Laws/GoodPattern.lean ====
section
/-! SUPPORT. The operations of Pattern.lean keep the memories, the reserved bits of the registers, and the queue. -/

namespace Sys2Proof.Machine

theorem applyRecord_good {pq : List Instr} {s : State} (r : Record) (hg : Good pq s) :
    Good pq (applyRecord s r) := by
  unfold applyRecord
  try dsimp only
  iterate 60 all_goals with_reducible first
    | assumption | apply State.setLawWord_good | apply State.setReg_good | apply good_ite | split

theorem applyProg_good {pq : List Instr} (p : Staged) {s : State} (b : Blob) (hg : Good pq s) :
    Good pq (applyProg p s b) := by
  unfold applyProg
  try dsimp only
  iterate 60 all_goals with_reducible first
    | assumption | intro _ | apply good_foldl | apply Good.of_mk | apply Good.parts

theorem applyTable_good {pq : List Instr} (p : Staged) {s : State} (b : Blob) (hg : Good pq s) :
    Good pq (applyTable p s b) := by
  unfold applyTable
  try dsimp only
  iterate 60 all_goals with_reducible first
    | assumption | intro _ | apply State.setTableEntry_good | apply good_foldl

theorem Staged.apply_good {pq : List Instr} (p : Staged) {s : State} (hg : Good pq s) :
    Good pq (Staged.apply p s) := by
  unfold Staged.apply
  try dsimp only
  iterate 60 all_goals with_reducible first
    | assumption | intro _ | apply applyTable_good | apply applyProg_good | apply applyRecord_good | apply good_foldl

end Sys2Proof.Machine
end

