-- ==== Sys2Proof/Laws/GoodBoot.lean ====
section
/-! SUPPORT. The operations of Boot.lean keep the memories, the reserved bits of the registers, and the queue. -/

namespace Sys2Proof.Machine

/-- The nonzero bytes of a run of bytes placed from `k` on are a map in canonical form. -/
theorem mapWfFrom_placed (g : Nat → Byte) (k : Nat) (a n : Nat) :
    mapWfFrom (fun _ => (0 : Byte)) (k + a)
      ((List.range' a n).filterMap (fun i => if g i = 0 then none else some (k + i, g i))) = true := by
  induction n generalizing a with
  | zero => rfl
  | succ n ih =>
    rw [List.range'_succ, List.filterMap_cons]
    have h1 := ih (a + 1)
    by_cases hz : g a = 0
    · simp only [hz, if_true]
      exact mapWfFrom_mono _ (by omega) _ h1
    · simp only [hz, if_false, mapWfFrom, Bool.and_eq_true, decide_eq_true_eq]
      exact ⟨⟨Nat.le_refl _, hz⟩, h1⟩

theorem mem_placed (g : Nat → Byte) (k n : Nat) (p : Nat × Byte)
    (h : p ∈ (List.range n).filterMap (fun i => if g i = 0 then none else some (k + i, g i))) : p.1 < k + n := by
  rw [List.mem_filterMap] at h
  obtain ⟨i, hi, e⟩ := h
  rw [List.mem_range] at hi
  split at e
  · cases e
  · cases e
    show k + i < k + n
    omega

/-- The copy of the recovery monitor keeps the canonical form of memory. -/

theorem monitorCopy_wf (m : SMap Byte) (w : mapWf (fun _ => (0 : Byte)) m = true) :
    mapWf (fun _ => (0 : Byte)) (m.filter (fun p => decide (p.1 < 0xF0000000)) ++ monitorBytes ++
      m.filter (fun p => decide (0xF0020000 ≤ p.1))) = true := by
  rw [List.append_assoc]
  refine mapWfFrom_append _ _ _ 0 0xF0000000 (Nat.zero_le _) (mapWfFrom_filter _ _ _ _ w) (fun p hp => ?_) ?_
  · simpa using (List.mem_filter.mp hp).2
  · refine mapWfFrom_append _ _ _ _ 0xF0020000 (by decide) ?_ (fun p hp => ?_) (mapWfFrom_filter_ge _ _ _ _ w)
    · have h := mapWfFrom_placed factoryFlash 0xF0000000 0 0x20000
      rw [← List.range_eq_range'] at h
      exact h
    · exact mem_placed factoryFlash 0xF0000000 0x20000 p hp

theorem Good.memWf {pq : List Instr} {s : State} (hg : Good pq s) : mapWf (fun _ => (0 : Byte)) s.mem = true := hg.1

theorem Good.withMem {pq : List Instr} {s : State} (m : SMap Byte) (sup : SupplyState)
    (w : mapWf (fun _ => (0 : Byte)) m = true) (hg : Good pq s) : Good pq { s with mem := m, supply := sup } :=
  ⟨w, hg.2⟩

/-- The staged state that an attempt of a block answers, if it answers one, is good. -/
def BlockTry.Good (pq : List Instr) (t : BlockTry) : Prop := ∀ q, t.found = some q → Machine.Good pq q.2

theorem BlockTry.ite_good {pq : List Instr} {c : Prop} [Decidable c] {a b : BlockTry} (ha : a.Good pq) (hb : b.Good pq) :
    (if c then a else b).Good pq := by split <;> assumption

theorem BlockTry.none_good {pq : List Instr} {f : Nat} {r : Word} : (BlockTry.mk f r none).Good pq := by
  intro q h
  cases h

theorem loadPattern_good {pq : List Instr} (bs : List Byte) (locked : Nat) {s : State} (hg : Good pq s)
    (q : Staged × State) (h : loadPattern bs locked s = .inr q) : Good pq q.2 := by
  unfold loadPattern at h
  dsimp only at h
  split at h
  · cases h
  split at h
  · cases h
  split at h
  · cases h
  split at h
  · cases h
  · cases h
    exact Staged.apply_good _ hg

theorem tryBlock_good {pq : List Instr} (k : Nat) (bad : Bool) {s : State} (hg : Good pq s) :
    (tryBlock k bad s).Good pq := by
  unfold tryBlock
  with_reducible refine BlockTry.ite_good BlockTry.none_good (BlockTry.ite_good BlockTry.none_good
    (BlockTry.ite_good BlockTry.none_good (BlockTry.ite_good BlockTry.none_good ?_)))
  split
  · exact BlockTry.none_good
  · rename_i e
    intro q h
    cases h
    exact loadPattern_good _ _ hg _ e

theorem tryBlock_found_good {pq : List Instr} (k : Nat) (bad : Bool) {s : State} (hg : Good pq s)
    (q : Staged × State) (h : (tryBlock k bad s).found = some q) : Good pq q.2 := tryBlock_good k bad hg q h

theorem noteTry_good {pq : List Instr} (k : Nat) (t : BlockTry) {s : State} (hg : Good pq s) :
    Good pq (noteTry k t s) := by
  unfold noteTry
  try dsimp only
  iterate 60 all_goals with_reducible first
    | assumption | apply State.setFld_good | apply State.setReg_good

theorem holdPair_good {pq : List Instr} (p : Nat) (cause : Nat) {s : State} (hg : Good pq s) :
    Good pq (holdPair p cause s) := by
  unfold holdPair
  try dsimp only
  iterate 60 all_goals with_reducible first
    | assumption | apply State.putFieldBit_good | apply setPairState_good | apply State.setBit_good
    | apply State.setFld_good | apply good_ite

theorem injectionFails_good {pq : List Instr} (p : Nat) {s : State} (hg : Good pq s) :
    Good pq (injectionFails p s) := by
  unfold injectionFails
  try dsimp only
  iterate 60 all_goals with_reducible first
    | assumption | apply holdPair_good | apply Good.of_mk | apply Good.parts

theorem lockPairs_good {pq : List Instr} (locked : Nat) (broken : List (Fin 8 × Comparator)) {s : State} (hg : Good pq s) :
    Good pq (lockPairs locked broken s) := by
  unfold lockPairs
  try dsimp only
  iterate 60 all_goals with_reducible first
    | assumption | intro _ | apply injectionFails_good | apply setPairState_good | apply good_foldl | apply good_ite
    | split | apply Good.of_mk | apply Good.parts

theorem commitChannel_good {pq : List Instr} (n : Nat) {s : State} (hg : Good pq s) :
    Good pq (commitChannel n s) := by
  unfold commitChannel
  try dsimp only
  iterate 60 all_goals with_reducible first
    | assumption | apply State.setChan_good | apply State.clrBit_good | apply good_ite | split | apply Good.of_mk
    | apply Good.parts

theorem commitGroup_good {pq : List Instr} (g : Nat) {s : State} (hg : Good pq s) :
    Good pq (commitGroup g s) := by
  unfold commitGroup
  try dsimp only
  iterate 60 all_goals with_reducible first
    | assumption | intro _ | apply pgArmAt_good | apply State.clrBit_good | apply State.setReg_good | apply good_foldl
    | apply good_ite

theorem commitEnables_good {pq : List Instr} {s : State} (hg : Good pq s) :
    Good pq (commitEnables s) := by
  unfold commitEnables
  try dsimp only
  iterate 60 all_goals with_reducible first
    | assumption | intro _ | apply startTrain_good | apply surveyEnable_good | apply startPath_good
    | apply lawEnable_good | apply good_foldl | apply good_ite

theorem commitHeader_good {pq : List Instr} (p : Staged) {s : State} (hg : Good pq s) :
    Good pq (commitHeader p s) := by
  unfold commitHeader
  try dsimp only
  iterate 60 all_goals with_reducible first
    | assumption | intro _ | apply State.setReg_good | apply good_foldl | apply Good.of_mk | apply Good.parts

theorem State.withoutLost_good {pq : List Instr} {s : State} (hg : Good pq s) :
    Good pq (State.withoutLost s) := by
  unfold State.withoutLost
  try dsimp only
  iterate 60 all_goals with_reducible first
    | assumption | intro _ | apply regionReset_good | apply good_foldl

theorem commit_good {pq : List Instr} (p : Staged) {s : State} (hg : Good pq s) :
    Good pq (commit p s) := by
  unfold commit
  try dsimp only
  iterate 60 all_goals with_reducible first
    | assumption | intro _ | apply State.withoutLost_good | apply commitHeader_good | apply commitEnables_good
    | apply commitGroup_good | apply commitChannel_good | apply State.setBit_good | apply good_foldl | apply good_ite
    | split | apply Good.of_mk | apply Good.parts

theorem bootFailure_good {pq : List Instr} (r : Nat) {s : State} (hg : Good pq s) :
    Good pq (bootFailure r s) := by
  unfold bootFailure
  try dsimp only
  iterate 60 all_goals with_reducible first
    | assumption | apply holdPair_good | apply State.setAssay_good | apply State.setBit_good | apply good_ite | split
    | apply Good.of_mk | apply Good.parts

theorem startCore_good {pq : List Instr} (c : Nat) {s : State} (hg : Good pq s) :
    Good pq (startCore c s) := by
  unfold startCore
  try dsimp only
  iterate 60 all_goals with_reducible first
    | assumption | apply State.setCore_good | apply good_ite

theorem armWatchdog_good {pq : List Instr} (timeout : Nat) {s : State} (hg : Good pq s) :
    Good pq (armWatchdog timeout s) := by
  unfold armWatchdog
  try dsimp only
  iterate 60 all_goals with_reducible first
    | assumption | apply State.setReg_good | apply Good.of_mk | apply Good.parts

theorem startBootCore_good {pq : List Instr} (option : Nat) (entry : Nat) {s : State} (hg : Good pq s) :
    Good pq (startBootCore option entry s) := by
  unfold startBootCore
  try dsimp only
  iterate 60 all_goals with_reducible first
    | assumption | apply armWatchdog_good | apply startCore_good | apply State.putFieldBit_good
    | apply State.setFld_good | apply State.setReg_good | apply good_ite | split

theorem startBootAssay_good {pq : List Instr} (option : Nat) (entry : Nat) {s : State} (hg : Good pq s) :
    Good pq (startBootAssay option entry s) := by
  unfold startBootAssay
  try dsimp only
  iterate 60 all_goals with_reducible first
    | assumption | apply boot_good | apply startBootCore_good | apply State.setAssay_good | apply good_ite | split
    | apply Good.of_mk | apply Good.parts

theorem endBootAssay_good {pq : List Instr} {s : State} (hg : Good pq s) :
    Good pq (endBootAssay s) := by
  unfold endBootAssay
  try dsimp only
  iterate 60 all_goals with_reducible first
    | assumption | apply boot_good | apply startBootCore_good | apply State.setAssay_good | apply good_ite | split
    | apply Good.of_mk | apply Good.parts

theorem assayEnd_good {pq : List Instr} (lane : Nat) (result : AssayResult) {s : State} (hg : Good pq s) :
    Good pq (assayEnd lane result s) := by
  unfold assayEnd
  try dsimp only
  iterate 60 all_goals with_reducible first
    | assumption | apply endBootAssay_good | apply bootFailure_good | apply assayRegionEnd_good
    | apply laneResult_good | apply holdCore_good | apply good_ite | split | apply Good.of_mk | apply Good.parts

theorem recover_good {pq : List Instr} {s : State} (hg : Good pq s) :
    Good pq (recover s) := by
  unfold recover
  dsimp only
  iterate 10 all_goals with_reducible first
    | assumption | apply startCore_good | apply State.setBit_good | apply State.setReg_good | apply State.setHost_good
    | exact Good.withMem _ _ (monitorCopy_wf _ (Good.memWf hg)) hg

theorem loadMac_good {pq : List Instr} {s : State} (hg : Good pq s) :
    Good pq (loadMac s) := by
  unfold loadMac
  try dsimp only
  iterate 60 all_goals with_reducible first
    | assumption | intro _ | apply State.setReg_good | apply good_foldl

theorem bootWith_good {pq : List Instr} (k : Nat) (active : Nat) (report : BootReport) (assay : Bool) (p : Staged) {t : State} (hg_t : Good pq t) :
    Good pq (bootWith k active report assay p t) := by
  unfold bootWith
  try dsimp only
  iterate 60 all_goals with_reducible first
    | assumption | apply startBootAssay_good | apply startBootCore_good | apply commit_good | apply lockPairs_good
    | apply State.putBit_good | apply good_ite | split

theorem bootFrom_good {pq : List Instr} (active : Nat) (report : BootReport) (assay : Bool) {s : State} (hg : Good pq s) :
    Good pq (bootFrom active report assay s) := by
  unfold bootFrom
  dsimp only
  have h1 := tryBlock_good active (report.badRead.getLsbD active) hg
  generalize tryBlock active _ s = first at h1 ⊢
  have h3 := noteTry_good active first hg
  have h2 := tryBlock_good (1 - active) (report.badRead.getLsbD (1 - active)) h3
  generalize tryBlock (1 - active) _ (noteTry active first s) = second at h2 ⊢
  split
  · rename_i q e
    exact bootWith_good _ _ _ _ _ (noteTry_good _ _ (h1 q e))
  · split
    · rename_i q e
      exact bootWith_good _ _ _ _ _ (noteTry_good _ _ (h2 q e))
    · exact recover_good (noteTry_good _ _ h3)

theorem boot_good {pq : List Instr} (report : BootReport) (assay : Bool) {s : State} (hg : Good pq s) :
    Good pq (boot report assay s) := by
  unfold boot
  have h := loadMac_good (flashStart_good (State.setReg_good A.CLK_STATUS 0xF hg))
  generalize loadMac (flashStart (s.setReg A.CLK_STATUS 0xF)) = u at h
  dsimp only
  have h2 := State.setHost_good { u.host with pcieRef := report.pcieRef } h
  generalize u.setHost { u.host with pcieRef := report.pcieRef } = v at h2
  exact bootFrom_good _ _ _ h2

theorem rejectBoot_good {pq : List Instr} {s : State} (hg : Good pq s) :
    Good pq (rejectBoot s) := by
  unfold rejectBoot
  try dsimp only
  iterate 60 all_goals with_reducible first
    | assumption | apply State.setBit_good

theorem outputRelease_good {pq : List Instr} (user : Bool) {s : State} (hg : Good pq s) :
    Good pq (outputRelease user s) := by
  unfold outputRelease
  try dsimp only
  iterate 60 all_goals with_reducible first
    | assumption | apply rejectBoot_good | apply tapSettle_good | apply releaseOutputs_good | apply quenchArm_good
    | apply State.setBit_good | apply good_ite | split

theorem coreStart_good {pq : List Instr} (bits : BitVec 16) {s : State} (hg : Good pq s) :
    Good pq (coreStart bits s) := by
  unfold coreStart
  try dsimp only
  iterate 60 all_goals with_reducible first
    | assumption | intro _ | apply rejectBoot_good | apply startCore_good | apply State.putFieldBit_good
    | apply good_foldl | apply good_ite

end Sys2Proof.Machine
end

