-- ==== Sys2Proof/Laws/GoodSupply.lean ====
section
/-! SUPPORT. The operations of Supply.lean keep the memories, the reserved bits of the registers, and the queue. -/

namespace Sys2Proof.Machine

theorem State.setSupply_good {pq : List Instr} {s : State} (x : SupplyState) (hg : Good pq s) :
    Good pq (State.setSupply s x) := by
  unfold State.setSupply
  try dsimp only
  iterate 60 all_goals with_reducible first
    | assumption | apply Good.of_mk | apply Good.parts

theorem setCause_good {pq : List Instr} (b : Nat) {s : State} (hg : Good pq s) :
    Good pq (setCause b s) := by
  unfold setCause
  try dsimp only
  iterate 60 all_goals with_reducible first
    | assumption | apply State.setFld_good | apply good_ite

theorem State.bare_good {pq : List Instr} {s : State} (x : SupplyState) (hg : Good pq s) :
    Good pq (State.bare s x) := by
  unfold State.bare
  dsimp only
  apply State.setFld_good
  apply State.setReg_good
  exact ⟨rfl, hg.2.1, hg.2.2.1, fun a => resetWord_reserved a, hg.2.2.2.2⟩

theorem State.powerLost_good {pq : List Instr} {s : State} (p : Supply) (hg : Good pq s) :
    Good pq (State.powerLost s p) := by
  unfold State.powerLost
  try dsimp only
  iterate 60 all_goals with_reducible first
    | assumption | intro _ | apply State.bare_good | apply flashAbandon_good | apply State.landStores_good
    | apply globalForce_good | apply good_foldl | apply Good.of_mk | apply Good.parts

theorem fullReset_good {pq : List Instr} (b : Nat) {s : State} (hg : Good pq s) :
    Good pq (fullReset b s) := by
  unfold fullReset
  try dsimp only
  iterate 60 all_goals with_reducible first
    | assumption | apply State.powerLost_good | apply setCause_good | apply good_ite | split

theorem vinLoss_good {pq : List Instr} (high : Bool) {s : State} (hg : Good pq s) :
    Good pq (vinLoss high s) := by
  unfold vinLoss
  try dsimp only
  iterate 60 all_goals with_reducible first
    | assumption | apply State.powerLost_good | apply State.setSupply_good | apply State.setReg_good | apply good_ite
    | split

theorem vmidClamp_good {pq : List Instr} {s : State} (hg : Good pq s) :
    Good pq (vmidClamp s) := by
  unfold vmidClamp
  try dsimp only
  iterate 60 all_goals with_reducible first
    | assumption | apply State.powerLost_good | apply State.setSupply_good | apply State.setReg_good | apply good_ite
    | split

theorem vinPresent_good {pq : List Instr} {s : State} (hg : Good pq s) :
    Good pq (vinPresent s) := by
  unfold vinPresent
  try dsimp only
  iterate 60 all_goals with_reducible first
    | assumption | apply State.setSupply_good | apply State.setReg_good | apply good_ite

theorem vinRise_good {pq : List Instr} (straps : BitVec 12) {s : State} (hg : Good pq s) :
    Good pq (vinRise straps s) := by
  unfold vinRise
  try dsimp only
  iterate 60 all_goals with_reducible first
    | assumption | apply vinPresent_good | apply State.setSupply_good | apply good_ite

theorem vinOvervoltageEnd_good {pq : List Instr} {s : State} (hg : Good pq s) :
    Good pq (vinOvervoltageEnd s) := by
  unfold vinOvervoltageEnd
  try dsimp only
  iterate 60 all_goals with_reducible first
    | assumption | apply vinPresent_good | apply good_ite

theorem dischargeComplete_good {pq : List Instr} {s : State} (hg : Good pq s) :
    Good pq (dischargeComplete s) := by
  unfold dischargeComplete
  try dsimp only
  iterate 60 all_goals with_reducible first
    | assumption | intro _ | apply State.setSupply_good | apply forceHoldExpiry_good | apply good_foldl
    | apply good_ite | split | apply Good.of_mk | apply Good.parts

theorem resumePower_good {pq : List Instr} {s : State} (hg : Good pq s) :
    Good pq (resumePower s) := by
  unfold resumePower
  try dsimp only
  iterate 60 all_goals with_reducible first
    | assumption | apply State.setSupply_good | apply good_ite

theorem holdingCauseEnd_good {pq : List Instr} (c : HoldCause) {s : State} (hg : Good pq s) :
    Good pq (holdingCauseEnd c s) := by
  unfold holdingCauseEnd
  try dsimp only
  iterate 60 all_goals with_reducible first
    | assumption | apply resumePower_good | apply State.setSupply_good | apply good_ite | split

theorem powerGood_good {pq : List Instr} (report : BootReport) (straps : BitVec 12) {s : State} (hg : Good pq s) :
    Good pq (powerGood report straps s) := by
  unfold powerGood
  try dsimp only
  iterate 60 all_goals with_reducible first
    | assumption | apply State.setSupply_good | apply boot_good | apply State.setReg_good | apply State.reset_good
    | apply good_ite

theorem resetPin_good {pq : List Instr} {s : State} (hg : Good pq s) :
    Good pq (resetPin s) := by
  unfold resetPin
  try dsimp only
  iterate 60 all_goals with_reducible first
    | assumption | apply fullReset_good | apply State.setSupply_good

theorem resetPinRelease_good {pq : List Instr} {s : State} (hg : Good pq s) :
    Good pq (resetPinRelease s) := by
  unfold resetPinRelease
  try dsimp only
  iterate 60 all_goals with_reducible first
    | assumption | apply resumePower_good | apply State.setSupply_good

theorem thermalTrip_good {pq : List Instr} {s : State} (hg : Good pq s) :
    Good pq (thermalTrip s) := by
  unfold thermalTrip
  try dsimp only
  iterate 60 all_goals with_reducible first
    | assumption | apply fullReset_good | apply State.setSupply_good | apply good_ite

theorem clockLoss_good {pq : List Instr} (refclk : Bool) {s : State} (hg : Good pq s) :
    Good pq (clockLoss refclk s) := by
  unfold clockLoss
  try dsimp only
  iterate 60 all_goals with_reducible first
    | assumption | apply State.dormant_good | apply fullReset_good | apply State.setSupply_good | apply good_ite

theorem resetCommand_good {pq : List Instr} (w : Word) {s : State} (hg : Good pq s) :
    Good pq (resetCommand w s) := by
  unfold resetCommand
  try dsimp only
  iterate 60 all_goals with_reducible first
    | assumption | apply fullReset_good | apply rejectBoot_good | apply good_ite

theorem wdogWrite_good {pq : List Instr} (en : Bool) (timeout : Nat) {s : State} (hg : Good pq s) :
    Good pq (wdogWrite en timeout s) := by
  unfold wdogWrite
  try dsimp only
  iterate 60 all_goals with_reducible first
    | assumption | apply rejectBoot_good | apply armWatchdog_good | apply State.setFld_good | apply good_ite

theorem wdogKick_good {pq : List Instr} {s : State} (hg : Good pq s) :
    Good pq (wdogKick s) := by
  unfold wdogKick
  try dsimp only
  iterate 60 all_goals with_reducible first
    | assumption | apply State.setSupply_good

theorem wdogExpiry_good {pq : List Instr} {s : State} (hg : Good pq s) :
    Good pq (wdogExpiry s) := by
  unfold wdogExpiry
  try dsimp only
  iterate 60 all_goals with_reducible first
    | assumption | apply State.dormant_good | apply fullReset_good | apply good_ite

theorem State.setBallLimit_good {pq : List Instr} {s : State} (p : Nat) (x : BallLimit) (hg : Good pq s) :
    Good pq (State.setBallLimit s p x) := by
  unfold State.setBallLimit
  try dsimp only
  iterate 60 all_goals with_reducible first
    | assumption | apply State.setSupply_good | apply Good.of_mk | apply Good.parts

theorem currentLimitChange_good {pq : List Instr} (p : Nat) (limited : Bool) (elapsed : Nat) {s : State} (hg : Good pq s) :
    Good pq (currentLimitChange p limited elapsed s) := by
  unfold currentLimitChange
  try dsimp only
  iterate 60 all_goals with_reducible first
    | assumption | apply State.setBallLimit_good | apply State.spent_good | apply good_ite | split

theorem currentLimitTrip_good {pq : List Instr} (p : Nat) (elapsed : Nat) {s : State} (hg : Good pq s) :
    Good pq (currentLimitTrip p elapsed s) := by
  unfold currentLimitTrip
  try dsimp only
  iterate 60 all_goals with_reducible first
    | assumption | apply State.setBallLimit_good | apply State.setSupply_good | apply State.spent_good
    | apply State.countSat_good | apply State.setBit_good | apply State.setFld_good | apply good_ite

theorem limitTimeClear_good {pq : List Instr} (p : Nat) {s : State} (hg : Good pq s) :
    Good pq (limitTimeClear p s) := by
  unfold limitTimeClear
  try dsimp only
  iterate 60 all_goals with_reducible first
    | assumption | apply State.setBallLimit_good | apply good_ite | split

theorem ioFaultClear_good {pq : List Instr} {s : State} (hg : Good pq s) :
    Good pq (ioFaultClear s) := by
  unfold ioFaultClear
  try dsimp only
  iterate 60 all_goals with_reducible first
    | assumption | apply State.setSupply_good | apply State.setReg_good

theorem powerAverage_good {pq : List Instr} (vin : BitVec 12) (power : BitVec 12) {s : State} (hg : Good pq s) :
    Good pq (powerAverage vin power s) := by
  unfold powerAverage
  try dsimp only
  iterate 60 all_goals with_reducible first
    | assumption | apply State.setSupply_good | apply State.setBitIf_good | apply State.setReg_good | apply good_ite

theorem resumeForDormant_good {pq : List Instr} {s : State} (hg : Good pq s) :
    Good pq (resumeForDormant s) := by
  unfold resumeForDormant
  try dsimp only
  iterate 60 all_goals with_reducible first
    | assumption | apply acceptFlash_good | apply good_ite

theorem sleepEntry_good {pq : List Instr} {s : State} (hg : Good pq s) :
    Good pq (sleepEntry s) := by
  unfold sleepEntry
  try dsimp only
  iterate 60 all_goals with_reducible first
    | assumption | apply State.dormant_good | apply resumeForDormant_good | apply State.setSupply_good
    | apply good_ite | split | apply Good.of_mk | apply Good.parts

theorem enterHold_good {pq : List Instr} {s : State} (hg : Good pq s) :
    Good pq (enterHold s) := by
  unfold enterHold
  try dsimp only
  iterate 60 all_goals with_reducible first
    | assumption | intro _ | apply State.setSupply_good | apply svHold_good | apply good_foldl | apply Good.of_mk
    | apply Good.parts

theorem State.dormant_good {pq : List Instr} {s : State} (power : PowerState) (hg : Good pq s) :
    Good pq (State.dormant s power) := by
  unfold State.dormant
  try dsimp only
  iterate 60 all_goals with_reducible first
    | assumption | intro _ | apply State.bare_good | apply State.setReg_good | apply State.reset_good
    | apply good_foldl | apply good_ite | split | apply Good.of_mk | apply Good.parts

theorem enterDormant_good {pq : List Instr} {s : State} (hg : Good pq s) :
    Good pq (enterDormant s) := by
  unfold enterDormant
  try dsimp only
  iterate 60 all_goals with_reducible first
    | assumption | intro _ | apply State.dormant_good | apply State.landStores_good | apply good_foldl

theorem entryComplete_good {pq : List Instr} {s : State} (hg : Good pq s) :
    Good pq (entryComplete s) := by
  unfold entryComplete
  try dsimp only
  iterate 60 all_goals with_reducible first
    | assumption | intro _ | apply enterDormant_good | apply State.dormant_good | apply enterHold_good
    | apply resumeForDormant_good | apply pgHold_good | apply good_foldl | apply good_ite | split

theorem noteExit_good {pq : List Instr} (cause : Nat) (last : PowerState) {s : State} (hg : Good pq s) :
    Good pq (noteExit cause last s) := by
  unfold noteExit
  try dsimp only
  iterate 60 all_goals with_reducible first
    | assumption | apply State.setFld_good

theorem wakeController_good {pq : List Instr} (c : Nat) (i : Nat) {s : State} (hg : Good pq s) :
    Good pq (wakeController c i s) := by
  unfold wakeController
  try dsimp only
  iterate 60 all_goals with_reducible first
    | assumption | apply arbitrate_good | apply State.setCore_good

theorem wakeControllers_good {pq : List Instr} (risen : List Nat) {s : State} (hg : Good pq s) :
    Good pq (wakeControllers risen s) := by
  unfold wakeControllers
  try dsimp only
  iterate 60 all_goals with_reducible first
    | assumption | intro _ | apply wakeController_good | apply good_foldl | apply good_ite | split | apply Good.of_mk
    | apply Good.parts

theorem resumeSurvey_good {pq : List Instr} {s : State} (hg : Good pq s) :
    Good pq (resumeSurvey s) := by
  unfold resumeSurvey
  try dsimp only
  iterate 60 all_goals with_reducible first
    | assumption | intro _ | apply svResume_good | apply good_foldl

theorem leaveHold_good {pq : List Instr} {s : State} (hg : Good pq s) :
    Good pq (leaveHold s) := by
  unfold leaveHold
  try dsimp only
  iterate 60 all_goals with_reducible first
    | assumption | intro _ | apply resumeSurvey_good | apply pgResume_good | apply good_foldl

theorem abandonEntry_good {pq : List Instr} {s : State} (hg : Good pq s) :
    Good pq (abandonEntry s) := by
  unfold abandonEntry
  try dsimp only
  iterate 60 all_goals with_reducible first
    | assumption | apply leaveHold_good | apply State.setSupply_good | apply good_ite

theorem State.clocksBack_good {pq : List Instr} {s : State} (hg : Good pq s) :
    Good pq (State.clocksBack s) := by
  unfold State.clocksBack
  try dsimp only
  iterate 60 all_goals with_reducible first
    | assumption | apply State.setSupply_good | apply Good.of_mk | apply Good.parts

theorem interruptWake_good {pq : List Instr} (c : Nat) (i : Nat) {s : State} (hg : Good pq s) :
    Good pq (interruptWake c i s) := by
  unfold interruptWake
  try dsimp only
  iterate 60 all_goals with_reducible first
    | assumption | apply State.clocksBack_good | apply abandonEntry_good | apply leaveHold_good
    | apply wakeControllers_good | apply noteExit_good | apply State.stillHigh_good | apply good_ite | split
    | apply Good.of_mk | apply Good.parts

theorem dormantExit_good {pq : List Instr} (cause : Nat) (report : BootReport) {s : State} (hg : Good pq s) :
    Good pq (dormantExit cause report s) := by
  unfold dormantExit
  try dsimp only
  iterate 60 all_goals with_reducible first
    | assumption | apply noteExit_good | apply State.dormant_good | apply State.setSupply_good | apply boot_good

theorem alarmRemains_good {pq : List Instr} {s : State} (hg : Good pq s) :
    Good pq (alarmRemains s) := by
  unfold alarmRemains
  try dsimp only
  iterate 60 all_goals with_reducible first
    | assumption | apply State.spent_good | apply State.setReg_good | apply good_ite

theorem ballWake_good {pq : List Instr} (report : BootReport) {s : State} (hg : Good pq s) :
    Good pq (ballWake report s) := by
  unfold ballWake
  try dsimp only
  iterate 60 all_goals with_reducible first
    | assumption | apply alarmRemains_good | apply dormantExit_good | apply abandonEntry_good
    | apply State.dormant_good | apply good_ite | split

theorem alarmExpiry_good {pq : List Instr} (report : BootReport) {s : State} (hg : Good pq s) :
    Good pq (alarmExpiry report s) := by
  unfold alarmExpiry
  try dsimp only
  iterate 60 all_goals with_reducible first
    | assumption | apply dormantExit_good | apply State.dormant_good | apply State.setReg_good | apply good_ite

theorem wakeEvent_good {pq : List Instr} (cause : WakeCause) (report : BootReport) {s : State} (hg : Good pq s) :
    Good pq (wakeEvent cause report s) := by
  unfold wakeEvent
  try dsimp only
  iterate 60 all_goals with_reducible first
    | assumption | apply alarmExpiry_good | apply ballWake_good | apply interruptWake_good | apply good_ite | split

end Sys2Proof.Machine
end

