-- ==== Sys2Proof/Laws/GoodView.lean ====
section
/-! SUPPORT. The operations of View.lean keep the memories, the reserved bits of the registers, and the queue. -/

namespace Sys2Proof.Machine

theorem readEffect_good {pq : List Instr} (r : Nat) (a : Nat) {s : State} (hg : Good pq s) :
    Good pq (readEffect r a s) := by
  unfold readEffect
  try dsimp only
  iterate 60 all_goals with_reducible first
    | assumption | apply stateLoRead_good | apply snapLoRead_good | apply timeLoRead_good | apply good_ite | split

theorem readArrival_good {pq : List Instr} (r : Nat) (a : Nat) {s : State} (hg : Good pq s) :
    Good pq (readArrival r a s) := by
  unfold readArrival
  try dsimp only
  iterate 60 all_goals with_reducible first
    | assumption | apply crossSnaps_good | apply good_ite

theorem readReg_good {pq : List Instr} (who : Requester) (a : Nat) {s : State} (hg : Good pq s) :
    Good pq (readReg who a s).2 := by
  unfold readReg
  try dsimp only
  iterate 60 all_goals with_reducible first
    | assumption | apply readArrival_good | apply readEffect_good | apply good_ite | split

end Sys2Proof.Machine
end

