-- ==== Sys2Proof/Laws/GoodBus.lean ====
section
/-! SUPPORT. The operations of Bus.lean keep the memories, the reserved bits of the registers, and the queue. -/

namespace Sys2Proof.Machine

theorem State.refuse_good {pq : List Instr} {s : State} (a : Nat) (hg : Good pq s) :
    Good pq (State.refuse s a) := by
  unfold State.refuse
  try dsimp only
  iterate 60 all_goals with_reducible first
    | assumption | apply State.setCore_good | apply State.setFld_good | apply good_ite | split

theorem State.storeFields_good {pq : List Instr} {s : State} (a : Nat) (d : RegDef) (v : Word) (hg : Good pq s) :
    Good pq (State.storeFields s a d v) := by
  unfold State.storeFields
  try dsimp only
  iterate 60 all_goals with_reducible first
    | assumption | apply State.setReg_good

theorem onEdge_good {pq : List Instr} (old : Word) (v : Word) (i : Nat) (on : State → State) (off : State → State) {s : State} (h_on : ∀ y0, Good pq y0 → Good pq (on y0)) (h_off : ∀ y0, Good pq y0 → Good pq (off y0)) (hg : Good pq s) :
    Good pq (onEdge old v i on off s) := by
  unfold onEdge
  try dsimp only
  iterate 60 all_goals with_reducible first
    | assumption | intro _ | apply h_on | apply h_off | apply good_ite | split

theorem storeBut_good {pq : List Instr} (m : Word) (a : Nat) (d : RegDef) (v : Word) {s : State} (hg : Good pq s) :
    Good pq (storeBut m a d v s) := by
  unfold storeBut
  try dsimp only
  iterate 60 all_goals with_reducible first
    | assumption | apply State.storeFields_good

theorem writeSupply_good {pq : List Instr} (who : Requester) (a : Nat) (d : RegDef) (v : Word) {s : State} (hg : Good pq s) :
    Good pq (writeSupply who a d v s) := by
  unfold writeSupply
  try dsimp only
  iterate 60 all_goals with_reducible first
    | assumption | apply State.storeFields_good | apply ioFaultClear_good | apply wdogKick_good | apply wdogWrite_good
    | apply resetCommand_good | apply coreStart_good | apply outputRelease_good | apply good_ite

theorem writeConverters_good {pq : List Instr} (a : Nat) (d : RegDef) (v : Word) {s : State} (hg : Good pq s) :
    Good pq (writeConverters a d v s) := by
  unfold writeConverters
  try dsimp only
  iterate 60 all_goals with_reducible first
    | assumption | intro _ | apply storeBut_good | apply onEdge_good | apply State.storeFields_good
    | apply surveyEnable_good | apply surveyDisable_good | apply urgentRequest_good | apply surveyStart_good
    | apply decSnap_good | apply pathDisable_good | apply pathStart_good | apply xbStopped_good
    | apply modulatorStopped_good | apply rbSelWrite_good | apply thresholdWrite_good | apply good_ite | split
    | apply good_id

theorem writeQuench_good {pq : List Instr} (a : Nat) (d : RegDef) (v : Word) {s : State} (hg : Good pq s) :
    Good pq (writeQuench a d v s) := by
  unfold writeQuench
  try dsimp only
  iterate 60 all_goals with_reducible first
    | assumption | apply State.storeFields_good | apply swReq_good | apply quenchRelease_good | apply good_ite

theorem writeRunner_good {pq : List Instr} (who : Requester) (a : Nat) (d : RegDef) (v : Word) {s : State} (hg : Good pq s) :
    Good pq (writeRunner who a d v s) := by
  unfold writeRunner
  try dsimp only
  iterate 60 all_goals with_reducible first
    | assumption | intro _ | apply storeBut_good | apply onEdge_good | apply State.storeFields_good
    | apply pushHi_good | apply pushLo_good | apply State.setPush_good | apply hwmClear_good | apply auditSnap_good
    | apply channelEnable_good | apply channelDisable_good | apply good_ite | split

theorem stateWordWrite_good {pq : List Instr} (r : Nat) (a : Nat) (n : Nat) (w : Nat) (v : Word) {s : State} (hg : Good pq s) :
    Good pq (stateWordWrite r a n w v s) := by
  unfold stateWordWrite
  try dsimp only
  iterate 60 all_goals with_reducible first
    | assumption | apply State.refuse_good | apply stateHiWrite_good | apply State.setLawWord_good | apply good_ite

theorem writeLaw_good {pq : List Instr} (who : Requester) (a : Nat) (d : RegDef) (v : Word) {s : State} (hg : Good pq s) :
    Good pq (writeLaw who a d v s) := by
  unfold writeLaw
  try dsimp only
  iterate 60 all_goals with_reducible first
    | assumption | intro _ | apply stateWordWrite_good | apply storeBut_good | apply onEdge_good
    | apply State.storeFields_good | apply stateLoWrite_good | apply lawEnable_good | apply lawDisable_good
    | apply State.setReg_good | apply good_ite | split

theorem writePg_good {pq : List Instr} (a : Nat) (d : RegDef) (v : Word) {s : State} (hg : Good pq s) :
    Good pq (writePg a d v s) := by
  unfold writePg
  try dsimp only
  iterate 60 all_goals with_reducible first
    | assumption | intro _ | apply storeBut_good | apply onEdge_good | apply State.storeFields_good
    | apply accSnap_good | apply pgDisable_good | apply pgEnable_good | apply good_ite | split

theorem swiWrite_good {pq : List Instr} (set : Bool) (k : Nat) (bits : Word) {s : State} (hg : Good pq s) :
    Good pq (swiWrite set k bits s) := by
  unfold swiWrite
  try dsimp only
  iterate 60 all_goals with_reducible first
    | assumption | apply good_ite | split | apply Good.of_mk | apply Good.parts

theorem writeSystem_good {pq : List Instr} (who : Requester) (a : Nat) (d : RegDef) (v : Word) {s : State} (hg : Good pq s) :
    Good pq (writeSystem who a d v s) := by
  unfold writeSystem
  try dsimp only
  iterate 60 all_goals with_reducible first
    | assumption | intro _ | apply swiWrite_good | apply storeBut_good | apply onEdge_good
    | apply State.storeFields_good | apply ladleFaultClear_good | apply ladleGo_good | apply ladleDisable_good
    | apply ladleEnable_good | apply ladleReject_good | apply good_ite | split

theorem writeFlash_good {pq : List Instr} (who : Requester) (a : Nat) (d : RegDef) (v : Word) {s : State} (hg : Good pq s) :
    Good pq (writeFlash who a d v s) := by
  unfold writeFlash
  try dsimp only
  iterate 60 all_goals with_reducible first
    | assumption | apply State.storeFields_good | apply interruptedClear_good | apply flashCommand_good
    | apply State.setReg_good | apply good_ite

theorem writeTwiast_good {pq : List Instr} (a : Nat) (d : RegDef) (v : Word) {s : State} (hg : Good pq s) :
    Good pq (writeTwiast a d v s) := by
  unfold writeTwiast
  try dsimp only
  iterate 60 all_goals with_reducible first
    | assumption | intro _ | apply storeBut_good | apply onEdge_good | apply State.storeFields_good
    | apply State.refuse_good | apply heatForget_good | apply heatIssue_good | apply portDisable_good
    | apply portEnable_good | apply deadClear_good | apply twAuditSnap_good | apply good_ite | split
    | apply Good.of_mk | apply Good.parts

theorem writeHost_good {pq : List Instr} (a : Nat) (d : RegDef) (v : Word) {s : State} (hg : Good pq s) :
    Good pq (writeHost a d v s) := by
  unfold writeHost
  try dsimp only
  iterate 60 all_goals with_reducible first
    | assumption | apply State.storeFields_good | apply mgmtRegWrite_good | apply hostLinkWrite_good
    | apply replyGo_good | apply assayCancel_good | apply assayRequest_good | apply good_ite | split

theorem writeEffect_good {pq : List Instr} (who : Requester) (a : Nat) (d : RegDef) (v : Word) {s : State} (hg : Good pq s) :
    Good pq (writeEffect who a d v s) := by
  unfold writeEffect
  try dsimp only
  iterate 60 all_goals with_reducible first
    | assumption | apply writeHost_good | apply writeTwiast_good | apply writeFlash_good | apply writeSystem_good
    | apply writePg_good | apply writeLaw_good | apply writeRunner_good | apply writeQuench_good
    | apply writeConverters_good | apply writeSupply_good | apply good_ite

theorem writeReg_good {pq : List Instr} (who : Requester) (a : Nat) (w : Word) {s : State} (hg : Good pq s) :
    Good pq (writeReg who a w s) := by
  unfold writeReg
  try dsimp only
  iterate 60 all_goals with_reducible first
    | assumption | apply writeEffect_good | apply writeLaw_good | apply State.refuse_good | apply good_ite | split

theorem writeField_good {pq : List Instr} (who : Requester) (a : Nat) (f : Fld) (v : Nat) {s : State} (hg : Good pq s) :
    Good pq (writeField who a f v s) := by
  unfold writeField
  try dsimp only
  iterate 60 all_goals with_reducible first
    | assumption | apply writeReg_good

end Sys2Proof.Machine
end

