-- ==== Sys2Proof/Laws/GoodCoreEntry.lean ====
section
/-! SUPPORT. The operations of CoreEntry.lean keep the memories, the reserved bits of the registers, and the queue. -/

namespace Sys2Proof.Machine

theorem landCell_good {pq : List Instr} (c : Nat) (sh : Option LoadShadow) {s : State} (hg : Good pq s) :
    Good pq (landCell c sh s) := by
  unfold landCell
  split
  · exact hg
  · rename_i d
    dsimp only
    split
    · exact hg
    · split
      · exact State.setStack_good _ _ _ hg
      · have hs := spillCell_good c d.stack (s.core c).user d.cell (wide d.value) hg
        revert hs
        cases spillCell c d.stack (s.core c).user d.cell (wide d.value) s <;> intro hs
        · exact hs
        · exact hs
        · exact hg

theorem pushFrame_good {pq : List Instr} (c : Nat) (p : Nat) (cells : List (BitVec 64)) {s : State} (hg : Good pq s) :
    (pushFrame c p cells s).Good pq := by
  unfold pushFrame
  try dsimp only
  iterate 60 all_goals with_reducible first
    | assumption | intro _ | apply spillCell_good | apply stackAccess_good | apply good_getD | apply Try.bind_good
    | apply tryEach_good | apply Try.ok_good

theorem haltCore_good {pq : List Instr} (c : Nat) {s : State} (hg : Good pq s) :
    Good pq (haltCore c s) := by
  unfold haltCore
  try dsimp only
  iterate 60 all_goals with_reducible first
    | assumption | apply State.setCore_good | apply quenchRequest_good | apply Good.of_mk | apply Good.parts

theorem stackPath_good {pq : List Instr} (c : Nat) (e : Entry) (p : Word) {s : State} (hg : Good pq s) :
    Good pq (stackPath c e p s) := by
  unfold stackPath
  try dsimp only
  iterate 60 all_goals with_reducible first
    | assumption | apply haltCore_good | apply State.setCore_good | apply good_ite

theorem enterCore_good {pq : List Instr} (c : Nat) (e : Entry) (vector : Core → Word) (level : BitVec 5) {s : State} (hg : Good pq s) :
    ∀ nx, (enterCore c e vector level s) = some nx → Good pq nx := by
  intro t ht
  unfold enterCore at ht
  dsimp only at ht
  split at ht
  · cases ht
    exact stackPath_good _ _ _ hg
  · have hs := pushFrame_good c (s.core c).rs.ptr.toNat (frameCells (s.core c) e) hg
    generalize pushFrame c (s.core c).rs.ptr.toNat (frameCells (s.core c) e) s = r at hs ht
    cases r with
    | wait => cases ht
    | exc x u =>
      cases ht
      exact stackPath_good _ _ _ hs
    | ok x u =>
      cases ht
      exact State.setCore_good _ _ hs

theorem takeException_good {pq : List Instr} (c : Nat) (e : Exc) {s : State} (hg : Good pq s) :
    ∀ nx, (takeException c e s) = some nx → Good pq nx := by
  unfold takeException
  try dsimp only
  iterate 60 all_goals with_reducible first
    | assumption | intro _ | apply enterCore_good

theorem readLine_good {pq : List Instr} (l : Nat) (ecc : WordEcc) {s : State} (hg : Good pq s) :
    Good pq (readLine l ecc s).1 := by
  exact good_foldl_fst (r := (s, true)) hg (fun _ _ h => State.eccRead_good _ _ h)

theorem fillMiss_good {pq : List Instr} (c : Nat) (p : Nat) (ecc : WordEcc) {s : State} (hg : Good pq s) :
    Good pq (fillMiss c p ecc s).1 := by
  unfold fillMiss
  try dsimp only
  iterate 60 all_goals with_reducible first
    | assumption | apply readLine_good | apply State.setCore_good | apply good_ite | split

theorem fetchByte_good {pq : List Instr} (c : Nat) (va : Nat) {s : State} (hg : Good pq s) :
    (fetchByte c va s).Good pq := by
  unfold fetchByte
  try dsimp only
  iterate 60 all_goals with_reducible first
    | assumption | intro _ | apply fillMiss_good | apply translate_good | apply State.eccRead_good
    | apply State.setCore_good | apply Try.bind_good | apply Try.ok_good | apply Try.exc_good | exact Try.wait_good
    | apply Try.ite_good | split

theorem keepingFetch_good {pq : List Instr} (c : Nat) (len : Nat) (body : State → Try Unit) {s : State} (h_body : ∀ y0, Good pq y0 → (body y0).Good pq) (hg : Good pq s) :
    (keepingFetch c len body s).Good pq := by
  unfold keepingFetch
  try dsimp only
  iterate 60 all_goals with_reducible first
    | assumption | intro _ | apply h_body | apply State.setCore_good | apply Try.bind_good | apply Try.ok_good
    | apply Try.exc_good | exact Try.wait_good | apply Good.of_mk | apply Good.parts

theorem fetchCheck_good {pq : List Instr} (c : Nat) (pc : Nat) (len : Nat) {s : State} (hg : Good pq s) :
    (fetchCheck c pc len s).Good pq := by
  unfold fetchCheck
  try dsimp only
  iterate 60 all_goals with_reducible first
    | assumption | intro _ | apply fetchByte_good | apply Try.bind_good | apply tryEach_good

theorem coreRun_good {pq : List Instr} (c : Nat) (len : Nat) (kind : Nat) (body : Cell → State → Try Flow) {s : State} (h_body : ∀ y0 y1, Good pq y1 → (body y0 y1).Good pq) (hg : Good pq s) :
    Good pq (coreRun c len kind body s) := by
  unfold coreRun
  split
  · exact hg
  · dsimp only
    have hf := fetchCheck_good c (s.core c).pc.toNat len hg
    generalize fetchCheck c (s.core c).pc.toNat len s = r at hf
    cases r with
    | wait => exact hg
    | exc e u => exact good_getD (takeException_good _ _ (landCell_good _ _ (State.setCore_good _ _ hf))) hg
    | ok x u =>
      have hk := State.setCore_good c (u.core c).begin' hf
      have hb := Try.ite_good (c := (s.core c).progress ≠ 0 ∧ prgForeign kind (s.core c).progress = true)
        (Try.exc_good (α := Flow) (e := mismatchExc (s.core c).progress) hk) (h_body (s.core c).progress _ hk)
      dsimp only
      generalize (if (s.core c).progress ≠ 0 ∧ prgForeign kind (s.core c).progress = true then
        Try.exc (mismatchExc (s.core c).progress) (u.setCore c (u.core c).begin') else
        body (s.core c).progress (u.setCore c (u.core c).begin')) = r at hb
      cases r with
      | wait => exact hg
      | exc e v => exact good_getD (takeException_good _ _ (landCell_good _ _ hb)) hg
      | ok f v =>
        have hb : Good pq v := hb
        cases f <;> first
          | exact State.setCore_good _ _ hb
          | exact good_ite (State.setCore_good _ _ hb) (landCell_good _ _ (State.setCore_good _ _ hb))

theorem coreInstrReads_good {pq : List Instr} (c : Nat) (len : Nat) (kind : Nat) (reads : State → List Nat) (body : Cell → State → Try Flow) {s : State} (h_body : ∀ y0 y1, Good pq y1 → (body y0 y1).Good pq) (hg : Good pq s) :
    Good pq (coreInstrReads c len kind reads body s) := by
  unfold coreInstrReads
  try dsimp only
  iterate 60 all_goals with_reducible first
    | assumption | intro _ | apply h_body | apply coreRun_good | apply pairedReads_good

theorem coreInstr_good {pq : List Instr} (c : Nat) (len : Nat) (kind : Nat) (body : Cell → State → Try Flow) {s : State} (h_body : ∀ y0 y1, Good pq y1 → (body y0 y1).Good pq) (hg : Good pq s) :
    Good pq (coreInstr c len kind body s) := by
  unfold coreInstr
  try dsimp only
  iterate 60 all_goals with_reducible first
    | assumption | intro _ | apply h_body | apply coreInstrReads_good

theorem plainInstr_good {pq : List Instr} (c : Nat) (len : Nat) (body : State → Try Flow) {s : State} (h_body : ∀ y0, Good pq y0 → (body y0).Good pq) (hg : Good pq s) :
    Good pq (plainInstr c len body s) := by
  exact coreInstr_good _ _ _ _ (fun _ s h => h_body s h) hg

theorem interruptClaim_good {pq : List Instr} (c : Nat) {s : State} (hg : Good pq s) :
    Good pq (interruptClaim c s) := by
  unfold interruptClaim
  try dsimp only
  iterate 60 all_goals with_reducible first
    | assumption | apply arbitrate_good | apply State.setCore_good | apply good_ite | split

theorem enterClaimed_good {pq : List Instr} (c : Nat) {s : State} (hg : Good pq s) :
    Good pq (enterClaimed c s) := by
  unfold enterClaimed
  dsimp only
  split
  · exact hg
  · split
    · rename_i q hq hon
      have hl := landCell_good c (s.core c).shadow (State.setCore_good c
        { s.core c with shadow := none, icClaim := BitVec.ofNat 32 (32 + q.source) } hg)
      have he := enterCore_good c { code := 32 + q.source, pc := (s.core c).pc, prg := (s.core c).progress, cause := none }
        (fun _ => q.vector) (BitVec.ofNat 5 (s.prio c q.source + 1)) hl
      split
      · exact hg
      · rename_i u hu
        have hu := he u hu
        exact good_ite hu (State.setCore_good _ _ hu)
    · exact hg

theorem interruptEntry_good {pq : List Instr} (c : Nat) {s : State} (hg : Good pq s) :
    Good pq (interruptEntry c s) := by
  unfold interruptEntry
  try dsimp only
  iterate 60 all_goals with_reducible first
    | assumption | intro _ | apply enterClaimed_good | apply paired_good

theorem waitExit_good {pq : List Instr} (c : Nat) {s : State} (hg : Good pq s) :
    Good pq (waitExit c s) := by
  unfold waitExit
  try dsimp only
  iterate 60 all_goals with_reducible first
    | assumption | intro _ | apply arbitrate_good | apply paired_good | apply State.setCore_good

theorem peekCell_good {pq : List Instr} (c : Nat) (i : StackId) (user : Bool) (va : Nat) {s : State} (hg : Good pq s) :
    (peekCell c i user va s).Good pq := by
  unfold peekCell
  try dsimp only
  iterate 60 all_goals with_reducible first
    | assumption | intro _ | apply fillCell_good | apply Try.bind_good | apply Try.ok_good | apply Try.exc_good
    | exact Try.wait_good | apply Try.ite_good | split

theorem retiBody_good {pq : List Instr} (c : Nat) {s : State} (hg : Good pq s) :
    (retiBody c s).Good pq := by
  unfold retiBody
  try dsimp only
  iterate 60 all_goals with_reducible first
    | assumption | intro _ | apply peekCell_good | apply State.setCore_good | apply Try.bind_good | apply Try.ok_good
    | apply Try.exc_good | exact Try.wait_good | apply Try.ite_good | split

end Sys2Proof.Machine
end

