-- ==== Sys2Proof/Laws/GoodCoreStack.lean ====
section
/-! SUPPORT. The operations of CoreStack.lean keep the memories, the reserved bits of the registers, and the queue. -/

namespace Sys2Proof.Machine

theorem dataOp_good {pq : List Instr} (c : Nat) (pops : Nat) (outs : Nat) (f : Core → List Cell → Work) {s : State} (hg : Good pq s) :
    (dataOp c pops outs f s).Good pq := by
  unfold dataOp
  try dsimp only
  iterate 60 all_goals with_reducible first
    | assumption | intro _ | apply prepare_good | apply State.setStack_good | apply State.setCore_good
    | apply Try.bind_good | apply Try.ok_good | apply Try.exc_good | exact Try.wait_good | apply Try.ite_good | split

theorem instr0_good {pq : List Instr} (c : Nat) (len : Nat) (outs : Nat) (f : Core → Work) {s : State} (hg : Good pq s) :
    Good pq (instr0 c len outs f s) := by
  unfold instr0
  try dsimp only
  iterate 60 all_goals with_reducible first
    | assumption | intro _ | apply dataOp_good | apply plainInstr_good

theorem instr1_good {pq : List Instr} (c : Nat) (len : Nat) (outs : Nat) (f : Core → Cell → Work) {s : State} (hg : Good pq s) :
    Good pq (instr1 c len outs f s) := by
  unfold instr1
  try dsimp only
  iterate 60 all_goals with_reducible first
    | assumption | intro _ | apply dataOp_good | apply plainInstr_good

theorem instr2_good {pq : List Instr} (c : Nat) (len : Nat) (outs : Nat) (f : Core → Cell → Cell → Work) {s : State} (hg : Good pq s) :
    Good pq (instr2 c len outs f s) := by
  unfold instr2
  try dsimp only
  iterate 60 all_goals with_reducible first
    | assumption | intro _ | apply dataOp_good | apply plainInstr_good

theorem instr3_good {pq : List Instr} (c : Nat) (len : Nat) (outs : Nat) (f : Core → Cell → Cell → Cell → Work) {s : State} (hg : Good pq s) :
    Good pq (instr3 c len outs f s) := by
  unfold instr3
  try dsimp only
  iterate 60 all_goals with_reducible first
    | assumption | intro _ | apply dataOp_good | apply plainInstr_good

theorem legalOnly_good {pq : List Instr} (bad : Bool) (body : State → Try Flow) {s : State} (h_body : ∀ y0, Good pq y0 → (body y0).Good pq) (hg : Good pq s) :
    (legalOnly bad body s).Good pq := by
  unfold legalOnly
  try dsimp only
  iterate 60 all_goals with_reducible first
    | assumption | intro _ | apply h_body | apply Try.bind_good | apply Try.ok_good | apply Try.exc_good
    | exact Try.wait_good | apply Try.ite_good

theorem pickBody_good {pq : List Instr} (c : Nat) (n : Nat) {s : State} (hg : Good pq s) :
    (pickBody c n s).Good pq := by
  unfold pickBody
  try dsimp only
  iterate 60 all_goals with_reducible first
    | assumption | intro _ | apply peekCell_good | apply prepare_good | apply State.setStack_good
    | apply Try.bind_good | apply Try.ok_good | apply Try.exc_good | exact Try.wait_good | apply Try.ite_good | split

theorem execNop_good {pq : List Instr} (c : Fin 16) {s : State} (hg : Good pq s) :
    ∀ nx, (execNop c s) = .next nx → Good pq nx := by
  unfold execNop
  rintro _ ⟨⟩
  try dsimp only
  iterate 60 all_goals with_reducible first
    | assumption | apply instr0_good

theorem execDrop_good {pq : List Instr} (c : Fin 16) {s : State} (hg : Good pq s) :
    ∀ nx, (execDrop c s) = .next nx → Good pq nx := by
  unfold execDrop
  rintro _ ⟨⟩
  try dsimp only
  iterate 60 all_goals with_reducible first
    | assumption | apply instr1_good

theorem execDup_good {pq : List Instr} (c : Fin 16) {s : State} (hg : Good pq s) :
    ∀ nx, (execDup c s) = .next nx → Good pq nx := by
  unfold execDup
  rintro _ ⟨⟩
  try dsimp only
  iterate 60 all_goals with_reducible first
    | assumption | apply instr1_good

theorem execStackSwap_good {pq : List Instr} (c : Fin 16) {s : State} (hg : Good pq s) :
    ∀ nx, (execStackSwap c s) = .next nx → Good pq nx := by
  unfold execStackSwap
  rintro _ ⟨⟩
  try dsimp only
  iterate 60 all_goals with_reducible first
    | assumption | apply instr2_good

theorem execStackOver_good {pq : List Instr} (c : Fin 16) {s : State} (hg : Good pq s) :
    ∀ nx, (execStackOver c s) = .next nx → Good pq nx := by
  unfold execStackOver
  rintro _ ⟨⟩
  try dsimp only
  iterate 60 all_goals with_reducible first
    | assumption | apply instr2_good

theorem execRot_good {pq : List Instr} (c : Fin 16) {s : State} (hg : Good pq s) :
    ∀ nx, (execRot c s) = .next nx → Good pq nx := by
  unfold execRot
  rintro _ ⟨⟩
  try dsimp only
  iterate 60 all_goals with_reducible first
    | assumption | apply instr3_good

theorem execNip_good {pq : List Instr} (c : Fin 16) {s : State} (hg : Good pq s) :
    ∀ nx, (execNip c s) = .next nx → Good pq nx := by
  unfold execNip
  rintro _ ⟨⟩
  try dsimp only
  iterate 60 all_goals with_reducible first
    | assumption | apply instr2_good

theorem execTuck_good {pq : List Instr} (c : Fin 16) {s : State} (hg : Good pq s) :
    ∀ nx, (execTuck c s) = .next nx → Good pq nx := by
  unfold execTuck
  rintro _ ⟨⟩
  try dsimp only
  iterate 60 all_goals with_reducible first
    | assumption | apply instr2_good

theorem execDrop2_good {pq : List Instr} (c : Fin 16) {s : State} (hg : Good pq s) :
    ∀ nx, (execDrop2 c s) = .next nx → Good pq nx := by
  unfold execDrop2
  rintro _ ⟨⟩
  try dsimp only
  iterate 60 all_goals with_reducible first
    | assumption | apply instr2_good

theorem execDup2_good {pq : List Instr} (c : Fin 16) {s : State} (hg : Good pq s) :
    ∀ nx, (execDup2 c s) = .next nx → Good pq nx := by
  unfold execDup2
  rintro _ ⟨⟩
  try dsimp only
  iterate 60 all_goals with_reducible first
    | assumption | apply instr2_good

theorem execPick_good {pq : List Instr} (c : Fin 16) (k : Byte) {s : State} (hg : Good pq s) :
    ∀ nx, (execPick c k s) = .next nx → Good pq nx := by
  unfold execPick
  rintro _ ⟨⟩
  try dsimp only
  iterate 60 all_goals with_reducible first
    | assumption | intro _ | apply pickBody_good | apply legalOnly_good | apply plainInstr_good

theorem execLit8_good {pq : List Instr} (c : Fin 16) (i : Byte) {s : State} (hg : Good pq s) :
    ∀ nx, (execLit8 c i s) = .next nx → Good pq nx := by
  unfold execLit8
  rintro _ ⟨⟩
  try dsimp only
  iterate 60 all_goals with_reducible first
    | assumption | apply instr0_good

theorem execLit16_good {pq : List Instr} (c : Fin 16) (i : BitVec 16) {s : State} (hg : Good pq s) :
    ∀ nx, (execLit16 c i s) = .next nx → Good pq nx := by
  unfold execLit16
  rintro _ ⟨⟩
  try dsimp only
  iterate 60 all_goals with_reducible first
    | assumption | apply instr0_good

theorem execLit32_good {pq : List Instr} (c : Fin 16) (i : Word) {s : State} (hg : Good pq s) :
    ∀ nx, (execLit32 c i s) = .next nx → Good pq nx := by
  unfold execLit32
  rintro _ ⟨⟩
  try dsimp only
  iterate 60 all_goals with_reducible first
    | assumption | apply instr0_good

theorem execLith_good {pq : List Instr} (c : Fin 16) (i : BitVec 16) {s : State} (hg : Good pq s) :
    ∀ nx, (execLith c i s) = .next nx → Good pq nx := by
  unfold execLith
  rintro _ ⟨⟩
  try dsimp only
  iterate 60 all_goals with_reducible first
    | assumption | apply instr0_good

theorem execFrd_good {pq : List Instr} (c : Fin 16) (r : Fin 16) {s : State} (hg : Good pq s) :
    ∀ nx, (execFrd c r s) = .next nx → Good pq nx := by
  unfold execFrd
  rintro _ ⟨⟩
  try dsimp only
  iterate 60 all_goals with_reducible first
    | assumption | apply instr0_good

theorem execFwr_good {pq : List Instr} (c : Fin 16) (r : Fin 16) {s : State} (hg : Good pq s) :
    ∀ nx, (execFwr c r s) = .next nx → Good pq nx := by
  unfold execFwr
  rintro _ ⟨⟩
  try dsimp only
  iterate 60 all_goals with_reducible first
    | assumption | apply instr1_good

end Sys2Proof.Machine
end

