-- ==== Sys2Proof/Laws/GoodCoreArith.lean ====
section
/-! SUPPORT. The operations of CoreArith.lean keep the memories, the reserved bits of the registers, and the queue. -/

namespace Sys2Proof.Machine

theorem divBody_good {pq : List Instr} (c : Nat) (steps : Nat) (p : Cell) {s : State} (hg : Good pq s) :
    (divBody c steps p s).Good pq := by
  unfold divBody
  try dsimp only
  iterate 60 all_goals with_reducible first
    | assumption | intro _ | apply prepare_good | apply State.setStack_good | apply State.setCore_good
    | apply Try.bind_good | apply Try.ok_good | apply Try.exc_good | exact Try.wait_good | apply Try.ite_good | split

theorem execAdd_good {pq : List Instr} (c : Fin 16) {s : State} (hg : Good pq s) :
    ∀ nx, (execAdd c s) = .next nx → Good pq nx := by
  unfold execAdd
  rintro _ ⟨⟩
  try dsimp only
  iterate 60 all_goals with_reducible first
    | assumption | apply instr2_good

theorem execSub_good {pq : List Instr} (c : Fin 16) {s : State} (hg : Good pq s) :
    ∀ nx, (execSub c s) = .next nx → Good pq nx := by
  unfold execSub
  rintro _ ⟨⟩
  try dsimp only
  iterate 60 all_goals with_reducible first
    | assumption | apply instr2_good

theorem execNeg_good {pq : List Instr} (c : Fin 16) {s : State} (hg : Good pq s) :
    ∀ nx, (execNeg c s) = .next nx → Good pq nx := by
  unfold execNeg
  rintro _ ⟨⟩
  try dsimp only
  iterate 60 all_goals with_reducible first
    | assumption | apply instr1_good

theorem execAbs_good {pq : List Instr} (c : Fin 16) {s : State} (hg : Good pq s) :
    ∀ nx, (execAbs c s) = .next nx → Good pq nx := by
  unfold execAbs
  rintro _ ⟨⟩
  try dsimp only
  iterate 60 all_goals with_reducible first
    | assumption | apply instr1_good

theorem execMulq_good {pq : List Instr} (c : Fin 16) {s : State} (hg : Good pq s) :
    ∀ nx, (execMulq c s) = .next nx → Good pq nx := by
  unfold execMulq
  rintro _ ⟨⟩
  try dsimp only
  iterate 60 all_goals with_reducible first
    | assumption | apply instr2_good

theorem execMuli_good {pq : List Instr} (c : Fin 16) {s : State} (hg : Good pq s) :
    ∀ nx, (execMuli c s) = .next nx → Good pq nx := by
  unfold execMuli
  rintro _ ⟨⟩
  try dsimp only
  iterate 60 all_goals with_reducible first
    | assumption | apply instr2_good

theorem execMacq_good {pq : List Instr} (c : Fin 16) {s : State} (hg : Good pq s) :
    ∀ nx, (execMacq c s) = .next nx → Good pq nx := by
  unfold execMacq
  rintro _ ⟨⟩
  try dsimp only
  iterate 60 all_goals with_reducible first
    | assumption | apply instr3_good

theorem execMsuq_good {pq : List Instr} (c : Fin 16) {s : State} (hg : Good pq s) :
    ∀ nx, (execMsuq c s) = .next nx → Good pq nx := by
  unfold execMsuq
  rintro _ ⟨⟩
  try dsimp only
  iterate 60 all_goals with_reducible first
    | assumption | apply instr3_good

theorem execMin_good {pq : List Instr} (c : Fin 16) {s : State} (hg : Good pq s) :
    ∀ nx, (execMin c s) = .next nx → Good pq nx := by
  unfold execMin
  rintro _ ⟨⟩
  try dsimp only
  iterate 60 all_goals with_reducible first
    | assumption | apply instr2_good

theorem execMax_good {pq : List Instr} (c : Fin 16) {s : State} (hg : Good pq s) :
    ∀ nx, (execMax c s) = .next nx → Good pq nx := by
  unfold execMax
  rintro _ ⟨⟩
  try dsimp only
  iterate 60 all_goals with_reducible first
    | assumption | apply instr2_good

theorem execShl_good {pq : List Instr} (c : Fin 16) (k : Byte) {s : State} (hg : Good pq s) :
    ∀ nx, (execShl c k s) = .next nx → Good pq nx := by
  unfold execShl
  rintro _ ⟨⟩
  try dsimp only
  iterate 60 all_goals with_reducible first
    | assumption | intro _ | apply legalOnly_good | apply dataOp_good | apply plainInstr_good

theorem execShr_good {pq : List Instr} (c : Fin 16) (k : Byte) {s : State} (hg : Good pq s) :
    ∀ nx, (execShr c k s) = .next nx → Good pq nx := by
  unfold execShr
  rintro _ ⟨⟩
  try dsimp only
  iterate 60 all_goals with_reducible first
    | assumption | intro _ | apply legalOnly_good | apply dataOp_good | apply plainInstr_good

theorem execLsr_good {pq : List Instr} (c : Fin 16) (k : Byte) {s : State} (hg : Good pq s) :
    ∀ nx, (execLsr c k s) = .next nx → Good pq nx := by
  unfold execLsr
  rintro _ ⟨⟩
  try dsimp only
  iterate 60 all_goals with_reducible first
    | assumption | intro _ | apply legalOnly_good | apply dataOp_good | apply plainInstr_good

theorem execSatw_good {pq : List Instr} (c : Fin 16) {s : State} (hg : Good pq s) :
    ∀ nx, (execSatw c s) = .next nx → Good pq nx := by
  unfold execSatw
  rintro _ ⟨⟩
  try dsimp only
  iterate 60 all_goals with_reducible first
    | assumption | apply instr1_good

theorem execDiv_good {pq : List Instr} (c : Fin 16) (steps : Nat) {s : State} (hg : Good pq s) :
    ∀ nx, (execDiv c steps s) = .next nx → Good pq nx := by
  unfold execDiv
  rintro _ ⟨⟩
  try dsimp only
  iterate 60 all_goals with_reducible first
    | assumption | intro _ | apply divBody_good | apply coreInstr_good

theorem execLim_good {pq : List Instr} (c : Fin 16) {s : State} (hg : Good pq s) :
    ∀ nx, (execLim c s) = .next nx → Good pq nx := by
  unfold execLim
  rintro _ ⟨⟩
  try dsimp only
  iterate 60 all_goals with_reducible first
    | assumption | apply instr3_good

theorem execAnd_good {pq : List Instr} (c : Fin 16) {s : State} (hg : Good pq s) :
    ∀ nx, (execAnd c s) = .next nx → Good pq nx := by
  unfold execAnd
  rintro _ ⟨⟩
  try dsimp only
  iterate 60 all_goals with_reducible first
    | assumption | apply instr2_good

theorem execOr_good {pq : List Instr} (c : Fin 16) {s : State} (hg : Good pq s) :
    ∀ nx, (execOr c s) = .next nx → Good pq nx := by
  unfold execOr
  rintro _ ⟨⟩
  try dsimp only
  iterate 60 all_goals with_reducible first
    | assumption | apply instr2_good

theorem execXor_good {pq : List Instr} (c : Fin 16) {s : State} (hg : Good pq s) :
    ∀ nx, (execXor c s) = .next nx → Good pq nx := by
  unfold execXor
  rintro _ ⟨⟩
  try dsimp only
  iterate 60 all_goals with_reducible first
    | assumption | apply instr2_good

theorem execNot_good {pq : List Instr} (c : Fin 16) {s : State} (hg : Good pq s) :
    ∀ nx, (execNot c s) = .next nx → Good pq nx := by
  unfold execNot
  rintro _ ⟨⟩
  try dsimp only
  iterate 60 all_goals with_reducible first
    | assumption | apply instr1_good

theorem execCeq_good {pq : List Instr} (c : Fin 16) {s : State} (hg : Good pq s) :
    ∀ nx, (execCeq c s) = .next nx → Good pq nx := by
  unfold execCeq
  rintro _ ⟨⟩
  try dsimp only
  iterate 60 all_goals with_reducible first
    | assumption | apply instr2_good

theorem execCne_good {pq : List Instr} (c : Fin 16) {s : State} (hg : Good pq s) :
    ∀ nx, (execCne c s) = .next nx → Good pq nx := by
  unfold execCne
  rintro _ ⟨⟩
  try dsimp only
  iterate 60 all_goals with_reducible first
    | assumption | apply instr2_good

theorem execClt_good {pq : List Instr} (c : Fin 16) {s : State} (hg : Good pq s) :
    ∀ nx, (execClt c s) = .next nx → Good pq nx := by
  unfold execClt
  rintro _ ⟨⟩
  try dsimp only
  iterate 60 all_goals with_reducible first
    | assumption | apply instr2_good

theorem execCle_good {pq : List Instr} (c : Fin 16) {s : State} (hg : Good pq s) :
    ∀ nx, (execCle c s) = .next nx → Good pq nx := by
  unfold execCle
  rintro _ ⟨⟩
  try dsimp only
  iterate 60 all_goals with_reducible first
    | assumption | apply instr2_good

theorem execCgt_good {pq : List Instr} (c : Fin 16) {s : State} (hg : Good pq s) :
    ∀ nx, (execCgt c s) = .next nx → Good pq nx := by
  unfold execCgt
  rintro _ ⟨⟩
  try dsimp only
  iterate 60 all_goals with_reducible first
    | assumption | apply instr2_good

theorem execCge_good {pq : List Instr} (c : Fin 16) {s : State} (hg : Good pq s) :
    ∀ nx, (execCge c s) = .next nx → Good pq nx := by
  unfold execCge
  rintro _ ⟨⟩
  try dsimp only
  iterate 60 all_goals with_reducible first
    | assumption | apply instr2_good

theorem execCltu_good {pq : List Instr} (c : Fin 16) {s : State} (hg : Good pq s) :
    ∀ nx, (execCltu c s) = .next nx → Good pq nx := by
  unfold execCltu
  rintro _ ⟨⟩
  try dsimp only
  iterate 60 all_goals with_reducible first
    | assumption | apply instr2_good

theorem execCz_good {pq : List Instr} (c : Fin 16) {s : State} (hg : Good pq s) :
    ∀ nx, (execCz c s) = .next nx → Good pq nx := by
  unfold execCz
  rintro _ ⟨⟩
  try dsimp only
  iterate 60 all_goals with_reducible first
    | assumption | apply instr1_good

theorem execCn_good {pq : List Instr} (c : Fin 16) {s : State} (hg : Good pq s) :
    ∀ nx, (execCn c s) = .next nx → Good pq nx := by
  unfold execCn
  rintro _ ⟨⟩
  try dsimp only
  iterate 60 all_goals with_reducible first
    | assumption | apply instr1_good

theorem execCrcb_good {pq : List Instr} (c : Fin 16) (m : Byte) (p : Byte) {s : State} (hg : Good pq s) :
    ∀ nx, (execCrcb c m p s) = .next nx → Good pq nx := by
  unfold execCrcb
  rintro _ ⟨⟩
  try dsimp only
  iterate 60 all_goals with_reducible first
    | assumption | intro _ | apply legalOnly_good | apply dataOp_good | apply plainInstr_good

theorem execCrcw_good {pq : List Instr} (c : Fin 16) (m : Byte) (p : Byte) {s : State} (hg : Good pq s) :
    ∀ nx, (execCrcw c m p s) = .next nx → Good pq nx := by
  unfold execCrcw
  rintro _ ⟨⟩
  try dsimp only
  iterate 60 all_goals with_reducible first
    | assumption | intro _ | apply legalOnly_good | apply dataOp_good | apply plainInstr_good

theorem execPar_good {pq : List Instr} (c : Fin 16) {s : State} (hg : Good pq s) :
    ∀ nx, (execPar c s) = .next nx → Good pq nx := by
  unfold execPar
  rintro _ ⟨⟩
  try dsimp only
  iterate 60 all_goals with_reducible first
    | assumption | apply instr1_good

theorem execBrev8_good {pq : List Instr} (c : Fin 16) {s : State} (hg : Good pq s) :
    ∀ nx, (execBrev8 c s) = .next nx → Good pq nx := by
  unfold execBrev8
  rintro _ ⟨⟩
  try dsimp only
  iterate 60 all_goals with_reducible first
    | assumption | apply instr1_good

theorem execBrev16_good {pq : List Instr} (c : Fin 16) {s : State} (hg : Good pq s) :
    ∀ nx, (execBrev16 c s) = .next nx → Good pq nx := by
  unfold execBrev16
  rintro _ ⟨⟩
  try dsimp only
  iterate 60 all_goals with_reducible first
    | assumption | apply instr1_good

theorem execBrev32_good {pq : List Instr} (c : Fin 16) {s : State} (hg : Good pq s) :
    ∀ nx, (execBrev32 c s) = .next nx → Good pq nx := by
  unfold execBrev32
  rintro _ ⟨⟩
  try dsimp only
  iterate 60 all_goals with_reducible first
    | assumption | apply instr1_good

end Sys2Proof.Machine
end

