-- ==== Sys2Proof/Laws/GoodCoreFlow.lean ====
section
/-! SUPPORT. The operations of CoreFlow.lean keep the memories, the reserved bits of the registers, and the queue. -/

namespace Sys2Proof.Machine

theorem flagBranch_good {pq : List Instr} (c : Nat) (i : Nat) (want : Bool) (o : BitVec 16) {s : State} (hg : Good pq s) :
    Good pq (flagBranch c i want o s) := by
  unfold flagBranch
  try dsimp only
  iterate 60 all_goals with_reducible first
    | assumption | apply instr0_good

theorem pushEach_good {pq : List Instr} (c : Nat) (i : StackId) (user : Bool) (cells : List (BitVec 64)) {s : State} (hg : Good pq s) :
    (pushEach c i user cells s).Good pq := by
  unfold pushEach
  dsimp only
  have hs := tryEach_good (f := fun v s =>
      (if (s.stack c i).cells.length < i.depth then .ok () s else spillOne c i user 0 0 s).bind fun _ s =>
      .ok () (s.setStack c i ((s.stack c i).push v))) (l := cells) hg (fun v s h =>
        Try.bind_good (Try.ite_good (Try.ok_good h) (spillOne_good _ _ _ _ _ h))
          (fun _ _ h => Try.ok_good (State.setStack_good _ _ _ h)))
  split
  · rename_i e
    rw [e] at hs
    exact Try.ok_good hs
  · exact Try.wait_good
  · rename_i e
    rw [e] at hs
    exact Try.exc_good (State.setStack_good _ _ _ hs)

theorem callPush_good {pq : List Instr} (c : Nat) (len : Nat) (m : BitVec 16) {s : State} (hg : Good pq s) :
    (callPush c len m s).Good pq := by
  unfold callPush
  try dsimp only
  iterate 60 all_goals with_reducible first
    | assumption | intro _ | apply pushEach_good | apply Try.bind_good | apply Try.ok_good | apply Try.exc_good
    | exact Try.wait_good | apply Try.ite_good | split

theorem callBody_good {pq : List Instr} (c : Nat) (m : BitVec 16) (t : Word) {s : State} (hg : Good pq s) :
    (callBody c m t s).Good pq := by
  unfold callBody
  try dsimp only
  iterate 60 all_goals with_reducible first
    | assumption | intro _ | apply callPush_good | apply Try.bind_good | apply Try.ok_good | apply Try.exc_good
    | exact Try.wait_good

theorem calliBody_good {pq : List Instr} (c : Nat) (m : BitVec 16) {s : State} (hg : Good pq s) :
    (calliBody c m s).Good pq := by
  unfold calliBody
  try dsimp only
  iterate 60 all_goals with_reducible first
    | assumption | intro _ | apply callPush_good | apply prepare_good | apply State.setStack_good
    | apply Try.bind_good | apply Try.ok_good | apply Try.exc_good | exact Try.wait_good | apply Try.ite_good | split
    | (apply Try.good_of_ok; assumption) | (apply Try.good_of_exc; assumption) | apply Good.of_mk | apply Good.parts

theorem popCell_good {pq : List Instr} (c : Nat) (i : StackId) (user : Bool) (a : Nat) {s : State} (hg : Good pq s) :
    (popCell c i user a s).Good pq := by
  unfold popCell
  try dsimp only
  iterate 60 all_goals with_reducible first
    | assumption | intro _ | apply spillOne_good | apply State.setStack_good | apply fillCell_good
    | apply Try.bind_good | apply Try.ok_good | apply Try.exc_good | exact Try.wait_good | apply Try.ite_good | split

theorem restoreFrames_good {pq : List Instr} (c : Nat) (i : StackId) (user : Bool) (x0 : List Nat) (x1 : Nat) {s : State} (hg : Good pq s) :
    (restoreFrames c i user x0 x1 s).Good pq := by
  induction x0 generalizing s x1 with
  | nil => exact Try.ok_good hg
  | cons r rs ih =>
    unfold restoreFrames
    exact Try.bind_good (popCell_good _ _ _ _ hg) (fun _ _ h =>
      Try.bind_good (ih _ h) (fun _ _ h => Try.ok_good h))

theorem retPops_good {pq : List Instr} (c : Nat) {s : State} (hg : Good pq s) :
    (retPops c s).Good pq := by
  unfold retPops
  try dsimp only
  iterate 60 all_goals with_reducible first
    | assumption | intro _ | apply restoreFrames_good | apply popCell_good | apply State.setStack_good
    | apply State.setCore_good | apply good_foldl | apply Try.bind_good | apply Try.ok_good | apply Try.exc_good
    | exact Try.wait_good | apply Try.ite_good | split

theorem retBody_good {pq : List Instr} (c : Nat) {s : State} (hg : Good pq s) :
    (retBody c s).Good pq := by
  unfold retBody
  try dsimp only
  iterate 60 all_goals with_reducible first
    | assumption | intro _ | apply retPops_good | apply State.setStack_good | apply Try.bind_good | apply Try.ok_good
    | apply Try.exc_good | exact Try.wait_good | apply Try.ite_good | split
    | (apply Try.good_of_exc; assumption)

theorem execBr_good {pq : List Instr} (c : Fin 16) (o : BitVec 16) {s : State} (hg : Good pq s) :
    ∀ nx, (execBr c o s) = .next nx → Good pq nx := by
  unfold execBr
  rintro _ ⟨⟩
  try dsimp only
  iterate 60 all_goals with_reducible first
    | assumption | apply instr0_good

theorem execBz_good {pq : List Instr} (c : Fin 16) (o : BitVec 16) {s : State} (hg : Good pq s) :
    ∀ nx, (execBz c o s) = .next nx → Good pq nx := by
  unfold execBz
  rintro _ ⟨⟩
  try dsimp only
  iterate 60 all_goals with_reducible first
    | assumption | apply instr1_good

theorem execBnz_good {pq : List Instr} (c : Fin 16) (o : BitVec 16) {s : State} (hg : Good pq s) :
    ∀ nx, (execBnz c o s) = .next nx → Good pq nx := by
  unfold execBnz
  rintro _ ⟨⟩
  try dsimp only
  iterate 60 all_goals with_reducible first
    | assumption | apply instr1_good

theorem execBv_good {pq : List Instr} (c : Fin 16) (o : BitVec 16) {s : State} (hg : Good pq s) :
    ∀ nx, (execBv c o s) = .next nx → Good pq nx := by
  unfold execBv
  rintro _ ⟨⟩
  try dsimp only
  iterate 60 all_goals with_reducible first
    | assumption | apply flagBranch_good

theorem execBnv_good {pq : List Instr} (c : Fin 16) (o : BitVec 16) {s : State} (hg : Good pq s) :
    ∀ nx, (execBnv c o s) = .next nx → Good pq nx := by
  unfold execBnv
  rintro _ ⟨⟩
  try dsimp only
  iterate 60 all_goals with_reducible first
    | assumption | apply flagBranch_good

theorem execBc_good {pq : List Instr} (c : Fin 16) (o : BitVec 16) {s : State} (hg : Good pq s) :
    ∀ nx, (execBc c o s) = .next nx → Good pq nx := by
  unfold execBc
  rintro _ ⟨⟩
  try dsimp only
  iterate 60 all_goals with_reducible first
    | assumption | apply flagBranch_good

theorem execBnc_good {pq : List Instr} (c : Fin 16) (o : BitVec 16) {s : State} (hg : Good pq s) :
    ∀ nx, (execBnc c o s) = .next nx → Good pq nx := by
  unfold execBnc
  rintro _ ⟨⟩
  try dsimp only
  iterate 60 all_goals with_reducible first
    | assumption | apply flagBranch_good

theorem execBsv_good {pq : List Instr} (c : Fin 16) (o : BitVec 16) {s : State} (hg : Good pq s) :
    ∀ nx, (execBsv c o s) = .next nx → Good pq nx := by
  unfold execBsv
  rintro _ ⟨⟩
  try dsimp only
  iterate 60 all_goals with_reducible first
    | assumption | apply flagBranch_good

theorem execBnsv_good {pq : List Instr} (c : Fin 16) (o : BitVec 16) {s : State} (hg : Good pq s) :
    ∀ nx, (execBnsv c o s) = .next nx → Good pq nx := by
  unfold execBnsv
  rintro _ ⟨⟩
  try dsimp only
  iterate 60 all_goals with_reducible first
    | assumption | apply flagBranch_good

theorem execJmp_good {pq : List Instr} (c : Fin 16) (t : Word) {s : State} (hg : Good pq s) :
    ∀ nx, (execJmp c t s) = .next nx → Good pq nx := by
  unfold execJmp
  rintro _ ⟨⟩
  try dsimp only
  iterate 60 all_goals with_reducible first
    | assumption | apply instr0_good

theorem execJmpi_good {pq : List Instr} (c : Fin 16) {s : State} (hg : Good pq s) :
    ∀ nx, (execJmpi c s) = .next nx → Good pq nx := by
  unfold execJmpi
  rintro _ ⟨⟩
  try dsimp only
  iterate 60 all_goals with_reducible first
    | assumption | apply instr1_good

theorem execCall_good {pq : List Instr} (c : Fin 16) (mask : BitVec 16) (t : Word) {s : State} (hg : Good pq s) :
    ∀ nx, (execCall c mask t s) = .next nx → Good pq nx := by
  unfold execCall
  rintro _ ⟨⟩
  try dsimp only
  iterate 60 all_goals with_reducible first
    | assumption | intro _ | apply callBody_good | apply plainInstr_good

theorem execCalli_good {pq : List Instr} (c : Fin 16) (mask : BitVec 16) {s : State} (hg : Good pq s) :
    ∀ nx, (execCalli c mask s) = .next nx → Good pq nx := by
  unfold execCalli
  rintro _ ⟨⟩
  try dsimp only
  iterate 60 all_goals with_reducible first
    | assumption | intro _ | apply calliBody_good | apply plainInstr_good

theorem execRet_good {pq : List Instr} (c : Fin 16) {s : State} (hg : Good pq s) :
    ∀ nx, (execRet c s) = .next nx → Good pq nx := by
  unfold execRet
  rintro _ ⟨⟩
  try dsimp only
  iterate 60 all_goals with_reducible first
    | assumption | intro _ | apply retBody_good | apply plainInstr_good

theorem execLoop_good {pq : List Instr} (c : Fin 16) (u : BitVec 16) {s : State} (hg : Good pq s) :
    ∀ nx, (execLoop c u s) = .next nx → Good pq nx := by
  unfold execLoop
  rintro _ ⟨⟩
  try dsimp only
  iterate 60 all_goals with_reducible first
    | assumption | apply instr1_good

theorem execTrap_good {pq : List Instr} (c : Fin 16) (k : Byte) {s : State} (hg : Good pq s) :
    ∀ nx, (execTrap c k s) = .next nx → Good pq nx := by
  unfold execTrap
  rintro _ ⟨⟩
  try dsimp only
  iterate 60 all_goals with_reducible first
    | assumption | intro _ | apply plainInstr_good | apply good_ite | split | apply Try.ok_good | apply Try.exc_good

theorem execReti_good {pq : List Instr} (c : Fin 16) {s : State} (hg : Good pq s) :
    ∀ nx, (execReti c s) = .next nx → Good pq nx := by
  unfold execReti
  rintro _ ⟨⟩
  try dsimp only
  iterate 60 all_goals with_reducible first
    | assumption | intro _ | apply retiBody_good | apply plainInstr_good

theorem execUndefinedOpcode_good {pq : List Instr} (c : Fin 16) (op : Byte) {s : State} (hg : Good pq s) :
    ∀ nx, (execUndefinedOpcode c op s) = .next nx → Good pq nx := by
  unfold execUndefinedOpcode
  rintro _ ⟨⟩
  try dsimp only
  iterate 60 all_goals with_reducible first
    | assumption | intro _ | apply plainInstr_good | apply good_ite | split | apply Try.ok_good | apply Try.exc_good

theorem execInterruptClaim_good {pq : List Instr} (c : Fin 16) {s : State} (hg : Good pq s) :
    ∀ nx, (execInterruptClaim c s) = .next nx → Good pq nx := by
  unfold execInterruptClaim
  rintro _ ⟨⟩
  try dsimp only
  iterate 60 all_goals with_reducible first
    | assumption | apply interruptClaim_good

theorem execInterruptEntry_good {pq : List Instr} (c : Fin 16) {s : State} (hg : Good pq s) :
    ∀ nx, (execInterruptEntry c s) = .next nx → Good pq nx := by
  unfold execInterruptEntry
  rintro _ ⟨⟩
  try dsimp only
  iterate 60 all_goals with_reducible first
    | assumption | apply interruptEntry_good

theorem execWaitExit_good {pq : List Instr} (c : Fin 16) {s : State} (hg : Good pq s) :
    ∀ nx, (execWaitExit c s) = .next nx → Good pq nx := by
  unfold execWaitExit
  rintro _ ⟨⟩
  try dsimp only
  iterate 60 all_goals with_reducible first
    | assumption | apply waitExit_good

end Sys2Proof.Machine
end

