-- ==== Sys2Proof/Laws/GoodCoreSystem.lean ====
section
/-! SUPPORT. The operations of CoreSystem.lean keep the memories, the reserved bits of the registers, and the queue. -/

namespace Sys2Proof.Machine

theorem mfcBody_good {pq : List Instr} (c : Nat) (n : Nat) {s : State} (hg : Good pq s) :
    (mfcBody c n s).Good pq := by
  unfold mfcBody
  try dsimp only
  iterate 60 all_goals with_reducible first
    | assumption | intro _ | apply prepare_good | apply State.setStack_good | apply State.setCore_good
    | apply Try.bind_good | apply Try.ok_good | apply Try.exc_good | exact Try.wait_good | apply Try.ite_good

theorem mtcBody_good {pq : List Instr} (c : Nat) (n : Nat) {s : State} (hg : Good pq s) :
    (mtcBody c n s).Good pq := by
  unfold mtcBody
  try dsimp only
  iterate 60 all_goals with_reducible first
    | assumption | intro _ | apply keepingFetch_good | apply prepare_good | apply State.setStack_good
    | apply State.setCore_good | apply Try.bind_good | apply Try.ok_good | apply Try.exc_good | exact Try.wait_good
    | apply Try.ite_good

theorem supervisor_good {pq : List Instr} (c : Nat) (body : State → Try Flow) {s : State} (h_body : ∀ y0, Good pq y0 → (body y0).Good pq) (hg : Good pq s) :
    (supervisor c body s).Good pq := by
  unfold supervisor
  try dsimp only
  iterate 60 all_goals with_reducible first
    | assumption | intro _ | apply h_body | apply Try.bind_good | apply Try.ok_good | apply Try.exc_good
    | exact Try.wait_good | apply Try.ite_good

theorem tlbinvBody_good {pq : List Instr} (c : Nat) {s : State} (hg : Good pq s) :
    (tlbinvBody c s).Good pq := by
  unfold tlbinvBody
  try dsimp only
  iterate 60 all_goals with_reducible first
    | assumption | intro _ | apply prepare_good | apply State.setStack_good | apply State.setCore_good
    | apply Try.bind_good | apply Try.ok_good

theorem icinvBody_good {pq : List Instr} (c : Nat) {s : State} (hg : Good pq s) :
    (icinvBody c s).Good pq := by
  unfold icinvBody
  try dsimp only
  iterate 60 all_goals with_reducible first
    | assumption | intro _ | apply prepare_good | apply State.setStack_good | apply translate_good
    | apply State.setCore_good | apply Try.bind_good | apply Try.ok_good

theorem removing_good {pq : List Instr} (c : Nat) (body : State → Try Unit) {s : State} (h_body : ∀ y0, Good pq y0 → (body y0).Good pq) (hg : Good pq s) :
    (removing c body s).Good pq := by
  unfold removing
  try dsimp only
  iterate 60 all_goals with_reducible first
    | assumption | intro _ | apply h_body | apply supervisor_good | apply keepingFetch_good | apply Try.bind_good
    | apply Try.ok_good

theorem sflushBody_good {pq : List Instr} (c : Nat) (b : Nat) {s : State} (hg : Good pq s) :
    (sflushBody c b s).Good pq := by
  unfold sflushBody
  try dsimp only
  iterate 60 all_goals with_reducible first
    | assumption | intro _ | apply State.setStack_good | apply spillCell_good | apply Try.bind_good
    | apply tryEach_good | apply Try.ok_good | apply Try.exc_good | exact Try.wait_good | apply Try.ite_good

theorem fenceBody_good {pq : List Instr} (c : Nat) {s : State} (hg : Good pq s) :
    (fenceBody c s).Good pq := by
  unfold fenceBody
  try dsimp only
  iterate 60 all_goals with_reducible first
    | assumption | intro _ | apply Try.bind_good | apply Try.ok_good | apply Try.exc_good | exact Try.wait_good
    | apply Try.ite_good

theorem lineFill_good {pq : List Instr} (c : Nat) (va : Nat) (report : LineReport) {s : State} (hg : Good pq s) :
    Good pq (lineFill c va report s) := by
  unfold lineFill
  dsimp only
  have ht := translate_good c { va := va, size := 1, write := false, fetch := true, user := (s.core c).user, word := false } hg
  split
  · rename_i e
    rw [e] at ht
    have ht : Good pq _ := ht
    have hu : ∀ (k : Core) u, Good pq u → Good pq (if report = .parity then u.setCore c k else u) :=
      fun _ u h => good_ite (State.setCore_good _ _ h) h
    exact good_ite (good_ite hg (good_ite (good_ite (hu _ _ ht) hg) (fillMiss_good _ _ _ (hu _ _ ht)))) hg
  · exact hg

theorem icacheFill_good {pq : List Instr} (c : Nat) (va : Nat) (ecc : LineReport) {s : State} (hg : Good pq s) :
    Good pq (icacheFill c va ecc s) := by
  unfold icacheFill
  try dsimp only
  iterate 60 all_goals with_reducible first
    | assumption | intro _ | apply lineFill_good | apply paired_good

theorem execSync_good {pq : List Instr} (c : Fin 16) {s : State} (hg : Good pq s) :
    ∀ nx, (execSync c s) = .next nx → Good pq nx := by
  unfold execSync
  rintro _ ⟨⟩
  try dsimp only
  iterate 60 all_goals with_reducible first
    | assumption | intro _ | apply plainInstr_good | apply State.setCore_good | apply Try.ok_good

theorem execWait_good {pq : List Instr} (c : Fin 16) {s : State} (hg : Good pq s) :
    ∀ nx, (execWait c s) = .next nx → Good pq nx := by
  unfold execWait
  rintro _ ⟨⟩
  try dsimp only
  iterate 60 all_goals with_reducible first
    | assumption | intro _ | apply supervisor_good | apply plainInstr_good | apply State.setCore_good
    | apply Try.ok_good

theorem execMfc_good {pq : List Instr} (c : Fin 16) (n : Byte) {s : State} (hg : Good pq s) :
    ∀ nx, (execMfc c n s) = .next nx → Good pq nx := by
  unfold execMfc
  rintro _ ⟨⟩
  try dsimp only
  iterate 60 all_goals with_reducible first
    | assumption | intro _ | apply mfcBody_good | apply plainInstr_good

theorem execMtc_good {pq : List Instr} (c : Fin 16) (n : Byte) {s : State} (hg : Good pq s) :
    ∀ nx, (execMtc c n s) = .next nx → Good pq nx := by
  unfold execMtc
  rintro _ ⟨⟩
  try dsimp only
  iterate 60 all_goals with_reducible first
    | assumption | intro _ | apply mtcBody_good | apply plainInstr_good

theorem execShadowPrgRead_good {pq : List Instr} (c : Fin 16) {s : State} (hg : Good pq s) :
    ∀ nx, (execShadowPrgRead c s) = .next nx → Good pq nx := by
  unfold execShadowPrgRead
  rintro _ ⟨⟩
  try dsimp only
  iterate 60 all_goals with_reducible first
    | assumption | intro _ | apply mfcBody_good | apply plainInstr_good

theorem execEmergClear_good {pq : List Instr} (c : Fin 16) {s : State} (hg : Good pq s) :
    ∀ nx, (execEmergClear c s) = .next nx → Good pq nx := by
  unfold execEmergClear
  rintro _ ⟨⟩
  try dsimp only
  iterate 60 all_goals with_reducible first
    | assumption | intro _ | apply mtcBody_good | apply plainInstr_good

theorem execUnlockAll_good {pq : List Instr} (c : Fin 16) {s : State} (hg : Good pq s) :
    ∀ nx, (execUnlockAll c s) = .next nx → Good pq nx := by
  unfold execUnlockAll
  rintro _ ⟨⟩
  try dsimp only
  iterate 60 all_goals with_reducible first
    | assumption | intro _ | apply mtcBody_good | apply plainInstr_good

theorem execIcinv_good {pq : List Instr} (c : Fin 16) {s : State} (hg : Good pq s) :
    ∀ nx, (execIcinv c s) = .next nx → Good pq nx := by
  unfold execIcinv
  rintro _ ⟨⟩
  try dsimp only
  iterate 60 all_goals with_reducible first
    | assumption | intro _ | apply removing_good | apply icinvBody_good | apply plainInstr_good

theorem execIcinva_good {pq : List Instr} (c : Fin 16) {s : State} (hg : Good pq s) :
    ∀ nx, (execIcinva c s) = .next nx → Good pq nx := by
  unfold execIcinva
  rintro _ ⟨⟩
  try dsimp only
  iterate 60 all_goals with_reducible first
    | assumption | intro _ | apply removing_good | apply plainInstr_good | apply State.setCore_good
    | apply Try.ok_good

theorem execSflush_good {pq : List Instr} (c : Fin 16) (b : Byte) {s : State} (hg : Good pq s) :
    ∀ nx, (execSflush c b s) = .next nx → Good pq nx := by
  unfold execSflush
  rintro _ ⟨⟩
  try dsimp only
  iterate 60 all_goals with_reducible first
    | assumption | intro _ | apply sflushBody_good | apply plainInstr_good

theorem execTlbinv_good {pq : List Instr} (c : Fin 16) {s : State} (hg : Good pq s) :
    ∀ nx, (execTlbinv c s) = .next nx → Good pq nx := by
  unfold execTlbinv
  rintro _ ⟨⟩
  try dsimp only
  iterate 60 all_goals with_reducible first
    | assumption | intro _ | apply removing_good | apply tlbinvBody_good | apply plainInstr_good

theorem execTlbinva_good {pq : List Instr} (c : Fin 16) {s : State} (hg : Good pq s) :
    ∀ nx, (execTlbinva c s) = .next nx → Good pq nx := by
  unfold execTlbinva
  rintro _ ⟨⟩
  try dsimp only
  iterate 60 all_goals with_reducible first
    | assumption | intro _ | apply removing_good | apply plainInstr_good | apply State.setCore_good
    | apply Try.ok_good

theorem execFence_good {pq : List Instr} (c : Fin 16) {s : State} (hg : Good pq s) :
    ∀ nx, (execFence c s) = .next nx → Good pq nx := by
  unfold execFence
  rintro _ ⟨⟩
  try dsimp only
  iterate 60 all_goals with_reducible first
    | assumption | intro _ | apply fenceBody_good | apply plainInstr_good

theorem execIcacheFill_good {pq : List Instr} (c : Fin 16) (addr : Word) (ecc : LineReport) {s : State} (hg : Good pq s) :
    ∀ nx, (execIcacheFill c addr ecc s) = .next nx → Good pq nx := by
  unfold execIcacheFill
  rintro _ ⟨⟩
  try dsimp only
  iterate 60 all_goals with_reducible first
    | assumption | apply icacheFill_good | apply Try.ok_good | apply Try.exc_good

end Sys2Proof.Machine
end

