-- ==== Sys2Proof/Laws/GoodCoreBlock.lean ====
section
/-! SUPPORT. The operations of CoreBlock.lean keep the memories, the reserved bits of the registers, and the queue. -/

namespace Sys2Proof.Machine

/-- The state in which some units end is good. -/
def Units.Good (pq : List Instr) : Units → Prop
  | .ran _ s => Machine.Good pq s
  | .faulted _ _ s => Machine.Good pq s
  | .waits _ s => Machine.Good pq s

theorem runUnits_good {pq : List Instr} (unit : Nat → State → Try Nat) (n budget done : Nat) {s : State}
    (h_unit : ∀ y0 y1, Good pq y1 → (unit y0 y1).Good pq) (hg : Good pq s) :
    (runUnits unit n budget done s).Good pq := by
  induction budget generalizing done s with
  | zero => exact hg
  | succ b ih =>
    unfold runUnits
    split
    · exact hg
    · have hu := h_unit done s hg
      revert hu
      cases unit done s <;> intro hu
      · exact ih _ hu
      · exact hu
      · exact hg

theorem unitRegion_good {pq : List Instr} (c : Nat) (a : Access') (p : Nat) {s : State} (hg : Good pq s) :
    (unitRegion c a p s).Good pq := by
  unfold unitRegion
  try dsimp only
  iterate 60 all_goals with_reducible first
    | assumption | intro _ | apply regionCheck_good | apply Try.bind_good | apply Try.ok_good | apply Try.exc_good
    | exact Try.wait_good | apply Try.ite_good | split

theorem unitBytes_good {pq : List Instr} (c : Nat) (a : Access') (p : Nat) (n : Nat) {s : State} (hg : Good pq s) :
    (unitBytes c a p n s).Good pq := by
  unfold unitBytes
  try dsimp only
  iterate 60 all_goals with_reducible first
    | assumption | intro _ | apply unitRegion_good | apply readBytes_good | apply Try.bind_good | apply Try.ok_good
    | apply Try.exc_good | exact Try.wait_good

theorem unitRead_good {pq : List Instr} (c : Nat) (va : Nat) (n : Nat) {s : State} (hg : Good pq s) :
    (unitRead c va n s).Good pq := by
  unfold unitRead
  try dsimp only
  iterate 60 all_goals with_reducible first
    | assumption | intro _ | apply unitBytes_good | apply mapAddr_good | apply Try.bind_good | apply Try.ok_good
    | apply Try.exc_good | exact Try.wait_good

theorem unitPair_good {pq : List Instr} (c : Nat) (a : Access') (b : Access') {s : State} (hg : Good pq s) :
    (unitPair c a b s).Good pq := by
  unfold unitPair
  try dsimp only
  iterate 60 all_goals with_reducible first
    | assumption | intro _ | apply mapAddr_good | apply Try.bind_good | apply Try.ok_good | apply Try.exc_good
    | exact Try.wait_good | apply Try.ite_good | split | (apply Try.good_of_ok; assumption)
    | (apply Try.good_of_exc; assumption) | apply Good.of_mk | apply Good.parts

theorem setAcc_good {pq : List Instr} (c : Nat) (v : Cell) {s : State} (hg : Good pq s) :
    Good pq (setAcc c v s) := by
  unfold setAcc
  try dsimp only
  iterate 60 all_goals with_reducible first
    | assumption | apply State.setStack_good | apply State.setCore_good

theorem blockDone_good {pq : List Instr} (c : Nat) (r : List Cell) {s : State} (hg : Good pq s) :
    Good pq (blockDone c r s) := by
  unfold blockDone
  try dsimp only
  iterate 60 all_goals with_reducible first
    | assumption | apply State.setStack_good | apply State.setCore_good

theorem blockStop_good {pq : List Instr} (c : Nat) (kind : Nat) (done : Nat) {s : State} (hg : Good pq s) :
    Good pq (blockStop c kind done s) := by
  unfold blockStop
  try dsimp only
  iterate 60 all_goals with_reducible first
    | assumption | apply State.setCore_good

theorem blockBody_good {pq : List Instr} (c : Nat) (kind : Nat) (outs : Nat) (budget : Nat) (check : State → Option Exc) (unit : Nat → State → Try Nat) (finish : State → State) (p : Cell) {s : State} (h_unit : ∀ y0 y1, Good pq y1 → (unit y0 y1).Good pq) (h_finish : ∀ y0, Good pq y0 → Good pq (finish y0)) (hg : Good pq s) :
    (blockBody c kind outs budget check unit finish p s).Good pq := by
  unfold blockBody
  refine Try.bind_good (prepare_good _ _ _ _ _ hg) (fun _ s hs => ?_)
  dsimp only
  refine Try.ite_good (Try.exc_good hs) ?_
  split
  · exact Try.exc_good hs
  · have hu := runUnits_good unit (blockCount (s.blockArgs c).2.2) budget (prgData p) h_unit hs
    revert hu
    cases runUnits unit (blockCount (s.blockArgs c).2.2) budget (prgData p) s <;> intro hu
    · exact Try.ite_good (Try.ok_good (h_finish _ hu)) (Try.ok_good (blockStop_good _ _ _ hu))
    · exact Try.exc_good hu
    · exact Try.ok_good (blockStop_good _ _ _ hu)

theorem bmovUnit_good {pq : List Instr} (c : Nat) (i : Nat) {s : State} (hg : Good pq s) :
    (bmovUnit c i s).Good pq := by
  unfold bmovUnit
  try dsimp only
  iterate 60 all_goals with_reducible first
    | assumption | intro _ | apply unitPair_good | apply unitBytes_good | apply unitRegion_good
    | apply writeStore_good | apply setDirty_good | apply Try.bind_good | apply Try.ok_good | apply Try.exc_good
    | exact Try.wait_good

theorem bcrcUnit_good {pq : List Instr} (c : Nat) (m : Byte) (p : Byte) (i : Nat) {s : State} (hg : Good pq s) :
    (bcrcUnit c m p i s).Good pq := by
  unfold bcrcUnit
  try dsimp only
  iterate 60 all_goals with_reducible first
    | assumption | intro _ | apply setAcc_good | apply unitRead_good | apply Try.bind_good | apply Try.ok_good

theorem bmacUnit_good {pq : List Instr} (c : Nat) (i : Nat) {s : State} (hg : Good pq s) :
    (bmacUnit c i s).Good pq := by
  unfold bmacUnit
  try dsimp only
  iterate 60 all_goals with_reducible first
    | assumption | intro _ | apply unitPair_good | apply unitBytes_good | apply State.setStack_good
    | apply State.setCore_good | apply Try.bind_good | apply Try.ok_good | apply Try.exc_good | exact Try.wait_good
    | apply Try.ite_good | split | (apply Try.good_of_ok; assumption) | (apply Try.good_of_exc; assumption)
    | apply Good.of_mk | apply Good.parts

theorem bmacBody_good {pq : List Instr} (c : Nat) (budget : Nat) (p : Cell) {s : State} (hg : Good pq s) :
    (bmacBody c budget p s).Good pq := by
  unfold bmacBody
  try dsimp only
  iterate 60 all_goals with_reducible first
    | assumption | intro _ | apply bmacUnit_good | apply blockBody_good | apply prepare_good
    | apply State.setStack_good | apply State.setCore_good | apply Try.bind_good | apply Try.ok_good
    | apply Try.exc_good | exact Try.wait_good

theorem execBmov_good {pq : List Instr} (c : Fin 16) (units : Nat) {s : State} (hg : Good pq s) :
    ∀ nx, (execBmov c units s) = .next nx → Good pq nx := by
  unfold execBmov
  rintro _ ⟨⟩
  try dsimp only
  iterate 60 all_goals with_reducible first
    | assumption | intro _ | apply bmovUnit_good | apply blockBody_good | apply blockDone_good
    | apply coreInstrReads_good | apply Try.ok_good | apply Try.exc_good

theorem execBcrc_good {pq : List Instr} (c : Fin 16) (m : Byte) (p : Byte) (units : Nat) {s : State} (hg : Good pq s) :
    ∀ nx, (execBcrc c m p units s) = .next nx → Good pq nx := by
  unfold execBcrc
  rintro _ ⟨⟩
  try dsimp only
  iterate 60 all_goals with_reducible first
    | assumption | intro _ | apply bcrcUnit_good | apply blockBody_good | apply blockDone_good
    | apply coreInstrReads_good | apply good_ite | split | apply Try.ok_good | apply Try.exc_good

theorem execBmac_good {pq : List Instr} (c : Fin 16) (units : Nat) {s : State} (hg : Good pq s) :
    ∀ nx, (execBmac c units s) = .next nx → Good pq nx := by
  unfold execBmac
  rintro _ ⟨⟩
  try dsimp only
  iterate 60 all_goals with_reducible first
    | assumption | intro _ | apply bmacBody_good | apply coreInstrReads_good | apply Try.ok_good | apply Try.exc_good

end Sys2Proof.Machine
end

