-- ==== Sys2Proof/Laws/GoodCoreLoad.lean ====
section
/-! SUPPORT. The operations of CoreLoad.lean keep the memories, the reserved bits of the registers, and the queue. -/

namespace Sys2Proof.Machine

theorem wordRead_good {pq : List Instr} (who : Requester) (a : Nat) (ecc : WordEcc) {s : State} (hg : Good pq s) :
    Good pq (wordRead who a ecc s).2 := by
  unfold wordRead
  try dsimp only
  iterate 60 all_goals with_reducible first
    | assumption | apply readReg_good | apply State.eccRead_good | apply tableLoRead_good | apply lawStoreRead_good
    | apply good_ite | split

theorem wordWrite_good {pq : List Instr} (who : Requester) (a : Nat) (w : Word) (ecc : WordEcc) {s : State} (hg : Good pq s) :
    Good pq (wordWrite who a w ecc s) := by
  unfold wordWrite
  try dsimp only
  iterate 60 all_goals with_reducible first
    | assumption | apply store_good | apply load_good | apply writeReg_good | apply State.landWindow_good
    | apply tableHiWrite_good | apply tableLoWrite_good | apply good_ite

theorem second_good {pq : List Instr} {α : Type} (prg : Cell) (t : Try α) (hg_t : t.Good pq) :
    (second prg t).Good pq := by
  unfold second
  cases t <;> exact hg_t

theorem dataAccess_good {pq : List Instr} (c : Nat) (va : Nat) (size : Nat) (write : Bool) {s : State} (hg : Good pq s) :
    (dataAccess c va size write s).Good pq := by
  unfold dataAccess
  try dsimp only
  iterate 60 all_goals with_reducible first
    | assumption | intro _ | apply second_good | apply translate_good | apply regionCheck_good | apply mapAddr_good
    | apply Try.bind_good | apply Try.ok_good | apply Try.exc_good | exact Try.wait_good | apply Try.ite_good

theorem loadBytes_good {pq : List Instr} (c : Nat) (kind : LoadKind) (va : Nat) (p : Nat × Nat) (ecc : WordEcc) (chk : Bool) {s : State} (hg : Good pq s) :
    (loadBytes c kind va p ecc chk s).Good pq := by
  unfold loadBytes
  try dsimp only
  iterate 60 all_goals with_reducible first
    | assumption | intro _ | apply second_good | apply wordRead_good | apply readBytes_good
    | apply State.landStores_good | apply Try.bind_good | apply Try.ok_good | apply Try.exc_good | exact Try.wait_good
    | apply Try.ite_good | split | apply Good.of_mk | apply Good.parts

theorem beginShadow_good {pq : List Instr} (c : Nat) (kind : LoadKind) (bs : List Byte) {s : State} (hg : Good pq s) :
    Good pq (beginShadow c kind bs s) := by
  unfold beginShadow
  try dsimp only
  iterate 60 all_goals with_reducible first
    | assumption | apply State.setCore_good

theorem loadBody_good {pq : List Instr} (c : Nat) (kind : LoadKind) (ecc : WordEcc) {s : State} (hg : Good pq s) :
    (loadBody c kind ecc s).Good pq := by
  unfold loadBody
  try dsimp only
  iterate 60 all_goals with_reducible first
    | assumption | intro _ | apply beginShadow_good | apply loadBytes_good | apply dataAccess_good
    | apply prepare_good | apply State.setCore_good | apply Try.bind_good | apply Try.ok_good | apply Try.exc_good
    | exact Try.wait_good | apply Try.ite_good | split | apply Good.of_mk | apply Good.parts

theorem load_good {pq : List Instr} (c : Nat) (kind : LoadKind) (ecc : WordEcc) (cmp : CmpReport) {s : State} (hg : Good pq s) :
    Good pq (load c kind ecc cmp s) := by
  unfold load
  try dsimp only
  iterate 60 all_goals with_reducible first
    | assumption | intro _ | apply loadBody_good | apply coreRun_good | apply paired_good

theorem dataReturn_good {pq : List Instr} (c : Nat) (ecc : WordEcc) (sample : Option Word) (chk : Bool) {s : State} (hg : Good pq s) :
    Good pq (dataReturn c ecc sample chk s) := by
  unfold dataReturn
  dsimp only
  split
  · exact hg
  · split
    · exact hg
    · rename_i w _ _
      have hs : Good pq (s.setCore c { s.core c with shadow := none }) := State.setCore_good _ _ hg
      generalize s.setCore c { s.core c with shadow := none } = s1 at hs
      have hl := loadBytes_good c w.kind w.va (w.bytes.headD 0, (w.bytes.drop 1).headD 0) ecc chk hs
      split
      · exact hg
      · rename_i e
        exact good_getD (takeException_good _ _ (landCell_good _ _ (Try.good_of_exc e hl))) hg
      · rename_i e
        exact landCell_good _ _ (State.setCore_good _ _ (beginShadow_good _ _ _ (Try.good_of_ok e hl)))

theorem loadDataReturn_good {pq : List Instr} (c : Nat) (ecc : WordEcc) (sample : Option Word) {s : State} (hg : Good pq s) :
    Good pq (loadDataReturn c ecc sample s) := by
  unfold loadDataReturn
  try dsimp only
  iterate 60 all_goals with_reducible first
    | assumption | intro _ | apply dataReturn_good | apply paired_good | apply good_ite | split

theorem storeHalf_good {pq : List Instr} (c : Nat) (a : Access') (p : Nat) (bs : List Byte) {s : State} (hg : Good pq s) :
    (storeHalf c a p bs s).Good pq := by
  unfold storeHalf
  try dsimp only
  iterate 60 all_goals with_reducible first
    | assumption | intro _ | apply writeStore_good | apply setDirty_good

theorem storeSecond_good {pq : List Instr} (c : Nat) (a : Access') (p : Nat) (bs : List Byte) {s : State} (hg : Good pq s) :
    (storeSecond c a p bs s).Good pq := by
  unfold storeSecond
  try dsimp only
  iterate 60 all_goals with_reducible first
    | assumption | intro _ | apply storeHalf_good | apply second_good | apply regionCheck_good | apply Try.bind_good

theorem storeDone_good {pq : List Instr} (c : Nat) (t : StoreKind) (v : Cell) {s : State} (hg : Good pq s) :
    Good pq (storeDone c t v s) := by
  unfold storeDone
  try dsimp only
  iterate 60 all_goals with_reducible first
    | assumption | apply State.setStack_good | apply State.setCore_good

theorem storeBody_good {pq : List Instr} (c : Nat) (t : StoreKind) (pause : Bool) (p : Cell) {s : State} (hg : Good pq s) :
    (storeBody c t pause p s).Good pq := by
  unfold storeBody
  try dsimp only
  iterate 60 all_goals with_reducible first
    | assumption | intro _ | apply storeDone_good | apply storeSecond_good | apply storeHalf_good
    | apply dataAccess_good | apply second_good | apply prepare_good | apply mapAddr_good | apply State.setCore_good
    | apply Try.bind_good | apply Try.ok_good | apply Try.exc_good | exact Try.wait_good | apply Try.ite_good

theorem performDevice_good {pq : List Instr} (c : Nat) {s : State} (hg : Good pq s) :
    Good pq (performDevice c s) := by
  unfold performDevice
  try dsimp only
  iterate 60 all_goals with_reducible first
    | assumption | apply wordWrite_good | apply State.setCore_good | apply good_ite | split

theorem store_good {pq : List Instr} (c : Nat) (t : StoreKind) (pause : Bool) (cmp : CmpReport) {s : State} (hg : Good pq s) :
    Good pq (store c t pause cmp s) := by
  unfold store
  try dsimp only
  iterate 60 all_goals with_reducible first
    | assumption | intro _ | apply performDevice_good | apply storeBody_good | apply coreRun_good | apply paired_good
    | apply good_ite

theorem storeLand_good {pq : List Instr} (c : Nat) (ecc : WordEcc) {s : State} (hg : Good pq s) :
    Good pq (storeLand c ecc s) := by
  unfold storeLand
  try dsimp only
  iterate 60 all_goals with_reducible first
    | assumption | apply State.landBytes_good | apply State.setCore_good | apply good_ite | split

theorem execLd_good {pq : List Instr} (c : Fin 16) (ecc : WordEcc) (cmp : Option CmpReport) {s : State} (hg : Good pq s) :
    ∀ nx, (execLd c ecc cmp s) = .next nx → Good pq nx := by
  unfold execLd
  rintro _ ⟨⟩
  try dsimp only
  iterate 60 all_goals with_reducible first
    | assumption | intro _ | apply load_good

theorem execLdh_good {pq : List Instr} (c : Fin 16) (ecc : WordEcc) {s : State} (hg : Good pq s) :
    ∀ nx, (execLdh c ecc s) = .next nx → Good pq nx := by
  unfold execLdh
  rintro _ ⟨⟩
  try dsimp only
  iterate 60 all_goals with_reducible first
    | assumption | apply load_good

theorem execLdqh_good {pq : List Instr} (c : Fin 16) (ecc : WordEcc) {s : State} (hg : Good pq s) :
    ∀ nx, (execLdqh c ecc s) = .next nx → Good pq nx := by
  unfold execLdqh
  rintro _ ⟨⟩
  try dsimp only
  iterate 60 all_goals with_reducible first
    | assumption | apply load_good

theorem execLdb_good {pq : List Instr} (c : Fin 16) (ecc : WordEcc) {s : State} (hg : Good pq s) :
    ∀ nx, (execLdb c ecc s) = .next nx → Good pq nx := by
  unfold execLdb
  rintro _ ⟨⟩
  try dsimp only
  iterate 60 all_goals with_reducible first
    | assumption | apply load_good

theorem execLdbs_good {pq : List Instr} (c : Fin 16) (ecc : WordEcc) {s : State} (hg : Good pq s) :
    ∀ nx, (execLdbs c ecc s) = .next nx → Good pq nx := by
  unfold execLdbs
  rintro _ ⟨⟩
  try dsimp only
  iterate 60 all_goals with_reducible first
    | assumption | apply load_good

theorem execLdx_good {pq : List Instr} (c : Fin 16) (ecc : WordEcc) {s : State} (hg : Good pq s) :
    ∀ nx, (execLdx c ecc s) = .next nx → Good pq nx := by
  unfold execLdx
  rintro _ ⟨⟩
  try dsimp only
  iterate 60 all_goals with_reducible first
    | assumption | apply load_good

theorem execSt_good {pq : List Instr} (c : Fin 16) (pause : Bool) (cmp : Option CmpReport) {s : State} (hg : Good pq s) :
    ∀ nx, (execSt c pause cmp s) = .next nx → Good pq nx := by
  unfold execSt
  rintro _ ⟨⟩
  try dsimp only
  iterate 60 all_goals with_reducible first
    | assumption | intro _ | apply store_good

theorem execSth_good {pq : List Instr} (c : Fin 16) (pause : Bool) {s : State} (hg : Good pq s) :
    ∀ nx, (execSth c pause s) = .next nx → Good pq nx := by
  unfold execSth
  rintro _ ⟨⟩
  try dsimp only
  iterate 60 all_goals with_reducible first
    | assumption | apply store_good

theorem execStqh_good {pq : List Instr} (c : Fin 16) (pause : Bool) {s : State} (hg : Good pq s) :
    ∀ nx, (execStqh c pause s) = .next nx → Good pq nx := by
  unfold execStqh
  rintro _ ⟨⟩
  try dsimp only
  iterate 60 all_goals with_reducible first
    | assumption | apply store_good

theorem execStb_good {pq : List Instr} (c : Fin 16) {s : State} (hg : Good pq s) :
    ∀ nx, (execStb c s) = .next nx → Good pq nx := by
  unfold execStb
  rintro _ ⟨⟩
  try dsimp only
  iterate 60 all_goals with_reducible first
    | assumption | apply store_good

theorem execStx_good {pq : List Instr} (c : Fin 16) {s : State} (hg : Good pq s) :
    ∀ nx, (execStx c s) = .next nx → Good pq nx := by
  unfold execStx
  rintro _ ⟨⟩
  try dsimp only
  iterate 60 all_goals with_reducible first
    | assumption | apply store_good

theorem execLoadDataReturn_good {pq : List Instr} (c : Fin 16) (report : LoadReport) {s : State} (hg : Good pq s) :
    ∀ nx, (execLoadDataReturn c report s) = .next nx → Good pq nx := by
  unfold execLoadDataReturn
  rintro _ ⟨⟩
  try dsimp only
  iterate 60 all_goals with_reducible first
    | assumption | apply loadDataReturn_good

theorem execStoreLand_good {pq : List Instr} (c : Fin 16) (ecc : WordEcc) {s : State} (hg : Good pq s) :
    ∀ nx, (execStoreLand c ecc s) = .next nx → Good pq nx := by
  unfold execStoreLand
  rintro _ ⟨⟩
  try dsimp only
  iterate 60 all_goals with_reducible first
    | assumption | apply storeLand_good

end Sys2Proof.Machine
end

