-- ==== Sys2Proof/Laws/GoodManage.lean ====
section
/-! SUPPORT. The operations of Manage.lean keep the memories, the reserved bits of the registers, and the queue. -/

namespace Sys2Proof.Machine

theorem mgmtReads_good {pq : List Instr} (p : Fin 5) (k : Nat) (ecc : List WordEcc) (a : Nat) (m : MgmtRun) {s : State}
    (q : MgmtRun × State) (h : mgmtReads p k ecc a m s = some q) (hg : Good pq s) : Good pq q.2 := by
  induction k generalizing ecc a m s with
  | zero =>
    cases h
    exact hg
  | succ k ih =>
    unfold mgmtReads at h
    have hw := wordRead_good (.port p) a (ecc.head?.getD .none) hg
    dsimp only at h
    generalize wordRead (.port p) a (ecc.head?.getD .none) s = r at hw h
    split at h
    · cases h
      exact hg
    split at h
    · cases h
    split at h
    · exact ih _ _ _ h hw
    · cases h
      exact hw

theorem mgmtWrites_good {pq : List Instr} (p : Fin 5) (ws : List Word) (a : Nat) (m : MgmtRun) {s : State}
    (q : MgmtRun × State) (h : mgmtWrites p ws a m s = some q) (hg : Good pq s) : Good pq q.2 := by
  induction ws generalizing a m s with
  | nil =>
    cases h
    exact hg
  | cons w ws ih =>
    unfold mgmtWrites at h
    split at h
    · cases h
      exact hg
    split at h
    · cases h
    · exact ih _ _ h (wordWrite_good _ _ _ _ hg)

theorem mgmtAnswer_good {pq : List Instr} (p : Fin 5) (code : Nat) (req : MgmtReq)
    (run : Nat → MgmtRun → State → Option (MgmtRun × State)) {s : State}
    (h_run : ∀ a m u q, Good pq u → run a m u = some q → Good pq q.2) (hg : Good pq s) :
    Good pq (mgmtAnswer p code req run s) := by
  unfold mgmtAnswer
  dsimp only
  split
  · exact State.setHost_good _ hg
  · rename_i q u e
    have hu : Good pq u.stillHigh := by
      refine State.stillHigh_good ?_
      split at e
      · cases e
        exact hg
      · exact h_run _ _ _ _ (State.stillHigh_good hg) e
    exact good_ite (respond_good _ _ _ _ _ hu) (respond_good _ _ _ _ _ hu)

theorem copyUnit_good {pq : List Instr} (n : Fin 8) (ecc : WordEcc) {s : State} (hg : Good pq s) :
    Good pq (copyUnit n ecc s) := by
  unfold copyUnit
  try dsimp only
  iterate 60 all_goals with_reducible first
    | assumption | apply wordWrite_good | apply wordRead_good | apply ladleUnitEnd_good | apply ladleFail_good
    | apply good_ite

theorem sinkUnit_good {pq : List Instr} (n : Nat) {s : State} (hg : Good pq s) :
    Good pq (sinkUnit n s) := by
  unfold sinkUnit
  try dsimp only
  iterate 60 all_goals with_reducible first
    | assumption | apply ladleUnitEnd_good | apply ladleFail_good | apply State.landBytes_good | apply good_ite
    | split

theorem sourceUnit_good {pq : List Instr} (n : Nat) (ecc : WordEcc) {s : State} (hg : Good pq s) :
    Good pq (sourceUnit n ecc s) := by
  unfold sourceUnit
  try dsimp only
  iterate 60 all_goals with_reducible first
    | assumption | apply issueLadle_good | apply ladleFail_good | apply State.setLadle_good | apply State.eccRead_good
    | apply good_ite | split

theorem ladleUnit_good {pq : List Instr} (n : Fin 8) (ecc : WordEcc) {s : State} (hg : Good pq s) :
    Good pq (ladleUnit n ecc s) := by
  unfold ladleUnit
  try dsimp only
  iterate 60 all_goals with_reducible first
    | assumption | intro _ | apply sourceUnit_good | apply sinkUnit_good | apply copyUnit_good
    | apply State.latching_good | apply good_ite | split

theorem readNow_good {pq : List Instr} (p : Fin 5) (req : MgmtReq) {s : State} (hg : Good pq s) :
    Good pq (readNow p req s) := by
  unfold readNow
  exact serveNow_good _ _ _ _ _
    (fun _ h => mgmtAnswer_good _ _ _ _ (fun _ _ _ _ g e => mgmtReads_good _ _ _ _ _ _ e g) h) hg

theorem writeRequestNow_good {pq : List Instr} (p : Fin 5) (req : MgmtReq) {s : State} (hg : Good pq s) :
    Good pq (writeRequestNow p req s) := by
  unfold writeRequestNow
  dsimp only
  exact serveNow_good _ _ _ _ _
    (fun _ h => mgmtAnswer_good _ _ _ _ (fun _ _ _ _ g e => mgmtWrites_good _ _ _ _ _ e g) h) hg

theorem statusNow_good {pq : List Instr} (p : Fin 5) (req : MgmtReq) {s : State} (hg : Good pq s) :
    Good pq (statusNow p req s) := by
  unfold statusNow
  try dsimp only
  iterate 60 all_goals with_reducible first
    | assumption | intro _ | apply serveNow_good | apply respond_good

theorem resetNow_good {pq : List Instr} (p : Fin 5) (req : MgmtReq) {s : State} (hg : Good pq s) :
    Good pq (resetNow p req s) := by
  unfold resetNow
  try dsimp only
  iterate 60 all_goals with_reducible first
    | assumption | intro _ | apply fullReset_good | apply serveNow_good | apply respond_good

theorem mgmtRead_good {pq : List Instr} (p : Fin 5) (req : MgmtReq) {s : State} (hg : Good pq s) :
    Good pq (mgmtRead p req s) := by
  unfold mgmtRead
  exact arrive_good _ _ _ _ (fun _ h => readNow_good _ _ h) hg

theorem mgmtWrite_good {pq : List Instr} (p : Fin 5) (req : MgmtReq) {s : State} (hg : Good pq s) :
    Good pq (mgmtWrite p req s) := by
  unfold mgmtWrite
  exact arrive_good _ _ _ _ (fun _ h => writeRequestNow_good _ _ h) hg

theorem mgmtStatus_good {pq : List Instr} (p : Fin 5) (req : MgmtReq) {s : State} (hg : Good pq s) :
    Good pq (mgmtStatus p req s) := by
  unfold mgmtStatus
  try dsimp only
  iterate 60 all_goals with_reducible first
    | assumption | intro _ | apply statusNow_good | apply arrive_good

theorem mgmtReset_good {pq : List Instr} (p : Fin 5) (req : MgmtReq) {s : State} (hg : Good pq s) :
    Good pq (mgmtReset p req s) := by
  unfold mgmtReset
  try dsimp only
  iterate 60 all_goals with_reducible first
    | assumption | intro _ | apply resetNow_good | apply arrive_good

theorem mgmtServe_good {pq : List Instr} (p : Fin 5) (code : Byte) (req : MgmtReq) {s : State} (hg : Good pq s) :
    Good pq (mgmtServe p code req s) := by
  unfold mgmtServe
  try dsimp only
  iterate 60 all_goals with_reducible first
    | assumption | apply resetNow_good | apply statusNow_good | apply writeRequestNow_good | apply readNow_good
    | apply badCodeNow_good | apply forwardNow_good | apply setKeyNow_good | apply closeNow_good | apply openNow_good
    | apply good_ite | split | apply Good.of_mk | apply Good.parts

theorem serveQueued_good {pq : List Instr} (x0 : Nat) {s : State} (hg : Good pq s) :
    Good pq (serveQueued x0 s) := by
  induction x0 generalizing s with
  | zero => exact hg
  | succ k ih =>
    unfold serveQueued
    try dsimp only
    iterate 60 all_goals with_reducible first
      | assumption | apply ih | apply mgmtServe_good | apply takeRequest_good | apply State.setHost_good | apply good_ite
      | split

theorem engineGoesOn_good {pq : List Instr} {s : State} (hg : Good pq s) :
    Good pq (engineGoesOn s) := by
  unfold engineGoesOn
  try dsimp only
  iterate 60 all_goals with_reducible first
    | assumption | apply serveQueued_good | apply keyReplyEnd_good

theorem debugBoth_good {pq : List Instr} (c : Nat) (f : Core → Core) {s : State} (hg : Good pq s) :
    Good pq (debugBoth c f s) := by
  unfold debugBoth
  try dsimp only
  iterate 60 all_goals with_reducible first
    | assumption | apply State.asChecker_good | apply State.setCore_good | apply good_ite

theorem debugHalt_good {pq : List Instr} (c : Nat) {s : State} (hg : Good pq s) :
    Good pq (debugHalt c s) := by
  unfold debugHalt
  try dsimp only
  iterate 60 all_goals with_reducible first
    | assumption | apply debugStep_good | apply debugBoth_good | apply good_ite

theorem debugStep_good {pq : List Instr} (c : Nat) {s : State} (hg : Good pq s) :
    Good pq (debugStep c s) := by
  unfold debugStep
  try dsimp only
  iterate 60 all_goals with_reducible first
    | assumption | apply debugHalt_good | apply debugBoth_good | apply good_ite

theorem debugResume_good {pq : List Instr} (c : Nat) {s : State} (hg : Good pq s) :
    Good pq (debugResume c s) := by
  unfold debugResume
  try dsimp only
  iterate 60 all_goals with_reducible first
    | assumption | intro _ | apply debugStep_good | apply debugHalt_good | apply debugBoth_good
    | apply State.latching_good | apply good_ite | split | apply Good.of_mk | apply Good.parts

theorem debugRegisterWrite_good {pq : List Instr} (c : Nat) (reg : DebugReg) (v : Cell) {s : State} (hg : Good pq s) :
    Good pq (debugRegisterWrite c reg v s) := by
  unfold debugRegisterWrite
  try dsimp only
  iterate 60 all_goals with_reducible first
    | assumption | apply debugStep_good | apply debugHalt_good | apply debugBoth_good | apply good_ite

theorem scrubWord_good {pq : List Instr} (a : Nat) (ecc : WordEcc) {s : State} (hg : Good pq s) :
    Good pq (scrubWord a ecc s) := by
  unfold scrubWord
  try dsimp only
  iterate 60 all_goals with_reducible first
    | assumption | apply State.eccRead_good | apply good_ite | split

theorem scrub_good {pq : List Instr} (a : Nat) (report : ScrubReport) {s : State} (hg : Good pq s) :
    Good pq (scrub a report s) := by
  unfold scrub
  try dsimp only
  iterate 60 all_goals with_reducible first
    | assumption | apply scrubWord_good | apply State.strike_good | apply good_ite | split | apply Good.of_mk
    | apply Good.parts

theorem memoryFillDone_good {pq : List Instr} (dram : Bool) {s : State} (hg : Good pq s) :
    Good pq (memoryFillDone dram s) := by
  unfold memoryFillDone
  try dsimp only
  iterate 60 all_goals with_reducible first
    | assumption | apply engineGoesOn_good | apply State.dormant_good | apply State.setBit_good | apply good_ite
    | split

theorem gpioLevelChange_good {pq : List Instr} (n : Nat) (change : BallChange) {s : State} (hg : Good pq s) :
    Good pq (gpioLevelChange n change s) := by
  unfold gpioLevelChange
  try dsimp only
  iterate 60 all_goals with_reducible first
    | assumption | intro _ | apply gpioLevel_good | apply receiveAt_good | apply State.latching_good | apply good_ite
    | split | apply Good.of_mk | apply Good.parts

theorem commandWrite_good {pq : List Instr} (who : Requester) (a : Nat) (w : Word) {s : State} (hg : Good pq s) :
    Good pq (commandWrite who a w s) := by
  unfold commandWrite
  try dsimp only
  iterate 60 all_goals with_reducible first
    | assumption | intro _ | apply writeReg_good | apply State.latching_good | apply good_ite | split

theorem commandField_good {pq : List Instr} (who : Requester) (a : Nat) (f : Fld) (v : Nat) {s : State} (hg : Good pq s) :
    Good pq (commandField who a f v s) := by
  unfold commandField
  try dsimp only
  iterate 60 all_goals with_reducible first
    | assumption | intro _ | apply writeField_good | apply State.latching_good | apply good_ite | split

theorem softwareWrite_good {pq : List Instr} (a : Nat) (w : Word) {s : State} (hg : Good pq s) :
    Good pq (softwareWrite a w s) := by
  unfold softwareWrite
  try dsimp only
  iterate 60 all_goals with_reducible first
    | assumption | apply writeReg_good | apply good_ite

theorem softwareField_good {pq : List Instr} (a : Nat) (f : Fld) (v : Nat) {s : State} (hg : Good pq s) :
    Good pq (softwareField a f v s) := by
  unfold softwareField
  try dsimp only
  iterate 60 all_goals with_reducible first
    | assumption | apply writeField_good | apply good_ite

theorem coreWrite_good {pq : List Instr} (c : Fin 16) (a : Nat) (w : Word) {s : State} (hg : Good pq s) :
    Good pq (coreWrite c a w s) := by
  unfold coreWrite
  try dsimp only
  iterate 60 all_goals with_reducible first
    | assumption | apply commandWrite_good

theorem commandRead_good {pq : List Instr} (who : Requester) (a : Nat) {s : State} (hg : Good pq s) :
    Good pq (commandRead who a s) := by
  unfold commandRead
  try dsimp only
  iterate 60 all_goals with_reducible first
    | assumption | apply readReg_good | apply State.setHost_good | apply good_ite

end Sys2Proof.Machine
end

