-- ==== Sys2Proof/Laws/GoodExecConverters.lean ====
section
/-! SUPPORT. The operations of ExecConverters.lean keep the memories, the reserved bits of the registers, and the queue. -/

namespace Sys2Proof.Machine

theorem execModulatorRunning_good {pq : List Instr} (n : Fin 96) {s : State} (hg : Good pq s) :
    ∀ nx, (execModulatorRunning n s) = .next nx → Good pq nx := by
  unfold execModulatorRunning
  rintro _ ⟨⟩
  try dsimp only
  iterate 60 all_goals with_reducible first
    | assumption | apply modulatorRunning_good

theorem execOverload_good {pq : List Instr} (n : Fin 96) {s : State} (hg : Good pq s) :
    ∀ nx, (execOverload n s) = .next nx → Good pq nx := by
  unfold execOverload
  rintro _ ⟨⟩
  try dsimp only
  iterate 60 all_goals with_reducible first
    | assumption | apply overload_good

theorem execStuck_good {pq : List Instr} (arrival : InputCells) {s : State} (hg : Good pq s) :
    ∀ nx, (execStuck arrival s) = .next nx → Good pq nx := by
  unfold execStuck
  rintro _ ⟨⟩
  try dsimp only
  iterate 60 all_goals with_reducible first
    | assumption | apply stuck_good

theorem execXbRunning_good {pq : List Instr} (n : Fin 64) {s : State} (hg : Good pq s) :
    ∀ nx, (execXbRunning n s) = .next nx → Good pq nx := by
  unfold execXbRunning
  rintro _ ⟨⟩
  try dsimp only
  iterate 60 all_goals with_reducible first
    | assumption | apply xbRunning_good

theorem execSwiftResult_good {pq : List Instr} (n : Fin 160) (cells : List StreamCell) (later : List StreamCell) {s : State} (hg : Good pq s) :
    ∀ nx, (execSwiftResult n cells later s) = .next nx → Good pq nx := by
  unfold execSwiftResult
  rintro _ ⟨⟩
  try dsimp only
  iterate 60 all_goals with_reducible first
    | assumption | apply pathResult_good

theorem execFineResult_good {pq : List Instr} (n : Fin 160) (cells : List StreamCell) (later : List StreamCell) {s : State} (hg : Good pq s) :
    ∀ nx, (execFineResult n cells later s) = .next nx → Good pq nx := by
  unfold execFineResult
  rintro _ ⟨⟩
  try dsimp only
  iterate 60 all_goals with_reducible first
    | assumption | apply pathResult_good

theorem execPathStart_good {pq : List Instr} (n : Fin 160) (fine : Bool) {s : State} (hg : Good pq s) :
    ∀ nx, (execPathStart n fine s) = .next nx → Good pq nx := by
  unfold execPathStart
  rintro _ ⟨⟩
  try dsimp only
  iterate 60 all_goals with_reducible first
    | assumption | apply softwareField_good

theorem execPathDisable_good {pq : List Instr} (n : Fin 160) (fine : Bool) {s : State} (hg : Good pq s) :
    ∀ nx, (execPathDisable n fine s) = .next nx → Good pq nx := by
  unfold execPathDisable
  rintro _ ⟨⟩
  try dsimp only
  iterate 60 all_goals with_reducible first
    | assumption | apply softwareField_good

theorem execPathDisabled_good {pq : List Instr} (n : Fin 160) (fine : Bool) {s : State} (hg : Good pq s) :
    ∀ nx, (execPathDisabled n fine s) = .next nx → Good pq nx := by
  unfold execPathDisabled
  rintro _ ⟨⟩
  try dsimp only
  iterate 60 all_goals with_reducible first
    | assumption | apply pathDisabled_good

theorem execDecSnap_good {pq : List Instr} (n : Fin 160) {s : State} (hg : Good pq s) :
    ∀ nx, (execDecSnap n s) = .next nx → Good pq nx := by
  unfold execDecSnap
  rintro _ ⟨⟩
  try dsimp only
  iterate 60 all_goals with_reducible first
    | assumption | apply softwareField_good

theorem execComparatorCrossing_good {pq : List Instr} (n : Fin 96) (above : Bool) (below : Bool) {s : State} (hg : Good pq s) :
    ∀ nx, (execComparatorCrossing n above below s) = .next nx → Good pq nx := by
  unfold execComparatorCrossing
  rintro _ ⟨⟩
  try dsimp only
  iterate 60 all_goals with_reducible first
    | assumption | apply comparatorCrossing_good

theorem execComparatorReady_good {pq : List Instr} (n : Fin 96) {s : State} (hg : Good pq s) :
    ∀ nx, (execComparatorReady n s) = .next nx → Good pq nx := by
  unfold execComparatorReady
  rintro _ ⟨⟩
  try dsimp only
  iterate 60 all_goals with_reducible first
    | assumption | apply comparatorReady_good

theorem execThresholdWrite_good {pq : List Instr} (n : Fin 96) (value : Word) {s : State} (hg : Good pq s) :
    ∀ nx, (execThresholdWrite n value s) = .next nx → Good pq nx := by
  unfold execThresholdWrite
  rintro _ ⟨⟩
  try dsimp only
  iterate 60 all_goals with_reducible first
    | assumption | apply softwareWrite_good

theorem execRbSelWrite_good {pq : List Instr} (value : Word) {s : State} (hg : Good pq s) :
    ∀ nx, (execRbSelWrite value s) = .next nx → Good pq nx := by
  unfold execRbSelWrite
  rintro _ ⟨⟩
  try dsimp only
  iterate 60 all_goals with_reducible first
    | assumption | apply softwareWrite_good

theorem execRbSettled_good {pq : List Instr} {s : State} (hg : Good pq s) :
    ∀ nx, (execRbSettled s) = .next nx → Good pq nx := by
  unfold execRbSettled
  rintro _ ⟨⟩
  try dsimp only
  iterate 60 all_goals with_reducible first
    | assumption | apply rbSettled_good

theorem execQuenchRequest_good {pq : List Instr} (i : Fin 160) {s : State} (hg : Good pq s) :
    ∀ nx, (execQuenchRequest i s) = .next nx → Good pq nx := by
  unfold execQuenchRequest
  rintro _ ⟨⟩
  try dsimp only
  iterate 60 all_goals with_reducible first
    | assumption | apply quenchRequest_good

theorem execSafeHighDeadTime_good {pq : List Instr} (o : Fin 192) {s : State} (hg : Good pq s) :
    ∀ nx, (execSafeHighDeadTime o s) = .next nx → Good pq nx := by
  unfold execSafeHighDeadTime
  rintro _ ⟨⟩
  try dsimp only
  iterate 60 all_goals with_reducible first
    | assumption | apply safeHighDeadTime_good

theorem execSafeHighForceDelay_good {pq : List Instr} (o : Fin 192) {s : State} (hg : Good pq s) :
    ∀ nx, (execSafeHighForceDelay o s) = .next nx → Good pq nx := by
  unfold execSafeHighForceDelay
  rintro _ ⟨⟩
  try dsimp only
  iterate 60 all_goals with_reducible first
    | assumption | apply safeHighForceDelay_good

theorem execForceHoldExpiry_good {pq : List Instr} (o : Fin 192) {s : State} (hg : Good pq s) :
    ∀ nx, (execForceHoldExpiry o s) = .next nx → Good pq nx := by
  unfold execForceHoldExpiry
  rintro _ ⟨⟩
  try dsimp only
  iterate 60 all_goals with_reducible first
    | assumption | apply forceHoldExpiry_good

theorem execGroupSelfClear_good {pq : List Instr} (g : Fin 16) {s : State} (hg : Good pq s) :
    ∀ nx, (execGroupSelfClear g s) = .next nx → Good pq nx := by
  unfold execGroupSelfClear
  rintro _ ⟨⟩
  try dsimp only
  iterate 60 all_goals with_reducible first
    | assumption | apply groupSelfClear_good

theorem execQuenchRelease_good {pq : List Instr} (who : Requester) (groups : BitVec 16) {s : State} (hg : Good pq s) :
    ∀ nx, (execQuenchRelease who groups s) = .next nx → Good pq nx := by
  unfold execQuenchRelease
  rintro _ ⟨⟩
  try dsimp only
  iterate 60 all_goals with_reducible first
    | assumption | apply commandWrite_good

theorem execSwReq_good {pq : List Instr} (who : Requester) (raise : Bool) {s : State} (hg : Good pq s) :
    ∀ nx, (execSwReq who raise s) = .next nx → Good pq nx := by
  unfold execSwReq
  rintro _ ⟨⟩
  try dsimp only
  iterate 60 all_goals with_reducible first
    | assumption | apply commandField_good

theorem execSurveyStart_good {pq : List Instr} (n : Fin 8) {s : State} (hg : Good pq s) :
    ∀ nx, (execSurveyStart n s) = .next nx → Good pq nx := by
  unfold execSurveyStart
  rintro _ ⟨⟩
  try dsimp only
  iterate 60 all_goals with_reducible first
    | assumption | apply softwareField_good

theorem execSurveyTrigger_good {pq : List Instr} (n : Fin 8) {s : State} (hg : Good pq s) :
    ∀ nx, (execSurveyTrigger n s) = .next nx → Good pq nx := by
  unfold execSurveyTrigger
  rintro _ ⟨⟩
  try dsimp only
  iterate 60 all_goals with_reducible first
    | assumption | apply surveyTrigger_good

theorem execConverterStartupDone_good {pq : List Instr} (n : Fin 8) {s : State} (hg : Good pq s) :
    ∀ nx, (execConverterStartupDone n s) = .next nx → Good pq nx := by
  unfold execConverterStartupDone
  rintro _ ⟨⟩
  try dsimp only
  iterate 60 all_goals with_reducible first
    | assumption | apply converterStartupDone_good

theorem execConversionEnd_good {pq : List Instr} (n : Fin 8) (raw : BitVec 24) {s : State} (hg : Good pq s) :
    ∀ nx, (execConversionEnd n raw s) = .next nx → Good pq nx := by
  unfold execConversionEnd
  rintro _ ⟨⟩
  try dsimp only
  iterate 60 all_goals with_reducible first
    | assumption | apply conversionEnd_good

theorem execUrgent_good {pq : List Instr} (n : Fin 8) (value : Word) {s : State} (hg : Good pq s) :
    ∀ nx, (execUrgent n value s) = .next nx → Good pq nx := by
  unfold execUrgent
  rintro _ ⟨⟩
  try dsimp only
  iterate 60 all_goals with_reducible first
    | assumption | apply softwareWrite_good

theorem execSurveyDisable_good {pq : List Instr} (n : Fin 8) {s : State} (hg : Good pq s) :
    ∀ nx, (execSurveyDisable n s) = .next nx → Good pq nx := by
  unfold execSurveyDisable
  rintro _ ⟨⟩
  try dsimp only
  iterate 60 all_goals with_reducible first
    | assumption | apply softwareField_good

theorem execSurveyDisabled_good {pq : List Instr} (n : Fin 8) {s : State} (hg : Good pq s) :
    ∀ nx, (execSurveyDisabled n s) = .next nx → Good pq nx := by
  unfold execSurveyDisabled
  rintro _ ⟨⟩
  try dsimp only
  iterate 60 all_goals with_reducible first
    | assumption | apply surveyDisabled_good

end Sys2Proof.Machine
end

