-- ==== Sys2Proof/Laws/GoodExecFlash.lean ====
section
/-! SUPPORT. The operations of ExecFlash.lean keep the memories, the reserved bits of the registers, and the queue. -/

namespace Sys2Proof.Machine

theorem flashWrite_good {pq : List Instr} (who : Requester) (code : Nat) (offset : Nat) {s : State} (hg : Good pq s) :
    Good pq (flashWrite who code offset s) := by
  unfold flashWrite
  try dsimp only
  iterate 60 all_goals with_reducible first
    | assumption | apply commandWrite_good

theorem execFlashProgram_good {pq : List Instr} (who : Requester) (offset : BitVec 26) {s : State} (hg : Good pq s) :
    ∀ nx, (execFlashProgram who offset s) = .next nx → Good pq nx := by
  unfold execFlashProgram
  rintro _ ⟨⟩
  try dsimp only
  iterate 60 all_goals with_reducible first
    | assumption | apply flashWrite_good

theorem execFlashErase_good {pq : List Instr} (who : Requester) (offset : BitVec 26) {s : State} (hg : Good pq s) :
    ∀ nx, (execFlashErase who offset s) = .next nx → Good pq nx := by
  unfold execFlashErase
  rintro _ ⟨⟩
  try dsimp only
  iterate 60 all_goals with_reducible first
    | assumption | apply flashWrite_good

theorem execFlashSuspend_good {pq : List Instr} (who : Requester) {s : State} (hg : Good pq s) :
    ∀ nx, (execFlashSuspend who s) = .next nx → Good pq nx := by
  unfold execFlashSuspend
  rintro _ ⟨⟩
  try dsimp only
  iterate 60 all_goals with_reducible first
    | assumption | apply flashWrite_good

theorem execFlashResume_good {pq : List Instr} (who : Requester) {s : State} (hg : Good pq s) :
    ∀ nx, (execFlashResume who s) = .next nx → Good pq nx := by
  unfold execFlashResume
  rintro _ ⟨⟩
  try dsimp only
  iterate 60 all_goals with_reducible first
    | assumption | apply flashWrite_good

theorem execFlashSwap_good {pq : List Instr} (who : Requester) {s : State} (hg : Good pq s) :
    ∀ nx, (execFlashSwap who s) = .next nx → Good pq nx := by
  unfold execFlashSwap
  rintro _ ⟨⟩
  try dsimp only
  iterate 60 all_goals with_reducible first
    | assumption | apply flashWrite_good

theorem execFlashUnlock_good {pq : List Instr} (who : Requester) {s : State} (hg : Good pq s) :
    ∀ nx, (execFlashUnlock who s) = .next nx → Good pq nx := by
  unfold execFlashUnlock
  rintro _ ⟨⟩
  try dsimp only
  iterate 60 all_goals with_reducible first
    | assumption | apply flashWrite_good

theorem execFlashLock_good {pq : List Instr} (who : Requester) {s : State} (hg : Good pq s) :
    ∀ nx, (execFlashLock who s) = .next nx → Good pq nx := by
  unfold execFlashLock
  rintro _ ⟨⟩
  try dsimp only
  iterate 60 all_goals with_reducible first
    | assumption | apply flashWrite_good

theorem execFlashSetPwd_good {pq : List Instr} (who : Requester) {s : State} (hg : Good pq s) :
    ∀ nx, (execFlashSetPwd who s) = .next nx → Good pq nx := by
  unfold execFlashSetPwd
  rintro _ ⟨⟩
  try dsimp only
  iterate 60 all_goals with_reducible first
    | assumption | apply flashWrite_good

theorem execFlashSetProt_good {pq : List Instr} (who : Requester) {s : State} (hg : Good pq s) :
    ∀ nx, (execFlashSetProt who s) = .next nx → Good pq nx := by
  unfold execFlashSetProt
  rintro _ ⟨⟩
  try dsimp only
  iterate 60 all_goals with_reducible first
    | assumption | apply flashWrite_good

theorem execCommandEnd_good {pq : List Instr} (report : FlashReport) {s : State} (hg : Good pq s) :
    ∀ nx, (execCommandEnd report s) = .next nx → Good pq nx := by
  unfold execCommandEnd
  rintro _ ⟨⟩
  try dsimp only
  iterate 60 all_goals with_reducible first
    | assumption | apply engineGoesOn_good | apply commandEnd_good | apply good_ite | split | apply Try.ok_good
    | apply Try.exc_good

theorem execFlashLockoutExpiry_good {pq : List Instr} {s : State} (hg : Good pq s) :
    ∀ nx, (execFlashLockoutExpiry s) = .next nx → Good pq nx := by
  unfold execFlashLockoutExpiry
  rintro _ ⟨⟩
  try dsimp only
  iterate 60 all_goals with_reducible first
    | assumption | apply flashLockoutExpiry_good

theorem execInterruptedClear_good {pq : List Instr} {s : State} (hg : Good pq s) :
    ∀ nx, (execInterruptedClear s) = .next nx → Good pq nx := by
  unfold execInterruptedClear
  rintro _ ⟨⟩
  try dsimp only
  iterate 60 all_goals with_reducible first
    | assumption | apply softwareField_good

end Sys2Proof.Machine
end

