-- ==== Sys2Proof/Laws/GoodExecHost.lean ====
section
/-! SUPPORT. The operations of ExecHost.lean keep the memories, the reserved bits of the registers, and the queue. -/

namespace Sys2Proof.Machine

theorem linkWrite_good {pq : List Instr} (who : Requester) (bits : Nat) {s : State} (hg : Good pq s) :
    Good pq (linkWrite who bits s) := by
  unfold linkWrite
  try dsimp only
  iterate 60 all_goals with_reducible first
    | assumption | apply commandWrite_good

theorem execMgmtOpen_good {pq : List Instr} (port : Fin 5) (req : MgmtReq) {s : State} (hg : Good pq s) :
    ∀ nx, (execMgmtOpen port req s) = .next nx → Good pq nx := by
  unfold execMgmtOpen
  rintro _ ⟨⟩
  try dsimp only
  iterate 60 all_goals with_reducible first
    | assumption | apply mgmtOpen_good

theorem execMgmtClose_good {pq : List Instr} (port : Fin 5) (req : MgmtReq) {s : State} (hg : Good pq s) :
    ∀ nx, (execMgmtClose port req s) = .next nx → Good pq nx := by
  unfold execMgmtClose
  rintro _ ⟨⟩
  try dsimp only
  iterate 60 all_goals with_reducible first
    | assumption | apply mgmtClose_good

theorem execMgmtStatus_good {pq : List Instr} (port : Fin 5) (req : MgmtReq) {s : State} (hg : Good pq s) :
    ∀ nx, (execMgmtStatus port req s) = .next nx → Good pq nx := by
  unfold execMgmtStatus
  rintro _ ⟨⟩
  try dsimp only
  iterate 60 all_goals with_reducible first
    | assumption | apply mgmtStatus_good

theorem execMgmtRead_good {pq : List Instr} (port : Fin 5) (req : MgmtReq) {s : State} (hg : Good pq s) :
    ∀ nx, (execMgmtRead port req s) = .next nx → Good pq nx := by
  unfold execMgmtRead
  rintro _ ⟨⟩
  try dsimp only
  iterate 60 all_goals with_reducible first
    | assumption | apply mgmtRead_good

theorem execMgmtWrite_good {pq : List Instr} (port : Fin 5) (req : MgmtReq) {s : State} (hg : Good pq s) :
    ∀ nx, (execMgmtWrite port req s) = .next nx → Good pq nx := by
  unfold execMgmtWrite
  rintro _ ⟨⟩
  try dsimp only
  iterate 60 all_goals with_reducible first
    | assumption | apply mgmtWrite_good

theorem execMgmtReset_good {pq : List Instr} (port : Fin 5) (req : MgmtReq) {s : State} (hg : Good pq s) :
    ∀ nx, (execMgmtReset port req s) = .next nx → Good pq nx := by
  unfold execMgmtReset
  rintro _ ⟨⟩
  try dsimp only
  iterate 60 all_goals with_reducible first
    | assumption | apply mgmtReset_good

theorem execMgmtSetKey_good {pq : List Instr} (port : Fin 5) (req : MgmtReq) {s : State} (hg : Good pq s) :
    ∀ nx, (execMgmtSetKey port req s) = .next nx → Good pq nx := by
  unfold execMgmtSetKey
  rintro _ ⟨⟩
  try dsimp only
  iterate 60 all_goals with_reducible first
    | assumption | apply mgmtSetKey_good

theorem execMgmtForward_good {pq : List Instr} (port : Fin 5) (req : MgmtReq) {s : State} (hg : Good pq s) :
    ∀ nx, (execMgmtForward port req s) = .next nx → Good pq nx := by
  unfold execMgmtForward
  rintro _ ⟨⟩
  try dsimp only
  iterate 60 all_goals with_reducible first
    | assumption | apply mgmtForward_good

theorem execMgmtBadCode_good {pq : List Instr} (port : Fin 5) (code : Byte) (req : MgmtReq) {s : State} (hg : Good pq s) :
    ∀ nx, (execMgmtBadCode port code req s) = .next nx → Good pq nx := by
  unfold execMgmtBadCode
  rintro _ ⟨⟩
  try dsimp only
  iterate 60 all_goals with_reducible first
    | assumption | apply mgmtBadCode_good

theorem execReplyGo_good {pq : List Instr} (who : Requester) (len : BitVec 9) {s : State} (hg : Good pq s) :
    ∀ nx, (execReplyGo who len s) = .next nx → Good pq nx := by
  unfold execReplyGo
  rintro _ ⟨⟩
  try dsimp only
  iterate 60 all_goals with_reducible first
    | assumption | apply commandWrite_good

theorem execNoHandler_good {pq : List Instr} {s : State} (hg : Good pq s) :
    ∀ nx, (execNoHandler s) = .next nx → Good pq nx := by
  unfold execNoHandler
  rintro _ ⟨⟩
  try dsimp only
  iterate 60 all_goals with_reducible first
    | assumption | apply noHandler_good

theorem execSessionTimeout_good {pq : List Instr} (port : Fin 5) {s : State} (hg : Good pq s) :
    ∀ nx, (execSessionTimeout port s) = .next nx → Good pq nx := by
  unfold execSessionTimeout
  rintro _ ⟨⟩
  try dsimp only
  iterate 60 all_goals with_reducible first
    | assumption | apply sessionTimeout_good

theorem execSessionLockoutExpiry_good {pq : List Instr} (port : Fin 5) {s : State} (hg : Good pq s) :
    ∀ nx, (execSessionLockoutExpiry port s) = .next nx → Good pq nx := by
  unfold execSessionLockoutExpiry
  rintro _ ⟨⟩
  try dsimp only
  iterate 60 all_goals with_reducible first
    | assumption | apply sessionLockoutExpiry_good

theorem execEthUp_good {pq : List Instr} (who : Requester) (n : Fin 2) {s : State} (hg : Good pq s) :
    ∀ nx, (execEthUp who n s) = .next nx → Good pq nx := by
  unfold execEthUp
  rintro _ ⟨⟩
  try dsimp only
  iterate 60 all_goals with_reducible first
    | assumption | apply linkWrite_good

theorem execPcieUp_good {pq : List Instr} (who : Requester) {s : State} (hg : Good pq s) :
    ∀ nx, (execPcieUp who s) = .next nx → Good pq nx := by
  unfold execPcieUp
  rintro _ ⟨⟩
  try dsimp only
  iterate 60 all_goals with_reducible first
    | assumption | apply linkWrite_good

theorem execHostLinkUp_good {pq : List Instr} (link : LinkRise) {s : State} (hg : Good pq s) :
    ∀ nx, (execHostLinkUp link s) = .next nx → Good pq nx := by
  unfold execHostLinkUp
  rintro _ ⟨⟩
  try dsimp only
  iterate 60 all_goals with_reducible first
    | assumption | apply hostLinkUp_good | apply Try.ok_good | apply Try.exc_good

theorem execHostLinkLoss_good {pq : List Instr} (loss : LinkLoss) {s : State} (hg : Good pq s) :
    ∀ nx, (execHostLinkLoss loss s) = .next nx → Good pq nx := by
  unfold execHostLinkLoss
  rintro _ ⟨⟩
  try dsimp only
  iterate 60 all_goals with_reducible first
    | assumption | apply hostLinkLoss_good

theorem execMgmtAddressWrite_good {pq : List Instr} (who : Requester) (n : Fin 2) (reg : MgmtReg) (value : Word) {s : State} (hg : Good pq s) :
    ∀ nx, (execMgmtAddressWrite who n reg value s) = .next nx → Good pq nx := by
  unfold execMgmtAddressWrite
  rintro _ ⟨⟩
  try dsimp only
  iterate 60 all_goals with_reducible first
    | assumption | apply commandWrite_good

theorem execArp_good {pq : List Instr} (n : Fin 2) (query : AddressQuery) {s : State} (hg : Good pq s) :
    ∀ nx, (execArp n query s) = .next nx → Good pq nx := by
  unfold execArp
  rintro _ ⟨⟩
  try dsimp only
  iterate 60 all_goals with_reducible first
    | assumption | apply addressQuery_good

theorem execPpsRise_good {pq : List Instr} (n : Fin 2) {s : State} (hg : Good pq s) :
    ∀ nx, (execPpsRise n s) = .next nx → Good pq nx := by
  unfold execPpsRise
  rintro _ ⟨⟩
  try dsimp only
  iterate 60 all_goals with_reducible first
    | assumption | apply ppsRise_good | apply Try.ok_good | apply Try.exc_good

theorem execPpsFall_good {pq : List Instr} (n : Fin 2) {s : State} (hg : Good pq s) :
    ∀ nx, (execPpsFall n s) = .next nx → Good pq nx := by
  unfold execPpsFall
  rintro _ ⟨⟩
  try dsimp only
  iterate 60 all_goals with_reducible first
    | assumption | apply ppsFall_good | apply Try.ok_good | apply Try.exc_good

theorem execTapBypass_good {pq : List Instr} {s : State} (hg : Good pq s) :
    ∀ nx, (execTapBypass s) = .next nx → Good pq nx := by
  unfold execTapBypass
  rintro _ ⟨⟩
  try dsimp only
  iterate 60 all_goals with_reducible first
    | assumption | apply tapTake_good

theorem execTapIdcode_good {pq : List Instr} {s : State} (hg : Good pq s) :
    ∀ nx, (execTapIdcode s) = .next nx → Good pq nx := by
  unfold execTapIdcode
  rintro _ ⟨⟩
  try dsimp only
  iterate 60 all_goals with_reducible first
    | assumption | apply tapIdcode_good

theorem execTapSamplePreload_good {pq : List Instr} (balls : List (Nat × Bool)) {s : State} (hg : Good pq s) :
    ∀ nx, (execTapSamplePreload balls s) = .next nx → Good pq nx := by
  unfold execTapSamplePreload
  rintro _ ⟨⟩
  try dsimp only
  iterate 60 all_goals with_reducible first
    | assumption | apply tapPreload_good

theorem execTapExtest_good {pq : List Instr} {s : State} (hg : Good pq s) :
    ∀ nx, (execTapExtest s) = .next nx → Good pq nx := by
  unfold execTapExtest
  rintro _ ⟨⟩
  try dsimp only
  iterate 60 all_goals with_reducible first
    | assumption | apply tapTake_good

theorem execTapExtestPulse_good {pq : List Instr} {s : State} (hg : Good pq s) :
    ∀ nx, (execTapExtestPulse s) = .next nx → Good pq nx := by
  unfold execTapExtestPulse
  rintro _ ⟨⟩
  try dsimp only
  iterate 60 all_goals with_reducible first
    | assumption | apply tapTake_good

theorem execTapExtestTrain_good {pq : List Instr} {s : State} (hg : Good pq s) :
    ∀ nx, (execTapExtestTrain s) = .next nx → Good pq nx := by
  unfold execTapExtestTrain
  rintro _ ⟨⟩
  try dsimp only
  iterate 60 all_goals with_reducible first
    | assumption | apply tapTake_good

theorem execAssayRequest_good {pq : List Instr} (who : Requester) (k : Fin 3) (bits : Word) {s : State} (hg : Good pq s) :
    ∀ nx, (execAssayRequest who k bits s) = .next nx → Good pq nx := by
  unfold execAssayRequest
  rintro _ ⟨⟩
  try dsimp only
  iterate 60 all_goals with_reducible first
    | assumption | apply commandWrite_good

theorem execAssayCancel_good {pq : List Instr} (who : Requester) (k : Fin 3) (bits : Word) {s : State} (hg : Good pq s) :
    ∀ nx, (execAssayCancel who k bits s) = .next nx → Good pq nx := by
  unfold execAssayCancel
  rintro _ ⟨⟩
  try dsimp only
  iterate 60 all_goals with_reducible first
    | assumption | apply commandWrite_good

theorem execAssayRegionStart_good {pq : List Instr} {s : State} (hg : Good pq s) :
    ∀ nx, (execAssayRegionStart s) = .next nx → Good pq nx := by
  unfold execAssayRegionStart
  rintro _ ⟨⟩
  try dsimp only
  iterate 60 all_goals with_reducible first
    | assumption | apply assayRegionStart_good

theorem execAssayRegionEnd_good {pq : List Instr} (lane : Fin 2) (result : AssayResult) {s : State} (hg : Good pq s) :
    ∀ nx, (execAssayRegionEnd lane result s) = .next nx → Good pq nx := by
  unfold execAssayRegionEnd
  rintro _ ⟨⟩
  try dsimp only
  iterate 60 all_goals with_reducible first
    | assumption | apply engineGoesOn_good | apply assayEnd_good | apply Try.ok_good | apply Try.exc_good

end Sys2Proof.Machine
end

