-- ==== Sys2Proof/Laws/GoodExecLaw.lean ====
section
/-! SUPPORT. The operations of ExecLaw.lean keep the memories, the reserved bits of the registers, and the queue. -/

namespace Sys2Proof.Machine

theorem tableWrite_good {pq : List Instr} (who : Requester) (a : Nat) (w : Word) {s : State} (hg : Good pq s) :
    Good pq (tableWrite who a w s) := by
  unfold tableWrite
  try dsimp only
  iterate 60 all_goals with_reducible first
    | assumption | apply wordWrite_good | apply good_ite

theorem tableRead_good {pq : List Instr} (who : Requester) (a : Nat) {s : State} (hg : Good pq s) :
    Good pq (tableRead who a s) := by
  unfold tableRead
  try dsimp only
  iterate 60 all_goals with_reducible first
    | assumption | apply wordRead_good | apply State.setHost_good | apply good_ite

theorem execLeDispatch_good {pq : List Instr} (n : Fin 32) (ecc : LawEcc) {s : State} (hg : Good pq s) :
    ∀ nx, (execLeDispatch n ecc s) = .next nx → Good pq nx := by
  unfold execLeDispatch
  rintro _ ⟨⟩
  try dsimp only
  iterate 60 all_goals with_reducible first
    | assumption | apply lawDispatch_good

theorem execLatchApply_good {pq : List Instr} (n : Fin 32) {s : State} (hg : Good pq s) :
    ∀ nx, (execLatchApply n s) = .next nx → Good pq nx := by
  unfold execLatchApply
  rintro _ ⟨⟩
  try dsimp only
  iterate 60 all_goals with_reducible first
    | assumption | apply latchApply_good

theorem execLeEnd_good {pq : List Instr} (n : Fin 32) (ecc : LawEcc) {s : State} (hg : Good pq s) :
    ∀ nx, (execLeEnd n ecc s) = .next nx → Good pq nx := by
  unfold execLeEnd
  rintro _ ⟨⟩
  try dsimp only
  iterate 60 all_goals with_reducible first
    | assumption | intro _ | apply lawEnd_good | apply lawOperation_good

theorem execLeNop_good {pq : List Instr} (n : Fin 32) (ecc : LawEcc) {s : State} (hg : Good pq s) :
    ∀ nx, (execLeNop n ecc s) = .next nx → Good pq nx := by
  unfold execLeNop
  rintro _ ⟨⟩
  try dsimp only
  iterate 60 all_goals with_reducible first
    | assumption | intro _ | apply lawNop_good | apply lawOperation_good

theorem execLeMov_good {pq : List Instr} (n : Fin 32) (ecc : LawEcc) {s : State} (hg : Good pq s) :
    ∀ nx, (execLeMov n ecc s) = .next nx → Good pq nx := by
  unfold execLeMov
  rintro _ ⟨⟩
  try dsimp only
  iterate 60 all_goals with_reducible first
    | assumption | intro _ | apply lawMov_good | apply lawOperation_good

theorem execLeLdi_good {pq : List Instr} (n : Fin 32) (ecc : LawEcc) {s : State} (hg : Good pq s) :
    ∀ nx, (execLeLdi n ecc s) = .next nx → Good pq nx := by
  unfold execLeLdi
  rintro _ ⟨⟩
  try dsimp only
  iterate 60 all_goals with_reducible first
    | assumption | intro _ | apply lawLdi_good | apply lawOperation_good

theorem execLeAdd_good {pq : List Instr} (n : Fin 32) (ecc : LawEcc) {s : State} (hg : Good pq s) :
    ∀ nx, (execLeAdd n ecc s) = .next nx → Good pq nx := by
  unfold execLeAdd
  rintro _ ⟨⟩
  try dsimp only
  iterate 60 all_goals with_reducible first
    | assumption | intro _ | apply lawAdd_good | apply lawOperation_good

theorem execLeSub_good {pq : List Instr} (n : Fin 32) (ecc : LawEcc) {s : State} (hg : Good pq s) :
    ∀ nx, (execLeSub n ecc s) = .next nx → Good pq nx := by
  unfold execLeSub
  rintro _ ⟨⟩
  try dsimp only
  iterate 60 all_goals with_reducible first
    | assumption | intro _ | apply lawSub_good | apply lawOperation_good

theorem execLeNeg_good {pq : List Instr} (n : Fin 32) (ecc : LawEcc) {s : State} (hg : Good pq s) :
    ∀ nx, (execLeNeg n ecc s) = .next nx → Good pq nx := by
  unfold execLeNeg
  rintro _ ⟨⟩
  try dsimp only
  iterate 60 all_goals with_reducible first
    | assumption | intro _ | apply lawNeg_good | apply lawOperation_good

theorem execLeAbs_good {pq : List Instr} (n : Fin 32) (ecc : LawEcc) {s : State} (hg : Good pq s) :
    ∀ nx, (execLeAbs n ecc s) = .next nx → Good pq nx := by
  unfold execLeAbs
  rintro _ ⟨⟩
  try dsimp only
  iterate 60 all_goals with_reducible first
    | assumption | intro _ | apply lawAbs_good | apply lawOperation_good

theorem execLeMin_good {pq : List Instr} (n : Fin 32) (ecc : LawEcc) {s : State} (hg : Good pq s) :
    ∀ nx, (execLeMin n ecc s) = .next nx → Good pq nx := by
  unfold execLeMin
  rintro _ ⟨⟩
  try dsimp only
  iterate 60 all_goals with_reducible first
    | assumption | intro _ | apply lawMin_good | apply lawOperation_good

theorem execLeMax_good {pq : List Instr} (n : Fin 32) (ecc : LawEcc) {s : State} (hg : Good pq s) :
    ∀ nx, (execLeMax n ecc s) = .next nx → Good pq nx := by
  unfold execLeMax
  rintro _ ⟨⟩
  try dsimp only
  iterate 60 all_goals with_reducible first
    | assumption | intro _ | apply lawMax_good | apply lawOperation_good

theorem execLeShl_good {pq : List Instr} (n : Fin 32) (ecc : LawEcc) {s : State} (hg : Good pq s) :
    ∀ nx, (execLeShl n ecc s) = .next nx → Good pq nx := by
  unfold execLeShl
  rintro _ ⟨⟩
  try dsimp only
  iterate 60 all_goals with_reducible first
    | assumption | intro _ | apply lawShl_good | apply lawOperation_good

theorem execLeShr_good {pq : List Instr} (n : Fin 32) (ecc : LawEcc) {s : State} (hg : Good pq s) :
    ∀ nx, (execLeShr n ecc s) = .next nx → Good pq nx := by
  unfold execLeShr
  rintro _ ⟨⟩
  try dsimp only
  iterate 60 all_goals with_reducible first
    | assumption | intro _ | apply lawShr_good | apply lawOperation_good

theorem execLeMul_good {pq : List Instr} (n : Fin 32) (ecc : LawEcc) {s : State} (hg : Good pq s) :
    ∀ nx, (execLeMul n ecc s) = .next nx → Good pq nx := by
  unfold execLeMul
  rintro _ ⟨⟩
  try dsimp only
  iterate 60 all_goals with_reducible first
    | assumption | intro _ | apply lawMul_good | apply lawOperation_good

theorem execLeMac_good {pq : List Instr} (n : Fin 32) (ecc : LawEcc) {s : State} (hg : Good pq s) :
    ∀ nx, (execLeMac n ecc s) = .next nx → Good pq nx := by
  unfold execLeMac
  rintro _ ⟨⟩
  try dsimp only
  iterate 60 all_goals with_reducible first
    | assumption | intro _ | apply lawMac_good | apply lawOperation_good

theorem execLeMsu_good {pq : List Instr} (n : Fin 32) (ecc : LawEcc) {s : State} (hg : Good pq s) :
    ∀ nx, (execLeMsu n ecc s) = .next nx → Good pq nx := by
  unfold execLeMsu
  rintro _ ⟨⟩
  try dsimp only
  iterate 60 all_goals with_reducible first
    | assumption | intro _ | apply lawMsu_good | apply lawOperation_good

theorem execLeLim_good {pq : List Instr} (n : Fin 32) (ecc : LawEcc) {s : State} (hg : Good pq s) :
    ∀ nx, (execLeLim n ecc s) = .next nx → Good pq nx := by
  unfold execLeLim
  rintro _ ⟨⟩
  try dsimp only
  iterate 60 all_goals with_reducible first
    | assumption | intro _ | apply lawLim_good | apply lawOperation_good

theorem execLeChk_good {pq : List Instr} (n : Fin 32) (ecc : LawEcc) {s : State} (hg : Good pq s) :
    ∀ nx, (execLeChk n ecc s) = .next nx → Good pq nx := by
  unfold execLeChk
  rintro _ ⟨⟩
  try dsimp only
  iterate 60 all_goals with_reducible first
    | assumption | intro _ | apply lawChk_good | apply lawOperation_good

theorem execLeTrip_good {pq : List Instr} (n : Fin 32) (ecc : LawEcc) {s : State} (hg : Good pq s) :
    ∀ nx, (execLeTrip n ecc s) = .next nx → Good pq nx := by
  unfold execLeTrip
  rintro _ ⟨⟩
  try dsimp only
  iterate 60 all_goals with_reducible first
    | assumption | intro _ | apply lawTrip_good | apply lawOperation_good

theorem execLeSkip_good {pq : List Instr} (n : Fin 32) (ecc : LawEcc) {s : State} (hg : Good pq s) :
    ∀ nx, (execLeSkip n ecc s) = .next nx → Good pq nx := by
  unfold execLeSkip
  rintro _ ⟨⟩
  try dsimp only
  iterate 60 all_goals with_reducible first
    | assumption | intro _ | apply lawSkip_good | apply lawOperation_good

theorem execLeBr_good {pq : List Instr} (n : Fin 32) (ecc : LawEcc) {s : State} (hg : Good pq s) :
    ∀ nx, (execLeBr n ecc s) = .next nx → Good pq nx := by
  unfold execLeBr
  rintro _ ⟨⟩
  try dsimp only
  iterate 60 all_goals with_reducible first
    | assumption | intro _ | apply lawBr_good | apply lawOperation_good

theorem execLeDjnz_good {pq : List Instr} (n : Fin 32) (ecc : LawEcc) {s : State} (hg : Good pq s) :
    ∀ nx, (execLeDjnz n ecc s) = .next nx → Good pq nx := by
  unfold execLeDjnz
  rintro _ ⟨⟩
  try dsimp only
  iterate 60 all_goals with_reducible first
    | assumption | intro _ | apply lawDjnz_good | apply lawOperation_good

theorem execLeLut_good {pq : List Instr} (n : Fin 32) (ecc : LawEcc) (entry : TableEcc) {s : State} (hg : Good pq s) :
    ∀ nx, (execLeLut n ecc entry s) = .next nx → Good pq nx := by
  unfold execLeLut
  rintro _ ⟨⟩
  try dsimp only
  iterate 60 all_goals with_reducible first
    | assumption | intro _ | apply lookup_good | apply lutServed_good | apply lawOperation_good

theorem execLeLutx_good {pq : List Instr} (n : Fin 32) (ecc : LawEcc) (entry : TableEcc) {s : State} (hg : Good pq s) :
    ∀ nx, (execLeLutx n ecc entry s) = .next nx → Good pq nx := by
  unfold execLeLutx
  rintro _ ⟨⟩
  try dsimp only
  iterate 60 all_goals with_reducible first
    | assumption | intro _ | apply lookup_good | apply lutxServed_good | apply lawOperation_good

theorem execLeSelmin_good {pq : List Instr} (n : Fin 32) (ecc : LawEcc) {s : State} (hg : Good pq s) :
    ∀ nx, (execLeSelmin n ecc s) = .next nx → Good pq nx := by
  unfold execLeSelmin
  rintro _ ⟨⟩
  try dsimp only
  iterate 60 all_goals with_reducible first
    | assumption | intro _ | apply lawSelmin_good | apply lawOperation_good

theorem execLeWdut_good {pq : List Instr} (n : Fin 32) (ecc : LawEcc) {s : State} (hg : Good pq s) :
    ∀ nx, (execLeWdut n ecc s) = .next nx → Good pq nx := by
  unfold execLeWdut
  rintro _ ⟨⟩
  try dsimp only
  iterate 60 all_goals with_reducible first
    | assumption | intro _ | apply lawWdut_good | apply lawOperation_good

theorem execLeOut_good {pq : List Instr} (n : Fin 32) (ecc : LawEcc) {s : State} (hg : Good pq s) :
    ∀ nx, (execLeOut n ecc s) = .next nx → Good pq nx := by
  unfold execLeOut
  rintro _ ⟨⟩
  try dsimp only
  iterate 60 all_goals with_reducible first
    | assumption | intro _ | apply lawOut_good | apply lawOperation_good

theorem execLookupServed_good {pq : List Instr} (p : Fin 4) (entry : TableEcc) {s : State} (hg : Good pq s) :
    ∀ nx, (execLookupServed p entry s) = .next nx → Good pq nx := by
  unfold execLookupServed
  rintro _ ⟨⟩
  try dsimp only
  iterate 60 all_goals with_reducible first
    | assumption | apply lookupServed_good

theorem execStateLoWrite_good {pq : List Instr} (who : Requester) (n : Fin 32) (w : Fin 256) (value : Word) {s : State} (hg : Good pq s) :
    ∀ nx, (execStateLoWrite who n w value s) = .next nx → Good pq nx := by
  unfold execStateLoWrite
  rintro _ ⟨⟩
  try dsimp only
  iterate 60 all_goals with_reducible first
    | assumption | apply commandWrite_good

theorem execStateHiWrite_good {pq : List Instr} (who : Requester) (n : Fin 32) (w : Fin 256) (value : Word) {s : State} (hg : Good pq s) :
    ∀ nx, (execStateHiWrite who n w value s) = .next nx → Good pq nx := by
  unfold execStateHiWrite
  rintro _ ⟨⟩
  try dsimp only
  iterate 60 all_goals with_reducible first
    | assumption | apply commandWrite_good

theorem execStateLoRead_good {pq : List Instr} (who : Requester) (n : Fin 32) (w : Fin 256) {s : State} (hg : Good pq s) :
    ∀ nx, (execStateLoRead who n w s) = .next nx → Good pq nx := by
  unfold execStateLoRead
  rintro _ ⟨⟩
  try dsimp only
  iterate 60 all_goals with_reducible first
    | assumption | apply commandRead_good

theorem execTableLoWrite_good {pq : List Instr} (who : Requester) (entry : Fin 524288) (value : Word) {s : State} (hg : Good pq s) :
    ∀ nx, (execTableLoWrite who entry value s) = .next nx → Good pq nx := by
  unfold execTableLoWrite
  rintro _ ⟨⟩
  try dsimp only
  iterate 60 all_goals with_reducible first
    | assumption | apply tableWrite_good

theorem execTableHiWrite_good {pq : List Instr} (who : Requester) (entry : Fin 524288) (value : Word) {s : State} (hg : Good pq s) :
    ∀ nx, (execTableHiWrite who entry value s) = .next nx → Good pq nx := by
  unfold execTableHiWrite
  rintro _ ⟨⟩
  try dsimp only
  iterate 60 all_goals with_reducible first
    | assumption | apply tableWrite_good

theorem execTableLoRead_good {pq : List Instr} (who : Requester) (entry : Fin 524288) {s : State} (hg : Good pq s) :
    ∀ nx, (execTableLoRead who entry s) = .next nx → Good pq nx := by
  unfold execTableLoRead
  rintro _ ⟨⟩
  try dsimp only
  iterate 60 all_goals with_reducible first
    | assumption | apply tableRead_good

theorem execLeDisable_good {pq : List Instr} (n : Fin 32) {s : State} (hg : Good pq s) :
    ∀ nx, (execLeDisable n s) = .next nx → Good pq nx := by
  unfold execLeDisable
  rintro _ ⟨⟩
  try dsimp only
  iterate 60 all_goals with_reducible first
    | assumption | apply softwareField_good

theorem execLeDisabled_good {pq : List Instr} (n : Fin 32) {s : State} (hg : Good pq s) :
    ∀ nx, (execLeDisabled n s) = .next nx → Good pq nx := by
  unfold execLeDisabled
  rintro _ ⟨⟩
  try dsimp only
  iterate 60 all_goals with_reducible first
    | assumption | apply lawDisabledNow_good

theorem execLeEnable_good {pq : List Instr} (n : Fin 32) {s : State} (hg : Good pq s) :
    ∀ nx, (execLeEnable n s) = .next nx → Good pq nx := by
  unfold execLeEnable
  rintro _ ⟨⟩
  try dsimp only
  iterate 60 all_goals with_reducible first
    | assumption | apply softwareField_good

end Sys2Proof.Machine
end

