-- ==== Sys2Proof/Laws/GoodExecPwm.lean ====
section
/-! SUPPORT. The operations of ExecPwm.lean keep the memories, the reserved bits of the registers, and the queue. -/

namespace Sys2Proof.Machine

theorem shadowWrite_good {pq : List Instr} (source : ShadowSource) {s : State} (hg : Good pq s) :
    Good pq (shadowWrite source s) := by
  unfold shadowWrite
  try dsimp only
  iterate 60 all_goals with_reducible first
    | assumption | apply softwareWrite_good | apply store_good | apply tokenAccept_good | apply lawShadowLand_good
    | apply good_ite | split

theorem execPeriodBoundary_good {pq : List Instr} (g : Fin 48) {s : State} (hg : Good pq s) :
    ∀ nx, (execPeriodBoundary g s) = .next nx → Good pq nx := by
  unfold execPeriodBoundary
  rintro _ ⟨⟩
  try dsimp only
  iterate 60 all_goals with_reducible first
    | assumption | apply periodBoundary_good

theorem execPulseCommanded_good {pq : List Instr} (o : Fin 192) {s : State} (hg : Good pq s) :
    ∀ nx, (execPulseCommanded o s) = .next nx → Good pq nx := by
  unfold execPulseCommanded
  rintro _ ⟨⟩
  try dsimp only
  iterate 60 all_goals with_reducible first
    | assumption | apply pulseCommanded_good

theorem execPulseEnd_good {pq : List Instr} (o : Fin 192) {s : State} (hg : Good pq s) :
    ∀ nx, (execPulseEnd o s) = .next nx → Good pq nx := by
  unfold execPulseEnd
  rintro _ ⟨⟩
  try dsimp only
  iterate 60 all_goals with_reducible first
    | assumption | apply pulseEnd_good

theorem execShadowWrite_good {pq : List Instr} (source : ShadowSource) {s : State} (hg : Good pq s) :
    ∀ nx, (execShadowWrite source s) = .next nx → Good pq nx := by
  unfold execShadowWrite
  rintro _ ⟨⟩
  try dsimp only
  iterate 60 all_goals with_reducible first
    | assumption | apply shadowWrite_good

theorem execShadowTransfer_good {pq : List Instr} (g : Fin 48) (kind : TransferKind) {s : State} (hg : Good pq s) :
    ∀ nx, (execShadowTransfer g kind s) = .next nx → Good pq nx := by
  unfold execShadowTransfer
  rintro _ ⟨⟩
  try dsimp only
  iterate 60 all_goals with_reducible first
    | assumption | apply shadowTransfer_good

theorem execDelayRetrim_good {pq : List Instr} (rangeEnd : Bool) {s : State} (hg : Good pq s) :
    ∀ nx, (execDelayRetrim rangeEnd s) = .next nx → Good pq nx := by
  unfold execDelayRetrim
  rintro _ ⟨⟩
  try dsimp only
  iterate 60 all_goals with_reducible first
    | assumption | apply delayRetrim_good

theorem execPgDisable_good {pq : List Instr} (g : Fin 48) {s : State} (hg : Good pq s) :
    ∀ nx, (execPgDisable g s) = .next nx → Good pq nx := by
  unfold execPgDisable
  rintro _ ⟨⟩
  try dsimp only
  iterate 60 all_goals with_reducible first
    | assumption | apply softwareField_good

theorem execStopBoundary_good {pq : List Instr} (g : Fin 48) {s : State} (hg : Good pq s) :
    ∀ nx, (execStopBoundary g s) = .next nx → Good pq nx := by
  unfold execStopBoundary
  rintro _ ⟨⟩
  try dsimp only
  iterate 60 all_goals with_reducible first
    | assumption | apply stopBoundary_good

theorem execPgEnable_good {pq : List Instr} (g : Fin 48) {s : State} (hg : Good pq s) :
    ∀ nx, (execPgEnable g s) = .next nx → Good pq nx := by
  unfold execPgEnable
  rintro _ ⟨⟩
  try dsimp only
  iterate 60 all_goals with_reducible first
    | assumption | apply softwareField_good

theorem execAccSnap_good {pq : List Instr} (g : Fin 48) {s : State} (hg : Good pq s) :
    ∀ nx, (execAccSnap g s) = .next nx → Good pq nx := by
  unfold execAccSnap
  rintro _ ⟨⟩
  try dsimp only
  iterate 60 all_goals with_reducible first
    | assumption | apply softwareField_good

end Sys2Proof.Machine
end

