-- ==== Sys2Proof/Laws/GoodExecRunner.lean ====
section
/-! SUPPORT. The operations of ExecRunner.lean keep the memories, the reserved bits of the registers, and the queue. -/

namespace Sys2Proof.Machine

theorem execTokenIssue_good {pq : List Instr} (endpoint : BitVec 10) {s : State} (hg : Good pq s) :
    ∀ nx, (execTokenIssue endpoint s) = .next nx → Good pq nx := by
  unfold execTokenIssue
  rintro _ ⟨⟩
  try dsimp only
  iterate 60 all_goals with_reducible first
    | assumption | apply tokenIssue_good

theorem execTokenAccept_good {pq : List Instr} (endpoint : BitVec 10) {s : State} (hg : Good pq s) :
    ∀ nx, (execTokenAccept endpoint s) = .next nx → Good pq nx := by
  unfold execTokenAccept
  rintro _ ⟨⟩
  try dsimp only
  iterate 60 all_goals with_reducible first
    | assumption | apply tokenAccept_good

theorem execChannelDisable_good {pq : List Instr} (n : Fin 256) {s : State} (hg : Good pq s) :
    ∀ nx, (execChannelDisable n s) = .next nx → Good pq nx := by
  unfold execChannelDisable
  rintro _ ⟨⟩
  try dsimp only
  iterate 60 all_goals with_reducible first
    | assumption | apply softwareField_good

theorem execChannelDisabled_good {pq : List Instr} (n : Fin 256) {s : State} (hg : Good pq s) :
    ∀ nx, (execChannelDisabled n s) = .next nx → Good pq nx := by
  unfold execChannelDisabled
  rintro _ ⟨⟩
  try dsimp only
  iterate 60 all_goals with_reducible first
    | assumption | apply channelDisabled_good

theorem execChannelEnable_good {pq : List Instr} (n : Fin 256) {s : State} (hg : Good pq s) :
    ∀ nx, (execChannelEnable n s) = .next nx → Good pq nx := by
  unfold execChannelEnable
  rintro _ ⟨⟩
  try dsimp only
  iterate 60 all_goals with_reducible first
    | assumption | apply softwareField_good

theorem execAuditSnap_good {pq : List Instr} {s : State} (hg : Good pq s) :
    ∀ nx, (execAuditSnap s) = .next nx → Good pq nx := by
  unfold execAuditSnap
  rintro _ ⟨⟩
  try dsimp only
  iterate 60 all_goals with_reducible first
    | assumption | apply softwareField_good

theorem execHwmClr_good {pq : List Instr} {s : State} (hg : Good pq s) :
    ∀ nx, (execHwmClr s) = .next nx → Good pq nx := by
  unfold execHwmClr
  rintro _ ⟨⟩
  try dsimp only
  iterate 60 all_goals with_reducible first
    | assumption | apply softwareField_good

theorem execHeatStart_good {pq : List Instr} {s : State} (hg : Good pq s) :
    ∀ nx, (execHeatStart s) = .next nx → Good pq nx := by
  unfold execHeatStart
  rintro _ ⟨⟩
  try dsimp only
  iterate 60 all_goals with_reducible first
    | assumption | apply heatStart_good

theorem execTimeLoRead_good {pq : List Instr} (who : Requester) {s : State} (hg : Good pq s) :
    ∀ nx, (execTimeLoRead who s) = .next nx → Good pq nx := by
  unfold execTimeLoRead
  rintro _ ⟨⟩
  try dsimp only
  iterate 60 all_goals with_reducible first
    | assumption | apply commandRead_good

theorem execPushLo_good {pq : List Instr} (c : Fin 16) (value : Word) {s : State} (hg : Good pq s) :
    ∀ nx, (execPushLo c value s) = .next nx → Good pq nx := by
  unfold execPushLo
  rintro _ ⟨⟩
  try dsimp only
  iterate 60 all_goals with_reducible first
    | assumption | apply coreWrite_good

theorem execPushHi_good {pq : List Instr} (c : Fin 16) (q : Fin 4) (value : Word) {s : State} (hg : Good pq s) :
    ∀ nx, (execPushHi c q value s) = .next nx → Good pq nx := by
  unfold execPushHi
  rintro _ ⟨⟩
  try dsimp only
  iterate 60 all_goals with_reducible first
    | assumption | apply coreWrite_good

theorem execSnapLoRead_good {pq : List Instr} (who : Requester) (k : Fin 128) {s : State} (hg : Good pq s) :
    ∀ nx, (execSnapLoRead who k s) = .next nx → Good pq nx := by
  unfold execSnapLoRead
  rintro _ ⟨⟩
  try dsimp only
  iterate 60 all_goals with_reducible first
    | assumption | apply commandRead_good

end Sys2Proof.Machine
end

