-- ==== Sys2Proof/Laws/GoodExecSupply.lean ====
section
/-! SUPPORT. The operations of ExecSupply.lean keep the memories, the reserved bits of the registers, and the queue. -/

namespace Sys2Proof.Machine

theorem execRegisterWrite_good {pq : List Instr} (who : Requester) (addr : Nat) (value : Word) {s : State} (hg : Good pq s) :
    ∀ nx, (execRegisterWrite who addr value s) = .next nx → Good pq nx := by
  unfold execRegisterWrite
  rintro _ ⟨⟩
  try dsimp only
  iterate 60 all_goals with_reducible first
    | assumption | intro _ | apply State.latching_good | apply commandWrite_good

theorem execVinRise_good {pq : List Instr} (straps : BitVec 12) {s : State} (hg : Good pq s) :
    ∀ nx, (execVinRise straps s) = .next nx → Good pq nx := by
  unfold execVinRise
  rintro _ ⟨⟩
  try dsimp only
  iterate 60 all_goals with_reducible first
    | assumption | apply vinRise_good

theorem execPowerGood_good {pq : List Instr} (report : PowerReport) {s : State} (hg : Good pq s) :
    ∀ nx, (execPowerGood report s) = .next nx → Good pq nx := by
  unfold execPowerGood
  rintro _ ⟨⟩
  try dsimp only
  iterate 60 all_goals with_reducible first
    | assumption | apply powerGood_good

theorem execVinLoss_good {pq : List Instr} (high : Bool) {s : State} (hg : Good pq s) :
    ∀ nx, (execVinLoss high s) = .next nx → Good pq nx := by
  unfold execVinLoss
  rintro _ ⟨⟩
  try dsimp only
  iterate 60 all_goals with_reducible first
    | assumption | apply vinLoss_good

theorem execVmidClamp_good {pq : List Instr} {s : State} (hg : Good pq s) :
    ∀ nx, (execVmidClamp s) = .next nx → Good pq nx := by
  unfold execVmidClamp
  rintro _ ⟨⟩
  try dsimp only
  iterate 60 all_goals with_reducible first
    | assumption | apply vmidClamp_good

theorem execVinOvervoltageEnd_good {pq : List Instr} {s : State} (hg : Good pq s) :
    ∀ nx, (execVinOvervoltageEnd s) = .next nx → Good pq nx := by
  unfold execVinOvervoltageEnd
  rintro _ ⟨⟩
  try dsimp only
  iterate 60 all_goals with_reducible first
    | assumption | apply vinOvervoltageEnd_good

theorem execDischargeComplete_good {pq : List Instr} {s : State} (hg : Good pq s) :
    ∀ nx, (execDischargeComplete s) = .next nx → Good pq nx := by
  unfold execDischargeComplete
  rintro _ ⟨⟩
  try dsimp only
  iterate 60 all_goals with_reducible first
    | assumption | apply dischargeComplete_good

theorem execHoldingCauseEnd_good {pq : List Instr} (cause : HoldCause) {s : State} (hg : Good pq s) :
    ∀ nx, (execHoldingCauseEnd cause s) = .next nx → Good pq nx := by
  unfold execHoldingCauseEnd
  rintro _ ⟨⟩
  try dsimp only
  iterate 60 all_goals with_reducible first
    | assumption | apply holdingCauseEnd_good

theorem execCurrentLimitChange_good {pq : List Instr} (ball : Nat) (limited : Bool) (elapsed : Nat) {s : State} (hg : Good pq s) :
    ∀ nx, (execCurrentLimitChange ball limited elapsed s) = .next nx → Good pq nx := by
  unfold execCurrentLimitChange
  rintro _ ⟨⟩
  try dsimp only
  iterate 60 all_goals with_reducible first
    | assumption | apply currentLimitChange_good

theorem execCurrentLimitTrip_good {pq : List Instr} (ball : Nat) (elapsed : Nat) {s : State} (hg : Good pq s) :
    ∀ nx, (execCurrentLimitTrip ball elapsed s) = .next nx → Good pq nx := by
  unfold execCurrentLimitTrip
  rintro _ ⟨⟩
  try dsimp only
  iterate 60 all_goals with_reducible first
    | assumption | apply currentLimitTrip_good

theorem execLimitTimeClear_good {pq : List Instr} (ball : Nat) {s : State} (hg : Good pq s) :
    ∀ nx, (execLimitTimeClear ball s) = .next nx → Good pq nx := by
  unfold execLimitTimeClear
  rintro _ ⟨⟩
  try dsimp only
  iterate 60 all_goals with_reducible first
    | assumption | apply limitTimeClear_good

theorem execIoFaultClear_good {pq : List Instr} (who : Requester) {s : State} (hg : Good pq s) :
    ∀ nx, (execIoFaultClear who s) = .next nx → Good pq nx := by
  unfold execIoFaultClear
  rintro _ ⟨⟩
  try dsimp only
  iterate 60 all_goals with_reducible first
    | assumption | intro _ | apply State.latching_good | apply commandField_good

theorem execPowerAverage_good {pq : List Instr} (vin : BitVec 12) (power : BitVec 12) {s : State} (hg : Good pq s) :
    ∀ nx, (execPowerAverage vin power s) = .next nx → Good pq nx := by
  unfold execPowerAverage
  rintro _ ⟨⟩
  try dsimp only
  iterate 60 all_goals with_reducible first
    | assumption | apply powerAverage_good

theorem execThermalScan_good {pq : List Instr} (raws : List (BitVec 24)) {s : State} (hg : Good pq s) :
    ∀ nx, (execThermalScan raws s) = .next nx → Good pq nx := by
  unfold execThermalScan
  rintro _ ⟨⟩
  try dsimp only
  iterate 60 all_goals with_reducible first
    | assumption | apply thermalScan_good

theorem execThermalTrip_good {pq : List Instr} {s : State} (hg : Good pq s) :
    ∀ nx, (execThermalTrip s) = .next nx → Good pq nx := by
  unfold execThermalTrip
  rintro _ ⟨⟩
  try dsimp only
  iterate 60 all_goals with_reducible first
    | assumption | apply thermalTrip_good

theorem execSleepEntry_good {pq : List Instr} {s : State} (hg : Good pq s) :
    ∀ nx, (execSleepEntry s) = .next nx → Good pq nx := by
  unfold execSleepEntry
  rintro _ ⟨⟩
  try dsimp only
  iterate 60 all_goals with_reducible first
    | assumption | apply sleepEntry_good

theorem execEntryComplete_good {pq : List Instr} {s : State} (hg : Good pq s) :
    ∀ nx, (execEntryComplete s) = .next nx → Good pq nx := by
  unfold execEntryComplete
  rintro _ ⟨⟩
  try dsimp only
  iterate 60 all_goals with_reducible first
    | assumption | apply entryComplete_good

theorem execWakeEvent_good {pq : List Instr} (cause : WakeCause) (report : BootReport) {s : State} (hg : Good pq s) :
    ∀ nx, (execWakeEvent cause report s) = .next nx → Good pq nx := by
  unfold execWakeEvent
  rintro _ ⟨⟩
  try dsimp only
  iterate 60 all_goals with_reducible first
    | assumption | apply wakeEvent_good

theorem execAlarmExpiry_good {pq : List Instr} (report : BootReport) {s : State} (hg : Good pq s) :
    ∀ nx, (execAlarmExpiry report s) = .next nx → Good pq nx := by
  unfold execAlarmExpiry
  rintro _ ⟨⟩
  try dsimp only
  iterate 60 all_goals with_reducible first
    | assumption | apply alarmExpiry_good

theorem execClockLoss_good {pq : List Instr} (refclk : Bool) {s : State} (hg : Good pq s) :
    ∀ nx, (execClockLoss refclk s) = .next nx → Good pq nx := by
  unfold execClockLoss
  rintro _ ⟨⟩
  try dsimp only
  iterate 60 all_goals with_reducible first
    | assumption | apply clockLoss_good

theorem execResetPin_good {pq : List Instr} {s : State} (hg : Good pq s) :
    ∀ nx, (execResetPin s) = .next nx → Good pq nx := by
  unfold execResetPin
  rintro _ ⟨⟩
  try dsimp only
  iterate 60 all_goals with_reducible first
    | assumption | apply resetPin_good

theorem execResetPinRelease_good {pq : List Instr} {s : State} (hg : Good pq s) :
    ∀ nx, (execResetPinRelease s) = .next nx → Good pq nx := by
  unfold execResetPinRelease
  rintro _ ⟨⟩
  try dsimp only
  iterate 60 all_goals with_reducible first
    | assumption | apply resetPinRelease_good

theorem execSoftReset_good {pq : List Instr} (who : Requester) {s : State} (hg : Good pq s) :
    ∀ nx, (execSoftReset who s) = .next nx → Good pq nx := by
  unfold execSoftReset
  rintro _ ⟨⟩
  try dsimp only
  iterate 60 all_goals with_reducible first
    | assumption | apply commandWrite_good

theorem execWdogEnable_good {pq : List Instr} (who : Requester) (timeout : BitVec 24) {s : State} (hg : Good pq s) :
    ∀ nx, (execWdogEnable who timeout s) = .next nx → Good pq nx := by
  unfold execWdogEnable
  rintro _ ⟨⟩
  try dsimp only
  iterate 60 all_goals with_reducible first
    | assumption | apply commandWrite_good

theorem execWdogKick_good {pq : List Instr} (who : Requester) {s : State} (hg : Good pq s) :
    ∀ nx, (execWdogKick who s) = .next nx → Good pq nx := by
  unfold execWdogKick
  rintro _ ⟨⟩
  try dsimp only
  iterate 60 all_goals with_reducible first
    | assumption | apply commandWrite_good

theorem execWdogExpiry_good {pq : List Instr} {s : State} (hg : Good pq s) :
    ∀ nx, (execWdogExpiry s) = .next nx → Good pq nx := by
  unfold execWdogExpiry
  rintro _ ⟨⟩
  try dsimp only
  iterate 60 all_goals with_reducible first
    | assumption | apply wdogExpiry_good

theorem execRelease_good {pq : List Instr} (who : Requester) {s : State} (hg : Good pq s) :
    ∀ nx, (execRelease who s) = .next nx → Good pq nx := by
  unfold execRelease
  rintro _ ⟨⟩
  try dsimp only
  iterate 60 all_goals with_reducible first
    | assumption | apply commandField_good

theorem execCoreStart_good {pq : List Instr} (who : Requester) (cores : BitVec 16) {s : State} (hg : Good pq s) :
    ∀ nx, (execCoreStart who cores s) = .next nx → Good pq nx := by
  unfold execCoreStart
  rintro _ ⟨⟩
  try dsimp only
  iterate 60 all_goals with_reducible first
    | assumption | apply commandField_good

end Sys2Proof.Machine
end

