-- ==== Sys2Proof/Laws/GoodExecSystem.lean ====
section
/-! SUPPORT. The operations of ExecSystem.lean keep the memories, the reserved bits of the registers, and the queue. -/

namespace Sys2Proof.Machine

theorem execSwiSet_good {pq : List Instr} (who : Requester) (k : Fin 4) (bits : Word) {s : State} (hg : Good pq s) :
    ∀ nx, (execSwiSet who k bits s) = .next nx → Good pq nx := by
  unfold execSwiSet
  rintro _ ⟨⟩
  try dsimp only
  iterate 60 all_goals with_reducible first
    | assumption | apply commandWrite_good

theorem execSwiClr_good {pq : List Instr} (who : Requester) (k : Fin 4) (bits : Word) {s : State} (hg : Good pq s) :
    ∀ nx, (execSwiClr who k bits s) = .next nx → Good pq nx := by
  unfold execSwiClr
  rintro _ ⟨⟩
  try dsimp only
  iterate 60 all_goals with_reducible first
    | assumption | intro _ | apply State.latching_good | apply commandWrite_good

theorem execLadleGo_good {pq : List Instr} (who : Requester) (n : Fin 8) {s : State} (hg : Good pq s) :
    ∀ nx, (execLadleGo who n s) = .next nx → Good pq nx := by
  unfold execLadleGo
  rintro _ ⟨⟩
  try dsimp only
  iterate 60 all_goals with_reducible first
    | assumption | apply commandField_good

theorem execLadleUnit_good {pq : List Instr} (n : Fin 8) (ecc : WordEcc) {s : State} (hg : Good pq s) :
    ∀ nx, (execLadleUnit n ecc s) = .next nx → Good pq nx := by
  unfold execLadleUnit
  rintro _ ⟨⟩
  try dsimp only
  iterate 60 all_goals with_reducible first
    | assumption | apply ladleUnit_good

theorem execLadleEnable_good {pq : List Instr} (n : Fin 8) {s : State} (hg : Good pq s) :
    ∀ nx, (execLadleEnable n s) = .next nx → Good pq nx := by
  unfold execLadleEnable
  rintro _ ⟨⟩
  try dsimp only
  iterate 60 all_goals with_reducible first
    | assumption | apply softwareField_good

theorem execLadleDisable_good {pq : List Instr} (n : Fin 8) {s : State} (hg : Good pq s) :
    ∀ nx, (execLadleDisable n s) = .next nx → Good pq nx := by
  unfold execLadleDisable
  rintro _ ⟨⟩
  try dsimp only
  iterate 60 all_goals with_reducible first
    | assumption | apply softwareField_good

theorem execLadleFaultClear_good {pq : List Instr} (n : Fin 8) {s : State} (hg : Good pq s) :
    ∀ nx, (execLadleFaultClear n s) = .next nx → Good pq nx := by
  unfold execLadleFaultClear
  rintro _ ⟨⟩
  try dsimp only
  iterate 60 all_goals with_reducible first
    | assumption | intro _ | apply softwareField_good | apply State.latching_good | apply Try.ok_good
    | apply Try.exc_good

theorem execScrub_good {pq : List Instr} (addr : Nat) (ecc : ScrubReport) {s : State} (hg : Good pq s) :
    ∀ nx, (execScrub addr ecc s) = .next nx → Good pq nx := by
  unfold execScrub
  rintro _ ⟨⟩
  try dsimp only
  iterate 60 all_goals with_reducible first
    | assumption | apply scrub_good | apply Try.ok_good | apply Try.exc_good

theorem execMemoryFillDone_good {pq : List Instr} (dram : Bool) {s : State} (hg : Good pq s) :
    ∀ nx, (execMemoryFillDone dram s) = .next nx → Good pq nx := by
  unfold execMemoryFillDone
  rintro _ ⟨⟩
  try dsimp only
  iterate 60 all_goals with_reducible first
    | assumption | apply memoryFillDone_good

theorem execGpioLevelChange_good {pq : List Instr} (n : Fin 114) (change : BallChange) {s : State} (hg : Good pq s) :
    ∀ nx, (execGpioLevelChange n change s) = .next nx → Good pq nx := by
  unfold execGpioLevelChange
  rintro _ ⟨⟩
  try dsimp only
  iterate 60 all_goals with_reducible first
    | assumption | apply gpioLevelChange_good | apply Try.ok_good | apply Try.exc_good

theorem execDebugHalt_good {pq : List Instr} (c : Fin 16) {s : State} (hg : Good pq s) :
    ∀ nx, (execDebugHalt c s) = .next nx → Good pq nx := by
  unfold execDebugHalt
  rintro _ ⟨⟩
  try dsimp only
  iterate 60 all_goals with_reducible first
    | assumption | apply debugHalt_good

theorem execDebugStep_good {pq : List Instr} (c : Fin 16) {s : State} (hg : Good pq s) :
    ∀ nx, (execDebugStep c s) = .next nx → Good pq nx := by
  unfold execDebugStep
  rintro _ ⟨⟩
  try dsimp only
  iterate 60 all_goals with_reducible first
    | assumption | apply debugStep_good

theorem execDebugResume_good {pq : List Instr} (c : Fin 16) {s : State} (hg : Good pq s) :
    ∀ nx, (execDebugResume c s) = .next nx → Good pq nx := by
  unfold execDebugResume
  rintro _ ⟨⟩
  try dsimp only
  iterate 60 all_goals with_reducible first
    | assumption | apply debugResume_good

theorem execDebugRegisterWrite_good {pq : List Instr} (c : Fin 16) (reg : DebugReg) (value : Cell) {s : State} (hg : Good pq s) :
    ∀ nx, (execDebugRegisterWrite c reg value s) = .next nx → Good pq nx := by
  unfold execDebugRegisterWrite
  rintro _ ⟨⟩
  try dsimp only
  iterate 60 all_goals with_reducible first
    | assumption | apply debugRegisterWrite_good

end Sys2Proof.Machine
end

