-- ==== Sys2Proof/Laws/GoodExecTwiast.lean ====
section
/-! SUPPORT. The operations of ExecTwiast.lean keep the memories, the reserved bits of the registers, and the queue. -/

namespace Sys2Proof.Machine

theorem execIdleFlit_good {pq : List Instr} (p : Fin 4) (flit : FlitWord) {s : State} (hg : Good pq s) :
    ∀ nx, (execIdleFlit p flit s) = .next nx → Good pq nx := by
  unfold execIdleFlit
  rintro _ ⟨⟩
  try dsimp only
  iterate 60 all_goals with_reducible first
    | assumption | intro _ | apply receive_good | apply Try.ok_good | apply Try.exc_good | apply good_id

theorem execTokenFlit_good {pq : List Instr} (p : Fin 4) (flit : FlitWord) {s : State} (hg : Good pq s) :
    ∀ nx, (execTokenFlit p flit s) = .next nx → Good pq nx := by
  unfold execTokenFlit
  rintro _ ⟨⟩
  try dsimp only
  iterate 60 all_goals with_reducible first
    | assumption | intro _ | apply receiveToken_good | apply receive_good

theorem execLinkFlit_good {pq : List Instr} (p : Fin 4) (flit : FlitWord) {s : State} (hg : Good pq s) :
    ∀ nx, (execLinkFlit p flit s) = .next nx → Good pq nx := by
  unfold execLinkFlit
  rintro _ ⟨⟩
  try dsimp only
  iterate 60 all_goals with_reducible first
    | assumption | intro _ | apply receiveLink_good | apply receive_good

theorem execTimeReq_good {pq : List Instr} (p : Fin 4) (flit : FlitWord) (arrived : Stamp) (answered : Stamp) {s : State} (hg : Good pq s) :
    ∀ nx, (execTimeReq p flit arrived answered s) = .next nx → Good pq nx := by
  unfold execTimeReq
  rintro _ ⟨⟩
  try dsimp only
  iterate 60 all_goals with_reducible first
    | assumption | intro _ | apply receiveReq_good | apply receive_good

theorem execTimeResp_good {pq : List Instr} (p : Fin 4) (flit : FlitWord) (arrived : Stamp) {s : State} (hg : Good pq s) :
    ∀ nx, (execTimeResp p flit arrived s) = .next nx → Good pq nx := by
  unfold execTimeResp
  rintro _ ⟨⟩
  try dsimp only
  iterate 60 all_goals with_reducible first
    | assumption | intro _ | apply receiveResp_good | apply receive_good

theorem execHeatFlit_good {pq : List Instr} (p : Fin 4) (flit : FlitWord) {s : State} (hg : Good pq s) :
    ∀ nx, (execHeatFlit p flit s) = .next nx → Good pq nx := by
  unfold execHeatFlit
  rintro _ ⟨⟩
  try dsimp only
  iterate 60 all_goals with_reducible first
    | assumption | intro _ | apply receiveHeat_good | apply receive_good

theorem execAuditFlit_good {pq : List Instr} (p : Fin 4) (flit : FlitWord) {s : State} (hg : Good pq s) :
    ∀ nx, (execAuditFlit p flit s) = .next nx → Good pq nx := by
  unfold execAuditFlit
  rintro _ ⟨⟩
  try dsimp only
  iterate 60 all_goals with_reducible first
    | assumption | intro _ | apply receiveAudit_good | apply receive_good

theorem execInitFlit_good {pq : List Instr} (p : Fin 4) (flit : FlitWord) {s : State} (hg : Good pq s) :
    ∀ nx, (execInitFlit p flit s) = .next nx → Good pq nx := by
  unfold execInitFlit
  rintro _ ⟨⟩
  try dsimp only
  iterate 60 all_goals with_reducible first
    | assumption | intro _ | apply receiveInit_good | apply receive_good

theorem execAlignFlit_good {pq : List Instr} (p : Fin 4) (flit : FlitWord) {s : State} (hg : Good pq s) :
    ∀ nx, (execAlignFlit p flit s) = .next nx → Good pq nx := by
  unfold execAlignFlit
  rintro _ ⟨⟩
  try dsimp only
  iterate 60 all_goals with_reducible first
    | assumption | intro _ | apply receive_good | apply Try.ok_good | apply Try.exc_good | apply good_id

theorem execFlitTransmit_good {pq : List Instr} (p : Fin 4) (due : Option ControlDue) {s : State} (hg : Good pq s) :
    ∀ nx, (execFlitTransmit p due s) = .next nx → Good pq nx := by
  unfold execFlitTransmit
  rintro _ ⟨⟩
  try dsimp only
  iterate 60 all_goals with_reducible first
    | assumption | apply flitTransmit_good

theorem execRetryTimeout_good {pq : List Instr} (p : Fin 4) {s : State} (hg : Good pq s) :
    ∀ nx, (execRetryTimeout p s) = .next nx → Good pq nx := by
  unfold execRetryTimeout
  rintro _ ⟨⟩
  try dsimp only
  iterate 60 all_goals with_reducible first
    | assumption | apply retryTimeout_good

theorem execLanesAdapted_good {pq : List Instr} (p : Fin 4) {s : State} (hg : Good pq s) :
    ∀ nx, (execLanesAdapted p s) = .next nx → Good pq nx := by
  unfold execLanesAdapted
  rintro _ ⟨⟩
  try dsimp only
  iterate 60 all_goals with_reducible first
    | assumption | apply linkStep_good

theorem execBlockLock_good {pq : List Instr} (p : Fin 4) {s : State} (hg : Good pq s) :
    ∀ nx, (execBlockLock p s) = .next nx → Good pq nx := by
  unfold execBlockLock
  rintro _ ⟨⟩
  try dsimp only
  iterate 60 all_goals with_reducible first
    | assumption | apply linkStep_good

theorem execBringUpTimeout_good {pq : List Instr} (p : Fin 4) {s : State} (hg : Good pq s) :
    ∀ nx, (execBringUpTimeout p s) = .next nx → Good pq nx := by
  unfold execBringUpTimeout
  rintro _ ⟨⟩
  try dsimp only
  iterate 60 all_goals with_reducible first
    | assumption | apply bringUpTimeout_good

theorem execLinkLoss_good {pq : List Instr} (p : Fin 4) {s : State} (hg : Good pq s) :
    ∀ nx, (execLinkLoss p s) = .next nx → Good pq nx := by
  unfold execLinkLoss
  rintro _ ⟨⟩
  try dsimp only
  iterate 60 all_goals with_reducible first
    | assumption | apply linkLoss_good

theorem execDownTimerEnd_good {pq : List Instr} (p : Fin 4) {s : State} (hg : Good pq s) :
    ∀ nx, (execDownTimerEnd p s) = .next nx → Good pq nx := by
  unfold execDownTimerEnd
  rintro _ ⟨⟩
  try dsimp only
  iterate 60 all_goals with_reducible first
    | assumption | apply linkStep_good

theorem execPortEnable_good {pq : List Instr} (p : Fin 4) {s : State} (hg : Good pq s) :
    ∀ nx, (execPortEnable p s) = .next nx → Good pq nx := by
  unfold execPortEnable
  rintro _ ⟨⟩
  try dsimp only
  iterate 60 all_goals with_reducible first
    | assumption | apply softwareField_good

theorem execPortDisable_good {pq : List Instr} (p : Fin 4) {s : State} (hg : Good pq s) :
    ∀ nx, (execPortDisable p s) = .next nx → Good pq nx := by
  unfold execPortDisable
  rintro _ ⟨⟩
  try dsimp only
  iterate 60 all_goals with_reducible first
    | assumption | apply softwareField_good

theorem execPortDisabled_good {pq : List Instr} (p : Fin 4) {s : State} (hg : Good pq s) :
    ∀ nx, (execPortDisabled p s) = .next nx → Good pq nx := by
  unfold execPortDisabled
  rintro _ ⟨⟩
  try dsimp only
  iterate 60 all_goals with_reducible first
    | assumption | apply portDisabled_good

theorem execDeadClear_good {pq : List Instr} (p : Fin 4) {s : State} (hg : Good pq s) :
    ∀ nx, (execDeadClear p s) = .next nx → Good pq nx := by
  unfold execDeadClear
  rintro _ ⟨⟩
  try dsimp only
  iterate 60 all_goals with_reducible first
    | assumption | apply softwareField_good

theorem execTwAuditSnap_good {pq : List Instr} (p : Fin 4) {s : State} (hg : Good pq s) :
    ∀ nx, (execTwAuditSnap p s) = .next nx → Good pq nx := by
  unfold execTwAuditSnap
  rintro _ ⟨⟩
  try dsimp only
  iterate 60 all_goals with_reducible first
    | assumption | apply softwareField_good

theorem execTimeExchange_good {pq : List Instr} (sent : Stamp) {s : State} (hg : Good pq s) :
    ∀ nx, (execTimeExchange sent s) = .next nx → Good pq nx := by
  unfold execTimeExchange
  rintro _ ⟨⟩
  try dsimp only
  iterate 60 all_goals with_reducible first
    | assumption | apply timeExchange_good

theorem execTimeLost_good {pq : List Instr} {s : State} (hg : Good pq s) :
    ∀ nx, (execTimeLost s) = .next nx → Good pq nx := by
  unfold execTimeLost
  rintro _ ⟨⟩
  try dsimp only
  iterate 60 all_goals with_reducible first
    | assumption | apply timeLost_good

theorem execHeatIssue_good {pq : List Instr} (who : Requester) {s : State} (hg : Good pq s) :
    ∀ nx, (execHeatIssue who s) = .next nx → Good pq nx := by
  unfold execHeatIssue
  rintro _ ⟨⟩
  try dsimp only
  iterate 60 all_goals with_reducible first
    | assumption | apply commandField_good

theorem execHeatRepeat_good {pq : List Instr} {s : State} (hg : Good pq s) :
    ∀ nx, (execHeatRepeat s) = .next nx → Good pq nx := by
  unfold execHeatRepeat
  rintro _ ⟨⟩
  try dsimp only
  iterate 60 all_goals with_reducible first
    | assumption | apply heatRepeat_good

theorem execHeatForget_good {pq : List Instr} (who : Requester) {s : State} (hg : Good pq s) :
    ∀ nx, (execHeatForget who s) = .next nx → Good pq nx := by
  unfold execHeatForget
  rintro _ ⟨⟩
  try dsimp only
  iterate 60 all_goals with_reducible first
    | assumption | apply commandField_good

end Sys2Proof.Machine
end

