-- ==== Sys2Proof/Laws/Instr.lean ====
section
/-! SUPPORT. What the shared forms of a core's instructions do when the core runs them at once: fetching, preparing a stack,
and completing. -/

namespace Sys2Proof.Machine

/-! ### The core of a state -/

@[simp] theorem core_setCore (s : State) (c : Nat) (k : Core) : (s.setCore c k).core c = k :=
  mapGet_mapInsert_self _ _ _ _

theorem core_setCore_of_ne (s : State) {c d : Nat} (k : Core) (h : d ≠ c) : (s.setCore c k).core d = s.core d :=
  mapGet_mapInsert_of_ne _ _ _ h

theorem mapInsert_twice {α : Type} (m : SMap α) (k : Nat) (v w : α) : mapInsert (mapInsert m k v) k w = mapInsert m k w := by
  induction m with
  | nil => simp [mapInsert]
  | cons p t ih =>
    by_cases h : p.1 = k
    · simp [mapInsert, h]
    · by_cases l : k < p.1
      · simp [mapInsert, h, l]
      · simp [mapInsert, h, l, ih]

/-- Only the last core written counts. -/
@[simp] theorem setCore_setCore (s : State) (c : Nat) (k l : Core) : (s.setCore c k).setCore c l = s.setCore c l := by
  simp only [State.setCore, mapInsert_twice]

@[simp] theorem stack_setCore (s : State) (c : Nat) (k : Core) (i : StackId) : (s.setCore c k).stack c i = k.stack i := by
  simp [State.stack]

@[simp] theorem Core.stack_setStack (k : Core) (i : StackId) (x : Stack) : (k.setStack i x).stack i = x := by
  cases i <;> rfl

@[simp] theorem setStack_eq (s : State) (c : Nat) (i : StackId) (x : Stack) :
    s.setStack c i x = s.setCore c ((s.core c).setStack i x) := rfl

@[simp] theorem Core.setPsw_stack (k : Core) (n : Nat) (b : Bool) (i : StackId) : (k.setPsw n b).stack i = k.stack i := by
  cases i <;> rfl

/-! ### Attempts -/

theorem tryEach_same {α : Type} (f : α → State → Try Unit) (l : List α) (s : State) (h : ∀ x ∈ l, f x s = .ok () s) :
    tryEach f l s = .ok () s := by
  induction l with
  | nil => rfl
  | cons x xs ih =>
    simp only [tryEach, h x (List.mem_cons_self ..), Try.bind]
    exact ih fun y hy => h y (List.mem_cons_of_mem _ hy)

/-- A stack that is ready needs no spill and no fill. -/
theorem prepare_of_ready {s : State} {c : Nat} {i : StackId} {pops outs : Nat} (user : Bool)
    (h : s.stackReady c i pops outs) : prepare c i user pops outs s = .ok () s := by
  obtain ⟨hc, hp, hr⟩ := h
  unfold prepare
  rw [hc]
  dsimp only
  rw [tryEach_same]
  · simp only [Try.bind]
    refine tryEach_same _ _ _ fun j hj => ?_
    rw [List.mem_range] at hj
    rw [if_pos (by omega)]
  · intro j hj
    have := hp j (List.mem_range.mp hj)
    unfold cacheCell
    cases e : (s.stack c i).cached ((s.stack c i).ptr.toNat + 8 * j) with
    | none => simp [e] at this
    | some v => rfl

/-- No pop and no push need nothing. -/
theorem prepare_zero (c : Nat) (i : StackId) (user : Bool) (s : State) : prepare c i user 0 0 s = .ok () s := by
  unfold prepare Stack.check
  rfl

/-- A stack that is ready as seen from a core that differs only outside its stacks. -/
theorem stackReady_setCore {s : State} {c : Nat} {i : StackId} {pops outs : Nat} (k : Core)
    (hk : k.stack i = s.stack c i) (h : s.stackReady c i pops outs) : (s.setCore c k).stackReady c i pops outs := by
  simpa [State.stackReady, hk] using h

/-! ### An instruction that runs at once -/

/-- An instruction without recorded progress saves what it records itself. -/
@[simp] theorem Exc.keeping_zero (e : Exc) : e.keeping 0 = e := by
  unfold Exc.keeping
  split
  · rename_i h
    rw [← h.1]
  · rfl

/-- Where the cores of a pair agree, its checker repeats the primary's step: a step that does not ask which core takes it is the
primary's, joined. -/
theorem pairedReads_of_agrees {s : State} {c : Nat} (fault : CmpReport) (reads : State → List Nat) (f : State → State)
    (h : s.agrees c) : pairedReads c true fault reads (fun _ => f) s = s.joinedReads (reads s) fault c (f s) := by
  unfold pairedReads State.joinedReads
  by_cases hp : s.pairState (c / 2) = 1
  · simp only [hp, h hp, Bool.not_true, Bool.false_eq_true, if_false, if_true]
  · simp [hp]

theorem paired_of_agrees {s : State} {c : Nat} (fault : CmpReport) (f : State → State) (h : s.agrees c) :
    paired c true fault (fun _ => f) s = s.joinedWith fault c (f s) := pairedReads_of_agrees fault _ f h

/-- Nothing joins a core that is not the primary of a locked pair. -/
theorem joined_of_free {s : State} {c : Nat} (t : State) (h : s.pairState (c / 2) ≠ 1) : s.joined c t = t := if_neg h

theorem begin_of_ready {s : State} {c len : Nat} (h : s.ready c len) : (s.core c).begin' = s.coreNow c := by
  obtain ⟨-, hj, hp, hs, -⟩ := h
  unfold Core.begin' State.coreNow
  unfold Core.progress at hp
  rw [hj] at hp
  cases e : (s.core c).prgLive <;> simp_all

theorem mayRun_of_ready {s : State} {c len : Nat} (kind : Nat) (h : s.ready c len) : s.mayRun c kind = true := by
  simp [State.mayRun, h.1, h.2.1]

/-- The step of a core that is ready: the work of its instruction, with no progress recorded, is done on the core as the
instruction finds it, and the instruction completes. -/
theorem coreRun_of_ready {s u : State} {c len kind : Nat} {body : Cell → State → Try Flow} {f : Flow} (h : s.ready c len)
    (hb : body 0 (s.setCore c (s.coreNow c)) = .ok f u) (hf : f ≠ .stay) :
    coreRun c len kind body s = u.setCore c ((u.core c).complete len f) := by
  have hbeg := begin_of_ready h
  have hm := mayRun_of_ready kind h
  obtain ⟨he, hj, hp, hs, hfe, -⟩ := h
  unfold coreRun
  simp only [hm, Bool.not_true, Bool.false_eq_true, if_false, hfe, hp, hbeg, hb, ne_eq, not_true, false_and, hs]
  cases f <;> first | exact absurd rfl hf | exact ite_self _

/-- An instruction that does not complete leaves the PC. -/
theorem coreRun_stay_of_ready {s u : State} {c len kind : Nat} {body : Cell → State → Try Flow} (h : s.ready c len)
    (hb : body 0 (s.setCore c (s.coreNow c)) = .ok .stay u) :
    coreRun c len kind body s = u.setCore c { u.core c with shadow := none } := by
  have hbeg := begin_of_ready h
  have hm := mayRun_of_ready kind h
  obtain ⟨he, hj, hp, hs, hfe, -⟩ := h
  unfold coreRun
  simp only [hm, Bool.not_true, Bool.false_eq_true, if_false, hfe, hp, hbeg, hb, ne_eq, not_true, false_and, hs]

/-- An instruction that raises an exception: the exception is taken. -/
theorem coreRun_exc_of_ready {s u : State} {c len kind : Nat} {body : Cell → State → Try Flow} {e : Exc} (h : s.ready c len)
    (hb : body 0 (s.setCore c (s.coreNow c)) = .exc e u) : coreRun c len kind body s = (takeException c e u).getD s := by
  have hbeg := begin_of_ready h
  have hm := mayRun_of_ready kind h
  obtain ⟨he, hj, hp, hs, hfe, -⟩ := h
  unfold coreRun
  simp only [hm, Bool.not_true, Bool.false_eq_true, if_false, hfe, hp, hbeg, hb, ne_eq, not_true, false_and, hs, Exc.keeping_zero]
  rfl

/-- An instruction of a core that is ready is its core's step, joined. -/
theorem coreInstrReads_eq_joined {s : State} {c len : Nat} (kind : Nat) (reads : State → List Nat)
    (body : Cell → State → Try Flow) (h : s.ready c len) :
    coreInstrReads c len kind reads body s = s.joinedReads (reads s) noFault c (coreRun c len kind body s) := by
  unfold coreInstrReads
  rw [mayRun_of_ready kind h]
  exact pairedReads_of_agrees _ _ _ h.2.2.2.2.2

theorem coreInstr_eq_joined {s : State} {c len : Nat} (kind : Nat) (body : Cell → State → Try Flow) (h : s.ready c len) :
    coreInstr c len kind body s = s.joined c (coreRun c len kind body s) := coreInstrReads_eq_joined kind _ body h

theorem coreInstr_of_ready {s u : State} {c len kind : Nat} {body : Cell → State → Try Flow} {f : Flow} (h : s.ready c len)
    (hb : body 0 (s.setCore c (s.coreNow c)) = .ok f u) (hf : f ≠ .stay) :
    coreInstr c len kind body s = s.joined c (u.setCore c ((u.core c).complete len f)) := by
  rw [coreInstr_eq_joined kind body h, coreRun_of_ready h hb hf]

theorem coreInstr_stay_of_ready {s u : State} {c len kind : Nat} {body : Cell → State → Try Flow} (h : s.ready c len)
    (hb : body 0 (s.setCore c (s.coreNow c)) = .ok .stay u) :
    coreInstr c len kind body s = s.joined c (u.setCore c { u.core c with shadow := none }) := by
  rw [coreInstr_eq_joined kind body h, coreRun_stay_of_ready h hb]

theorem coreInstr_exc_of_ready {s u : State} {c len kind : Nat} {body : Cell → State → Try Flow} {e : Exc} (h : s.ready c len)
    (hb : body 0 (s.setCore c (s.coreNow c)) = .exc e u) :
    coreInstr c len kind body s = s.joined c ((takeException c e u).getD s) := by
  rw [coreInstr_eq_joined kind body h, coreRun_exc_of_ready h hb]

theorem plainInstr_of_ready {s u : State} {c len : Nat} {body : State → Try Flow} {f : Flow} (h : s.ready c len)
    (hb : body (s.setCore c (s.coreNow c)) = .ok f u) (hf : f ≠ .stay) :
    plainInstr c len body s = s.joined c (u.setCore c ((u.core c).complete len f)) := coreInstr_of_ready h hb hf

theorem plainInstr_exc_of_ready {s u : State} {c len : Nat} {body : State → Try Flow} {e : Exc} (h : s.ready c len)
    (hb : body (s.setCore c (s.coreNow c)) = .exc e u) :
    plainInstr c len body s = s.joined c ((takeException c e u).getD s) := coreInstr_exc_of_ready h hb

/-- A core that does not execute is left as it is by every instruction. -/
theorem coreInstr_of_not_run {s : State} {c kind : Nat} (len : Nat) (body : Cell → State → Try Flow)
    (h : s.mayRun c kind = false) : coreInstr c len kind body s = s := by
  unfold coreInstr coreInstrReads pairedReads
  simp [h]

theorem dataId_coreNow (s : State) (c : Nat) : (s.coreNow c).dataId = (s.core c).dataId := rfl

theorem stack_coreNow (s : State) (c : Nat) (i : StackId) : (s.coreNow c).stack i = s.stack c i := by cases i <;> rfl

theorem args_coreNow (s : State) (c : Nat) (n : Nat) :
    ((s.coreNow c).stack (s.coreNow c).dataId).args n = (List.range n).map (s.operand c) := by
  rw [dataId_coreNow, stack_coreNow]
  rfl

/-- An instruction over the data stack, on a core and a stack that are ready. -/
theorem dataInstr_of_ready {s : State} {c len pops outs : Nat} {f : Core → List Cell → Work} {k : Core} {r : List Cell}
    {flow : Flow} (h : s.ready c len) (hs : s.stackReady c (s.core c).dataId pops outs)
    (hf : f (s.coreNow c) ((List.range pops).map (s.operand c)) = .ok (k, r, flow)) (hflow : flow ≠ .stay) :
    plainInstr c len (dataOp c pops outs f) s = s.joined c (s.after c len pops k r flow) := by
  rw [plainInstr_of_ready (u := (s.setCore c (s.coreNow c)).setCore c
    (k.setStack (s.core c).dataId (((k.stack (s.core c).dataId).drop pops).pushAll r))) h ?_ hflow]
  · simp [State.after]
  · unfold dataOp
    simp only [core_setCore]
    rw [prepare_of_ready _ (stackReady_setCore _ (by rw [dataId_coreNow]; exact stack_coreNow _ _ _) (by rw [dataId_coreNow]; exact hs))]
    simp only [Try.bind, core_setCore, args_coreNow, hf]
    rfl

/-- An instruction over the data stack that raises an exception. -/
theorem dataInstr_exc_of_ready {s : State} {c len pops outs : Nat} {f : Core → List Cell → Work} {e : Exc}
    (h : s.ready c len) (hs : s.stackReady c (s.core c).dataId pops outs)
    (hf : f (s.coreNow c) ((List.range pops).map (s.operand c)) = .error e) :
    plainInstr c len (dataOp c pops outs f) s = s.joined c ((takeException c e (s.setCore c (s.coreNow c))).getD s) := by
  refine plainInstr_exc_of_ready h ?_
  unfold dataOp
  simp only [core_setCore]
  rw [prepare_of_ready _ (stackReady_setCore _ (by rw [dataId_coreNow]; exact stack_coreNow _ _ _) (by rw [dataId_coreNow]; exact hs))]
  simp only [Try.bind, core_setCore, args_coreNow, hf]

/-- An instruction that takes no operand and pushes no cell. -/
theorem bareInstr_of_ready {s : State} {c len : Nat} {f : Core → Work} {k : Core} {flow : Flow} (h : s.ready c len)
    (hf : f (s.coreNow c) = .ok (k, [], flow)) (hflow : flow ≠ .stay) : instr0 c len 0 f s = s.joined c (s.after c len 0 k [] flow) := by
  unfold instr0
  rw [plainInstr_of_ready (u := (s.setCore c (s.coreNow c)).setCore c
    (k.setStack (s.core c).dataId (k.stack (s.core c).dataId))) h ?_ hflow]
  · simp [State.after, Stack.drop, Stack.pushAll]
  · unfold dataOp
    simp only [core_setCore, prepare_zero, Try.bind, hf]
    rfl

/-- The exact result of an arithmetic instruction that raises no exception (R273). -/
theorem fit_of_takes (k : Core) (x : Int) (h : k.takes x) : fit k x = .ok (k.flagged x, k.fitted x) := by
  unfold Core.takes at h
  unfold fit Core.flagged Core.fitted
  have e : (decide (x < cellMin) || decide (cellMax < x)) = overflows x := rfl
  have hv : (overflows x && k.effective Psw.ove) = false := by rcases h with h | h <;> simp [h]
  have hs : ∀ b, (k.setPsw Psw.v b).effective Psw.sat = k.effective Psw.sat := by
    intro b
    unfold Core.effective Core.setPsw withBit Psw.v Psw.sat
    cases b <;> simp
  simp only [e, hv, Bool.false_eq_true, if_false, hs]
  cases ho : overflows x <;> cases hk : k.effective Psw.sat <;> simp
  · unfold overflows at ho
    simp only [Bool.or_eq_false_iff, decide_eq_false_iff_not] at ho
    rw [if_neg (by omega), if_neg (by omega)]
  · rfl

/-- An exact result that overflows under OVE raises the overflow exception (R273). -/
theorem fit_of_overflow (k : Core) (x : Int) (h : overflows x = true) (o : k.effective Psw.ove = true) :
    fit k x = .error (Exc.plain 4 0) := by
  unfold fit
  have e : (decide (x < cellMin) || decide (cellMax < x)) = overflows x := rfl
  simp [e, h, o]

theorem legalOnly_of_legal {bad : Bool} (body : State → Try Flow) (h : bad = false) : legalOnly bad body = body := by
  funext s
  simp [legalOnly, h]

theorem instr0_of_ready {s : State} {c len outs : Nat} {f : Core → Work} {k : Core} {r : List Cell} {flow : Flow}
    (h : s.ready c len) (hs : s.stackReady c (s.core c).dataId 0 outs) (hf : f (s.coreNow c) = .ok (k, r, flow))
    (hflow : flow ≠ .stay) : instr0 c len outs f s = s.joined c (s.after c len 0 k r flow) :=
  dataInstr_of_ready h hs hf hflow

theorem instr1_of_ready {s : State} {c len outs : Nat} {f : Core → Cell → Work} {k : Core} {r : List Cell} {flow : Flow}
    (h : s.ready c len) (hs : s.stackReady c (s.core c).dataId 1 outs)
    (hf : f (s.coreNow c) (s.operand c 0) = .ok (k, r, flow)) (hflow : flow ≠ .stay) :
    instr1 c len outs f s = s.joined c (s.after c len 1 k r flow) :=
  dataInstr_of_ready h hs hf hflow

theorem instr2_of_ready {s : State} {c len outs : Nat} {f : Core → Cell → Cell → Work} {k : Core} {r : List Cell}
    {flow : Flow} (h : s.ready c len) (hs : s.stackReady c (s.core c).dataId 2 outs)
    (hf : f (s.coreNow c) (s.operand c 1) (s.operand c 0) = .ok (k, r, flow)) (hflow : flow ≠ .stay) :
    instr2 c len outs f s = s.joined c (s.after c len 2 k r flow) :=
  dataInstr_of_ready h hs hf hflow

theorem instr3_of_ready {s : State} {c len outs : Nat} {f : Core → Cell → Cell → Cell → Work} {k : Core} {r : List Cell}
    {flow : Flow} (h : s.ready c len) (hs : s.stackReady c (s.core c).dataId 3 outs)
    (hf : f (s.coreNow c) (s.operand c 2) (s.operand c 1) (s.operand c 0) = .ok (k, r, flow)) (hflow : flow ≠ .stay) :
    instr3 c len outs f s = s.joined c (s.after c len 3 k r flow) :=
  dataInstr_of_ready h hs hf hflow

end Sys2Proof.Machine
end

