-- ==== Sys2Proof/Laws/State.lean ====
section
/-! SUPPORT. What each update of the state does to each field, each by `rfl`: an update of one part leaves every other field
and every other part as it was; and what a part, a register and a byte read as after a write of it. Each conjunction gives
the simplifier one rule for each field. -/

namespace Sys2Proof.Machine

/-! ### Every other field -/

@[simp] theorem State.setReg_fields (s : State) (a : Nat) (w : Word) :
    (s.setReg a w).chans = s.chans ∧ (s.setReg a w).audit = s.audit ∧ (s.setReg a w).riserFree = s.riserFree ∧
    (s.setReg a w).assayTokens = s.assayTokens ∧ (s.setReg a w).alarm = s.alarm ∧
    (s.setReg a w).eccReported = s.eccReported ∧ (s.setReg a w).snaps = s.snaps ∧ (s.setReg a w).snapCross = s.snapCross ∧
    (s.setReg a w).snapCopy = s.snapCopy ∧ (s.setReg a w).captured = s.captured ∧ (s.setReg a w).readers = s.readers ∧
    (s.setReg a w).pushes = s.pushes ∧ (s.setReg a w).decs = s.decs ∧ (s.setReg a w).streams = s.streams ∧
    (s.setReg a w).wcs = s.wcs ∧ (s.setReg a w).rbFrom = s.rbFrom ∧ (s.setReg a w).svs = s.svs ∧
    (s.setReg a w).outs = s.outs ∧ (s.setReg a w).pgs = s.pgs ∧ (s.setReg a w).accs = s.accs ∧ (s.setReg a w).laws = s.laws ∧
    (s.setReg a w).lawWords = s.lawWords ∧ (s.setReg a w).lawProg = s.lawProg ∧ (s.setReg a w).lawTable = s.lawTable ∧
    (s.setReg a w).tableQ = s.tableQ ∧ (s.setReg a w).ports = s.ports ∧ (s.setReg a w).pairFault = s.pairFault ∧
    (s.setReg a w).coreHalted = s.coreHalted ∧ (s.setReg a w).cores = s.cores ∧ (s.setReg a w).delays = s.delays ∧
    (s.setReg a w).ladles = s.ladles ∧ (s.setReg a w).turn = s.turn ∧ (s.setReg a w).heatLast = s.heatLast ∧
    (s.setReg a w).heatDue = s.heatDue ∧ (s.setReg a w).pairLock = s.pairLock ∧ (s.setReg a w).mem = s.mem ∧
    (s.setReg a w).journal = s.journal ∧ (s.setReg a w).poison = s.poison ∧ (s.setReg a w).upsets = s.upsets ∧
    (s.setReg a w).flash = s.flash ∧ (s.setReg a w).tw = s.tw ∧ (s.setReg a w).twSys = s.twSys ∧
    (s.setReg a w).host = s.host ∧ (s.setReg a w).assay = s.assay ∧ (s.setReg a w).exposed = s.exposed ∧
    (s.setReg a w).gpio = s.gpio ∧ (s.setReg a w).swi = s.swi ∧ (s.setReg a w).supply = s.supply ∧ (s.setReg a w).rc = s.rc ∧
    (s.setReg a w).timeBase = s.timeBase ∧ (s.setReg a w).freeCount = s.freeCount ∧ (s.setReg a w).pending = s.pending := by
  repeat' constructor

@[simp] theorem State.setChan_fields (s : State) (n : Nat) (x : Channel) :
    (s.setChan n x).regs = s.regs ∧ (s.setChan n x).audit = s.audit ∧ (s.setChan n x).riserFree = s.riserFree ∧
    (s.setChan n x).assayTokens = s.assayTokens ∧ (s.setChan n x).alarm = s.alarm ∧
    (s.setChan n x).eccReported = s.eccReported ∧ (s.setChan n x).snaps = s.snaps ∧ (s.setChan n x).snapCross = s.snapCross ∧
    (s.setChan n x).snapCopy = s.snapCopy ∧ (s.setChan n x).captured = s.captured ∧ (s.setChan n x).readers = s.readers ∧
    (s.setChan n x).pushes = s.pushes ∧ (s.setChan n x).decs = s.decs ∧ (s.setChan n x).streams = s.streams ∧
    (s.setChan n x).wcs = s.wcs ∧ (s.setChan n x).rbFrom = s.rbFrom ∧ (s.setChan n x).svs = s.svs ∧
    (s.setChan n x).outs = s.outs ∧ (s.setChan n x).pgs = s.pgs ∧ (s.setChan n x).accs = s.accs ∧
    (s.setChan n x).laws = s.laws ∧ (s.setChan n x).lawWords = s.lawWords ∧ (s.setChan n x).lawProg = s.lawProg ∧
    (s.setChan n x).lawTable = s.lawTable ∧ (s.setChan n x).tableQ = s.tableQ ∧ (s.setChan n x).ports = s.ports ∧
    (s.setChan n x).pairFault = s.pairFault ∧ (s.setChan n x).coreHalted = s.coreHalted ∧ (s.setChan n x).cores = s.cores ∧
    (s.setChan n x).delays = s.delays ∧ (s.setChan n x).ladles = s.ladles ∧ (s.setChan n x).turn = s.turn ∧
    (s.setChan n x).heatLast = s.heatLast ∧ (s.setChan n x).heatDue = s.heatDue ∧ (s.setChan n x).pairLock = s.pairLock ∧
    (s.setChan n x).mem = s.mem ∧ (s.setChan n x).journal = s.journal ∧ (s.setChan n x).poison = s.poison ∧
    (s.setChan n x).upsets = s.upsets ∧ (s.setChan n x).flash = s.flash ∧ (s.setChan n x).tw = s.tw ∧
    (s.setChan n x).twSys = s.twSys ∧ (s.setChan n x).host = s.host ∧ (s.setChan n x).assay = s.assay ∧
    (s.setChan n x).exposed = s.exposed ∧ (s.setChan n x).gpio = s.gpio ∧ (s.setChan n x).swi = s.swi ∧
    (s.setChan n x).supply = s.supply ∧ (s.setChan n x).rc = s.rc ∧ (s.setChan n x).timeBase = s.timeBase ∧
    (s.setChan n x).freeCount = s.freeCount ∧ (s.setChan n x).pending = s.pending := by
  repeat' constructor

@[simp] theorem State.setReader_fields (s : State) (n : Nat) (x : Reader) :
    (s.setReader n x).regs = s.regs ∧ (s.setReader n x).chans = s.chans ∧ (s.setReader n x).audit = s.audit ∧
    (s.setReader n x).riserFree = s.riserFree ∧ (s.setReader n x).assayTokens = s.assayTokens ∧
    (s.setReader n x).alarm = s.alarm ∧ (s.setReader n x).eccReported = s.eccReported ∧ (s.setReader n x).snaps = s.snaps ∧
    (s.setReader n x).snapCross = s.snapCross ∧ (s.setReader n x).snapCopy = s.snapCopy ∧
    (s.setReader n x).captured = s.captured ∧ (s.setReader n x).pushes = s.pushes ∧ (s.setReader n x).decs = s.decs ∧
    (s.setReader n x).streams = s.streams ∧ (s.setReader n x).wcs = s.wcs ∧ (s.setReader n x).rbFrom = s.rbFrom ∧
    (s.setReader n x).svs = s.svs ∧ (s.setReader n x).outs = s.outs ∧ (s.setReader n x).pgs = s.pgs ∧
    (s.setReader n x).accs = s.accs ∧ (s.setReader n x).laws = s.laws ∧ (s.setReader n x).lawWords = s.lawWords ∧
    (s.setReader n x).lawProg = s.lawProg ∧ (s.setReader n x).lawTable = s.lawTable ∧ (s.setReader n x).tableQ = s.tableQ ∧
    (s.setReader n x).ports = s.ports ∧ (s.setReader n x).pairFault = s.pairFault ∧
    (s.setReader n x).coreHalted = s.coreHalted ∧ (s.setReader n x).cores = s.cores ∧ (s.setReader n x).delays = s.delays ∧
    (s.setReader n x).ladles = s.ladles ∧ (s.setReader n x).turn = s.turn ∧ (s.setReader n x).heatLast = s.heatLast ∧
    (s.setReader n x).heatDue = s.heatDue ∧ (s.setReader n x).pairLock = s.pairLock ∧ (s.setReader n x).mem = s.mem ∧
    (s.setReader n x).journal = s.journal ∧ (s.setReader n x).poison = s.poison ∧ (s.setReader n x).upsets = s.upsets ∧
    (s.setReader n x).flash = s.flash ∧ (s.setReader n x).tw = s.tw ∧ (s.setReader n x).twSys = s.twSys ∧
    (s.setReader n x).host = s.host ∧ (s.setReader n x).assay = s.assay ∧ (s.setReader n x).exposed = s.exposed ∧
    (s.setReader n x).gpio = s.gpio ∧ (s.setReader n x).swi = s.swi ∧ (s.setReader n x).supply = s.supply ∧
    (s.setReader n x).rc = s.rc ∧ (s.setReader n x).timeBase = s.timeBase ∧ (s.setReader n x).freeCount = s.freeCount ∧
    (s.setReader n x).pending = s.pending := by
  repeat' constructor

@[simp] theorem State.setPush_fields (s : State) (n : Nat) (x : PushPorts) :
    (s.setPush n x).regs = s.regs ∧ (s.setPush n x).chans = s.chans ∧ (s.setPush n x).audit = s.audit ∧
    (s.setPush n x).riserFree = s.riserFree ∧ (s.setPush n x).assayTokens = s.assayTokens ∧ (s.setPush n x).alarm = s.alarm ∧
    (s.setPush n x).eccReported = s.eccReported ∧ (s.setPush n x).snaps = s.snaps ∧ (s.setPush n x).snapCross = s.snapCross ∧
    (s.setPush n x).snapCopy = s.snapCopy ∧ (s.setPush n x).captured = s.captured ∧ (s.setPush n x).readers = s.readers ∧
    (s.setPush n x).decs = s.decs ∧ (s.setPush n x).streams = s.streams ∧ (s.setPush n x).wcs = s.wcs ∧
    (s.setPush n x).rbFrom = s.rbFrom ∧ (s.setPush n x).svs = s.svs ∧ (s.setPush n x).outs = s.outs ∧
    (s.setPush n x).pgs = s.pgs ∧ (s.setPush n x).accs = s.accs ∧ (s.setPush n x).laws = s.laws ∧
    (s.setPush n x).lawWords = s.lawWords ∧ (s.setPush n x).lawProg = s.lawProg ∧ (s.setPush n x).lawTable = s.lawTable ∧
    (s.setPush n x).tableQ = s.tableQ ∧ (s.setPush n x).ports = s.ports ∧ (s.setPush n x).pairFault = s.pairFault ∧
    (s.setPush n x).coreHalted = s.coreHalted ∧ (s.setPush n x).cores = s.cores ∧ (s.setPush n x).delays = s.delays ∧
    (s.setPush n x).ladles = s.ladles ∧ (s.setPush n x).turn = s.turn ∧ (s.setPush n x).heatLast = s.heatLast ∧
    (s.setPush n x).heatDue = s.heatDue ∧ (s.setPush n x).pairLock = s.pairLock ∧ (s.setPush n x).mem = s.mem ∧
    (s.setPush n x).journal = s.journal ∧ (s.setPush n x).poison = s.poison ∧ (s.setPush n x).upsets = s.upsets ∧
    (s.setPush n x).flash = s.flash ∧ (s.setPush n x).tw = s.tw ∧ (s.setPush n x).twSys = s.twSys ∧
    (s.setPush n x).host = s.host ∧ (s.setPush n x).assay = s.assay ∧ (s.setPush n x).exposed = s.exposed ∧
    (s.setPush n x).gpio = s.gpio ∧ (s.setPush n x).swi = s.swi ∧ (s.setPush n x).supply = s.supply ∧
    (s.setPush n x).rc = s.rc ∧ (s.setPush n x).timeBase = s.timeBase ∧ (s.setPush n x).freeCount = s.freeCount ∧
    (s.setPush n x).pending = s.pending := by
  repeat' constructor

@[simp] theorem State.setPath_fields (s : State) (n : Nat) (b : Bool) (x : PathState) :
    (s.setPath n b x).regs = s.regs ∧ (s.setPath n b x).chans = s.chans ∧ (s.setPath n b x).audit = s.audit ∧
    (s.setPath n b x).riserFree = s.riserFree ∧ (s.setPath n b x).assayTokens = s.assayTokens ∧
    (s.setPath n b x).alarm = s.alarm ∧ (s.setPath n b x).eccReported = s.eccReported ∧ (s.setPath n b x).snaps = s.snaps ∧
    (s.setPath n b x).snapCross = s.snapCross ∧ (s.setPath n b x).snapCopy = s.snapCopy ∧
    (s.setPath n b x).captured = s.captured ∧ (s.setPath n b x).readers = s.readers ∧ (s.setPath n b x).pushes = s.pushes ∧
    (s.setPath n b x).streams = s.streams ∧ (s.setPath n b x).wcs = s.wcs ∧ (s.setPath n b x).rbFrom = s.rbFrom ∧
    (s.setPath n b x).svs = s.svs ∧ (s.setPath n b x).outs = s.outs ∧ (s.setPath n b x).pgs = s.pgs ∧
    (s.setPath n b x).accs = s.accs ∧ (s.setPath n b x).laws = s.laws ∧ (s.setPath n b x).lawWords = s.lawWords ∧
    (s.setPath n b x).lawProg = s.lawProg ∧ (s.setPath n b x).lawTable = s.lawTable ∧ (s.setPath n b x).tableQ = s.tableQ ∧
    (s.setPath n b x).ports = s.ports ∧ (s.setPath n b x).pairFault = s.pairFault ∧
    (s.setPath n b x).coreHalted = s.coreHalted ∧ (s.setPath n b x).cores = s.cores ∧ (s.setPath n b x).delays = s.delays ∧
    (s.setPath n b x).ladles = s.ladles ∧ (s.setPath n b x).turn = s.turn ∧ (s.setPath n b x).heatLast = s.heatLast ∧
    (s.setPath n b x).heatDue = s.heatDue ∧ (s.setPath n b x).pairLock = s.pairLock ∧ (s.setPath n b x).mem = s.mem ∧
    (s.setPath n b x).journal = s.journal ∧ (s.setPath n b x).poison = s.poison ∧ (s.setPath n b x).upsets = s.upsets ∧
    (s.setPath n b x).flash = s.flash ∧ (s.setPath n b x).tw = s.tw ∧ (s.setPath n b x).twSys = s.twSys ∧
    (s.setPath n b x).host = s.host ∧ (s.setPath n b x).assay = s.assay ∧ (s.setPath n b x).exposed = s.exposed ∧
    (s.setPath n b x).gpio = s.gpio ∧ (s.setPath n b x).swi = s.swi ∧ (s.setPath n b x).supply = s.supply ∧
    (s.setPath n b x).rc = s.rc ∧ (s.setPath n b x).timeBase = s.timeBase ∧ (s.setPath n b x).freeCount = s.freeCount ∧
    (s.setPath n b x).pending = s.pending := by
  repeat' constructor

@[simp] theorem State.setStream_fields (s : State) (n : Nat) (x : StreamState) :
    (s.setStream n x).regs = s.regs ∧ (s.setStream n x).chans = s.chans ∧ (s.setStream n x).audit = s.audit ∧
    (s.setStream n x).riserFree = s.riserFree ∧ (s.setStream n x).assayTokens = s.assayTokens ∧
    (s.setStream n x).alarm = s.alarm ∧ (s.setStream n x).eccReported = s.eccReported ∧ (s.setStream n x).snaps = s.snaps ∧
    (s.setStream n x).snapCross = s.snapCross ∧ (s.setStream n x).snapCopy = s.snapCopy ∧
    (s.setStream n x).captured = s.captured ∧ (s.setStream n x).readers = s.readers ∧ (s.setStream n x).pushes = s.pushes ∧
    (s.setStream n x).decs = s.decs ∧ (s.setStream n x).wcs = s.wcs ∧ (s.setStream n x).rbFrom = s.rbFrom ∧
    (s.setStream n x).svs = s.svs ∧ (s.setStream n x).outs = s.outs ∧ (s.setStream n x).pgs = s.pgs ∧
    (s.setStream n x).accs = s.accs ∧ (s.setStream n x).laws = s.laws ∧ (s.setStream n x).lawWords = s.lawWords ∧
    (s.setStream n x).lawProg = s.lawProg ∧ (s.setStream n x).lawTable = s.lawTable ∧ (s.setStream n x).tableQ = s.tableQ ∧
    (s.setStream n x).ports = s.ports ∧ (s.setStream n x).pairFault = s.pairFault ∧
    (s.setStream n x).coreHalted = s.coreHalted ∧ (s.setStream n x).cores = s.cores ∧ (s.setStream n x).delays = s.delays ∧
    (s.setStream n x).ladles = s.ladles ∧ (s.setStream n x).turn = s.turn ∧ (s.setStream n x).heatLast = s.heatLast ∧
    (s.setStream n x).heatDue = s.heatDue ∧ (s.setStream n x).pairLock = s.pairLock ∧ (s.setStream n x).mem = s.mem ∧
    (s.setStream n x).journal = s.journal ∧ (s.setStream n x).poison = s.poison ∧ (s.setStream n x).upsets = s.upsets ∧
    (s.setStream n x).flash = s.flash ∧ (s.setStream n x).tw = s.tw ∧ (s.setStream n x).twSys = s.twSys ∧
    (s.setStream n x).host = s.host ∧ (s.setStream n x).assay = s.assay ∧ (s.setStream n x).exposed = s.exposed ∧
    (s.setStream n x).gpio = s.gpio ∧ (s.setStream n x).swi = s.swi ∧ (s.setStream n x).supply = s.supply ∧
    (s.setStream n x).rc = s.rc ∧ (s.setStream n x).timeBase = s.timeBase ∧ (s.setStream n x).freeCount = s.freeCount ∧
    (s.setStream n x).pending = s.pending := by
  repeat' constructor

@[simp] theorem State.setDelayed_fields (s : State) (n : Nat) (x : List DelayEntry) :
    (s.setDelayed n x).regs = s.regs ∧ (s.setDelayed n x).chans = s.chans ∧ (s.setDelayed n x).audit = s.audit ∧
    (s.setDelayed n x).riserFree = s.riserFree ∧ (s.setDelayed n x).assayTokens = s.assayTokens ∧
    (s.setDelayed n x).alarm = s.alarm ∧ (s.setDelayed n x).eccReported = s.eccReported ∧
    (s.setDelayed n x).snaps = s.snaps ∧ (s.setDelayed n x).snapCross = s.snapCross ∧
    (s.setDelayed n x).snapCopy = s.snapCopy ∧ (s.setDelayed n x).captured = s.captured ∧
    (s.setDelayed n x).readers = s.readers ∧ (s.setDelayed n x).pushes = s.pushes ∧ (s.setDelayed n x).decs = s.decs ∧
    (s.setDelayed n x).streams = s.streams ∧ (s.setDelayed n x).wcs = s.wcs ∧ (s.setDelayed n x).rbFrom = s.rbFrom ∧
    (s.setDelayed n x).svs = s.svs ∧ (s.setDelayed n x).outs = s.outs ∧ (s.setDelayed n x).pgs = s.pgs ∧
    (s.setDelayed n x).accs = s.accs ∧ (s.setDelayed n x).laws = s.laws ∧ (s.setDelayed n x).lawWords = s.lawWords ∧
    (s.setDelayed n x).lawProg = s.lawProg ∧ (s.setDelayed n x).lawTable = s.lawTable ∧
    (s.setDelayed n x).tableQ = s.tableQ ∧ (s.setDelayed n x).ports = s.ports ∧ (s.setDelayed n x).pairFault = s.pairFault ∧
    (s.setDelayed n x).coreHalted = s.coreHalted ∧ (s.setDelayed n x).cores = s.cores ∧
    (s.setDelayed n x).ladles = s.ladles ∧ (s.setDelayed n x).turn = s.turn ∧ (s.setDelayed n x).heatLast = s.heatLast ∧
    (s.setDelayed n x).heatDue = s.heatDue ∧ (s.setDelayed n x).pairLock = s.pairLock ∧ (s.setDelayed n x).mem = s.mem ∧
    (s.setDelayed n x).journal = s.journal ∧ (s.setDelayed n x).poison = s.poison ∧ (s.setDelayed n x).upsets = s.upsets ∧
    (s.setDelayed n x).flash = s.flash ∧ (s.setDelayed n x).tw = s.tw ∧ (s.setDelayed n x).twSys = s.twSys ∧
    (s.setDelayed n x).host = s.host ∧ (s.setDelayed n x).assay = s.assay ∧ (s.setDelayed n x).exposed = s.exposed ∧
    (s.setDelayed n x).gpio = s.gpio ∧ (s.setDelayed n x).swi = s.swi ∧ (s.setDelayed n x).supply = s.supply ∧
    (s.setDelayed n x).rc = s.rc ∧ (s.setDelayed n x).timeBase = s.timeBase ∧ (s.setDelayed n x).freeCount = s.freeCount ∧
    (s.setDelayed n x).pending = s.pending := by
  repeat' constructor

@[simp] theorem State.setWc_fields (s : State) (n : Nat) (x : WcState) :
    (s.setWc n x).regs = s.regs ∧ (s.setWc n x).chans = s.chans ∧ (s.setWc n x).audit = s.audit ∧
    (s.setWc n x).riserFree = s.riserFree ∧ (s.setWc n x).assayTokens = s.assayTokens ∧ (s.setWc n x).alarm = s.alarm ∧
    (s.setWc n x).eccReported = s.eccReported ∧ (s.setWc n x).snaps = s.snaps ∧ (s.setWc n x).snapCross = s.snapCross ∧
    (s.setWc n x).snapCopy = s.snapCopy ∧ (s.setWc n x).captured = s.captured ∧ (s.setWc n x).readers = s.readers ∧
    (s.setWc n x).pushes = s.pushes ∧ (s.setWc n x).decs = s.decs ∧ (s.setWc n x).streams = s.streams ∧
    (s.setWc n x).rbFrom = s.rbFrom ∧ (s.setWc n x).svs = s.svs ∧ (s.setWc n x).outs = s.outs ∧ (s.setWc n x).pgs = s.pgs ∧
    (s.setWc n x).accs = s.accs ∧ (s.setWc n x).laws = s.laws ∧ (s.setWc n x).lawWords = s.lawWords ∧
    (s.setWc n x).lawProg = s.lawProg ∧ (s.setWc n x).lawTable = s.lawTable ∧ (s.setWc n x).tableQ = s.tableQ ∧
    (s.setWc n x).ports = s.ports ∧ (s.setWc n x).pairFault = s.pairFault ∧ (s.setWc n x).coreHalted = s.coreHalted ∧
    (s.setWc n x).cores = s.cores ∧ (s.setWc n x).delays = s.delays ∧ (s.setWc n x).ladles = s.ladles ∧
    (s.setWc n x).turn = s.turn ∧ (s.setWc n x).heatLast = s.heatLast ∧ (s.setWc n x).heatDue = s.heatDue ∧
    (s.setWc n x).pairLock = s.pairLock ∧ (s.setWc n x).mem = s.mem ∧ (s.setWc n x).journal = s.journal ∧
    (s.setWc n x).poison = s.poison ∧ (s.setWc n x).upsets = s.upsets ∧ (s.setWc n x).flash = s.flash ∧
    (s.setWc n x).tw = s.tw ∧ (s.setWc n x).twSys = s.twSys ∧ (s.setWc n x).host = s.host ∧ (s.setWc n x).assay = s.assay ∧
    (s.setWc n x).exposed = s.exposed ∧ (s.setWc n x).gpio = s.gpio ∧ (s.setWc n x).swi = s.swi ∧
    (s.setWc n x).supply = s.supply ∧ (s.setWc n x).rc = s.rc ∧ (s.setWc n x).timeBase = s.timeBase ∧
    (s.setWc n x).freeCount = s.freeCount ∧ (s.setWc n x).pending = s.pending := by
  repeat' constructor

@[simp] theorem State.setSv_fields (s : State) (n : Nat) (x : SvState) :
    (s.setSv n x).regs = s.regs ∧ (s.setSv n x).chans = s.chans ∧ (s.setSv n x).audit = s.audit ∧
    (s.setSv n x).riserFree = s.riserFree ∧ (s.setSv n x).assayTokens = s.assayTokens ∧ (s.setSv n x).alarm = s.alarm ∧
    (s.setSv n x).eccReported = s.eccReported ∧ (s.setSv n x).snaps = s.snaps ∧ (s.setSv n x).snapCross = s.snapCross ∧
    (s.setSv n x).snapCopy = s.snapCopy ∧ (s.setSv n x).captured = s.captured ∧ (s.setSv n x).readers = s.readers ∧
    (s.setSv n x).pushes = s.pushes ∧ (s.setSv n x).decs = s.decs ∧ (s.setSv n x).streams = s.streams ∧
    (s.setSv n x).wcs = s.wcs ∧ (s.setSv n x).rbFrom = s.rbFrom ∧ (s.setSv n x).outs = s.outs ∧ (s.setSv n x).pgs = s.pgs ∧
    (s.setSv n x).accs = s.accs ∧ (s.setSv n x).laws = s.laws ∧ (s.setSv n x).lawWords = s.lawWords ∧
    (s.setSv n x).lawProg = s.lawProg ∧ (s.setSv n x).lawTable = s.lawTable ∧ (s.setSv n x).tableQ = s.tableQ ∧
    (s.setSv n x).ports = s.ports ∧ (s.setSv n x).pairFault = s.pairFault ∧ (s.setSv n x).coreHalted = s.coreHalted ∧
    (s.setSv n x).cores = s.cores ∧ (s.setSv n x).delays = s.delays ∧ (s.setSv n x).ladles = s.ladles ∧
    (s.setSv n x).turn = s.turn ∧ (s.setSv n x).heatLast = s.heatLast ∧ (s.setSv n x).heatDue = s.heatDue ∧
    (s.setSv n x).pairLock = s.pairLock ∧ (s.setSv n x).mem = s.mem ∧ (s.setSv n x).journal = s.journal ∧
    (s.setSv n x).poison = s.poison ∧ (s.setSv n x).upsets = s.upsets ∧ (s.setSv n x).flash = s.flash ∧
    (s.setSv n x).tw = s.tw ∧ (s.setSv n x).twSys = s.twSys ∧ (s.setSv n x).host = s.host ∧ (s.setSv n x).assay = s.assay ∧
    (s.setSv n x).exposed = s.exposed ∧ (s.setSv n x).gpio = s.gpio ∧ (s.setSv n x).swi = s.swi ∧
    (s.setSv n x).supply = s.supply ∧ (s.setSv n x).rc = s.rc ∧ (s.setSv n x).timeBase = s.timeBase ∧
    (s.setSv n x).freeCount = s.freeCount ∧ (s.setSv n x).pending = s.pending := by
  repeat' constructor

@[simp] theorem State.setOut_fields (s : State) (n : Nat) (x : OutState) :
    (s.setOut n x).regs = s.regs ∧ (s.setOut n x).chans = s.chans ∧ (s.setOut n x).audit = s.audit ∧
    (s.setOut n x).riserFree = s.riserFree ∧ (s.setOut n x).assayTokens = s.assayTokens ∧ (s.setOut n x).alarm = s.alarm ∧
    (s.setOut n x).eccReported = s.eccReported ∧ (s.setOut n x).snaps = s.snaps ∧ (s.setOut n x).snapCross = s.snapCross ∧
    (s.setOut n x).snapCopy = s.snapCopy ∧ (s.setOut n x).captured = s.captured ∧ (s.setOut n x).readers = s.readers ∧
    (s.setOut n x).pushes = s.pushes ∧ (s.setOut n x).decs = s.decs ∧ (s.setOut n x).streams = s.streams ∧
    (s.setOut n x).wcs = s.wcs ∧ (s.setOut n x).rbFrom = s.rbFrom ∧ (s.setOut n x).svs = s.svs ∧ (s.setOut n x).pgs = s.pgs ∧
    (s.setOut n x).accs = s.accs ∧ (s.setOut n x).laws = s.laws ∧ (s.setOut n x).lawWords = s.lawWords ∧
    (s.setOut n x).lawProg = s.lawProg ∧ (s.setOut n x).lawTable = s.lawTable ∧ (s.setOut n x).tableQ = s.tableQ ∧
    (s.setOut n x).ports = s.ports ∧ (s.setOut n x).pairFault = s.pairFault ∧ (s.setOut n x).coreHalted = s.coreHalted ∧
    (s.setOut n x).cores = s.cores ∧ (s.setOut n x).delays = s.delays ∧ (s.setOut n x).ladles = s.ladles ∧
    (s.setOut n x).turn = s.turn ∧ (s.setOut n x).heatLast = s.heatLast ∧ (s.setOut n x).heatDue = s.heatDue ∧
    (s.setOut n x).pairLock = s.pairLock ∧ (s.setOut n x).mem = s.mem ∧ (s.setOut n x).journal = s.journal ∧
    (s.setOut n x).poison = s.poison ∧ (s.setOut n x).upsets = s.upsets ∧ (s.setOut n x).flash = s.flash ∧
    (s.setOut n x).tw = s.tw ∧ (s.setOut n x).twSys = s.twSys ∧ (s.setOut n x).host = s.host ∧
    (s.setOut n x).assay = s.assay ∧ (s.setOut n x).exposed = s.exposed ∧ (s.setOut n x).gpio = s.gpio ∧
    (s.setOut n x).swi = s.swi ∧ (s.setOut n x).supply = s.supply ∧ (s.setOut n x).rc = s.rc ∧
    (s.setOut n x).timeBase = s.timeBase ∧ (s.setOut n x).freeCount = s.freeCount ∧ (s.setOut n x).pending = s.pending := by
  repeat' constructor

@[simp] theorem State.setPg_fields (s : State) (n : Nat) (x : PgState) :
    (s.setPg n x).regs = s.regs ∧ (s.setPg n x).chans = s.chans ∧ (s.setPg n x).audit = s.audit ∧
    (s.setPg n x).riserFree = s.riserFree ∧ (s.setPg n x).assayTokens = s.assayTokens ∧ (s.setPg n x).alarm = s.alarm ∧
    (s.setPg n x).eccReported = s.eccReported ∧ (s.setPg n x).snaps = s.snaps ∧ (s.setPg n x).snapCross = s.snapCross ∧
    (s.setPg n x).snapCopy = s.snapCopy ∧ (s.setPg n x).captured = s.captured ∧ (s.setPg n x).readers = s.readers ∧
    (s.setPg n x).pushes = s.pushes ∧ (s.setPg n x).decs = s.decs ∧ (s.setPg n x).streams = s.streams ∧
    (s.setPg n x).wcs = s.wcs ∧ (s.setPg n x).rbFrom = s.rbFrom ∧ (s.setPg n x).svs = s.svs ∧ (s.setPg n x).outs = s.outs ∧
    (s.setPg n x).accs = s.accs ∧ (s.setPg n x).laws = s.laws ∧ (s.setPg n x).lawWords = s.lawWords ∧
    (s.setPg n x).lawProg = s.lawProg ∧ (s.setPg n x).lawTable = s.lawTable ∧ (s.setPg n x).tableQ = s.tableQ ∧
    (s.setPg n x).ports = s.ports ∧ (s.setPg n x).pairFault = s.pairFault ∧ (s.setPg n x).coreHalted = s.coreHalted ∧
    (s.setPg n x).cores = s.cores ∧ (s.setPg n x).delays = s.delays ∧ (s.setPg n x).ladles = s.ladles ∧
    (s.setPg n x).turn = s.turn ∧ (s.setPg n x).heatLast = s.heatLast ∧ (s.setPg n x).heatDue = s.heatDue ∧
    (s.setPg n x).pairLock = s.pairLock ∧ (s.setPg n x).mem = s.mem ∧ (s.setPg n x).journal = s.journal ∧
    (s.setPg n x).poison = s.poison ∧ (s.setPg n x).upsets = s.upsets ∧ (s.setPg n x).flash = s.flash ∧
    (s.setPg n x).tw = s.tw ∧ (s.setPg n x).twSys = s.twSys ∧ (s.setPg n x).host = s.host ∧ (s.setPg n x).assay = s.assay ∧
    (s.setPg n x).exposed = s.exposed ∧ (s.setPg n x).gpio = s.gpio ∧ (s.setPg n x).swi = s.swi ∧
    (s.setPg n x).supply = s.supply ∧ (s.setPg n x).rc = s.rc ∧ (s.setPg n x).timeBase = s.timeBase ∧
    (s.setPg n x).freeCount = s.freeCount ∧ (s.setPg n x).pending = s.pending := by
  repeat' constructor

@[simp] theorem State.setLaw_fields (s : State) (n : Nat) (x : LawState) :
    (s.setLaw n x).regs = s.regs ∧ (s.setLaw n x).chans = s.chans ∧ (s.setLaw n x).audit = s.audit ∧
    (s.setLaw n x).riserFree = s.riserFree ∧ (s.setLaw n x).assayTokens = s.assayTokens ∧ (s.setLaw n x).alarm = s.alarm ∧
    (s.setLaw n x).eccReported = s.eccReported ∧ (s.setLaw n x).snaps = s.snaps ∧ (s.setLaw n x).snapCross = s.snapCross ∧
    (s.setLaw n x).snapCopy = s.snapCopy ∧ (s.setLaw n x).captured = s.captured ∧ (s.setLaw n x).readers = s.readers ∧
    (s.setLaw n x).pushes = s.pushes ∧ (s.setLaw n x).decs = s.decs ∧ (s.setLaw n x).streams = s.streams ∧
    (s.setLaw n x).wcs = s.wcs ∧ (s.setLaw n x).rbFrom = s.rbFrom ∧ (s.setLaw n x).svs = s.svs ∧
    (s.setLaw n x).outs = s.outs ∧ (s.setLaw n x).pgs = s.pgs ∧ (s.setLaw n x).accs = s.accs ∧
    (s.setLaw n x).lawWords = s.lawWords ∧ (s.setLaw n x).lawProg = s.lawProg ∧ (s.setLaw n x).lawTable = s.lawTable ∧
    (s.setLaw n x).tableQ = s.tableQ ∧ (s.setLaw n x).ports = s.ports ∧ (s.setLaw n x).pairFault = s.pairFault ∧
    (s.setLaw n x).coreHalted = s.coreHalted ∧ (s.setLaw n x).cores = s.cores ∧ (s.setLaw n x).delays = s.delays ∧
    (s.setLaw n x).ladles = s.ladles ∧ (s.setLaw n x).turn = s.turn ∧ (s.setLaw n x).heatLast = s.heatLast ∧
    (s.setLaw n x).heatDue = s.heatDue ∧ (s.setLaw n x).pairLock = s.pairLock ∧ (s.setLaw n x).mem = s.mem ∧
    (s.setLaw n x).journal = s.journal ∧ (s.setLaw n x).poison = s.poison ∧ (s.setLaw n x).upsets = s.upsets ∧
    (s.setLaw n x).flash = s.flash ∧ (s.setLaw n x).tw = s.tw ∧ (s.setLaw n x).twSys = s.twSys ∧
    (s.setLaw n x).host = s.host ∧ (s.setLaw n x).assay = s.assay ∧ (s.setLaw n x).exposed = s.exposed ∧
    (s.setLaw n x).gpio = s.gpio ∧ (s.setLaw n x).swi = s.swi ∧ (s.setLaw n x).supply = s.supply ∧ (s.setLaw n x).rc = s.rc ∧
    (s.setLaw n x).timeBase = s.timeBase ∧ (s.setLaw n x).freeCount = s.freeCount ∧ (s.setLaw n x).pending = s.pending := by
  repeat' constructor

@[simp] theorem State.setLawWord_fields (s : State) (n i : Nat) (x : Cell) :
    (s.setLawWord n i x).regs = s.regs ∧ (s.setLawWord n i x).chans = s.chans ∧ (s.setLawWord n i x).audit = s.audit ∧
    (s.setLawWord n i x).riserFree = s.riserFree ∧ (s.setLawWord n i x).assayTokens = s.assayTokens ∧
    (s.setLawWord n i x).alarm = s.alarm ∧ (s.setLawWord n i x).eccReported = s.eccReported ∧
    (s.setLawWord n i x).snaps = s.snaps ∧ (s.setLawWord n i x).snapCross = s.snapCross ∧
    (s.setLawWord n i x).snapCopy = s.snapCopy ∧ (s.setLawWord n i x).captured = s.captured ∧
    (s.setLawWord n i x).readers = s.readers ∧ (s.setLawWord n i x).pushes = s.pushes ∧ (s.setLawWord n i x).decs = s.decs ∧
    (s.setLawWord n i x).streams = s.streams ∧ (s.setLawWord n i x).wcs = s.wcs ∧ (s.setLawWord n i x).rbFrom = s.rbFrom ∧
    (s.setLawWord n i x).svs = s.svs ∧ (s.setLawWord n i x).outs = s.outs ∧ (s.setLawWord n i x).pgs = s.pgs ∧
    (s.setLawWord n i x).accs = s.accs ∧ (s.setLawWord n i x).laws = s.laws ∧ (s.setLawWord n i x).lawProg = s.lawProg ∧
    (s.setLawWord n i x).lawTable = s.lawTable ∧ (s.setLawWord n i x).tableQ = s.tableQ ∧
    (s.setLawWord n i x).ports = s.ports ∧ (s.setLawWord n i x).pairFault = s.pairFault ∧
    (s.setLawWord n i x).coreHalted = s.coreHalted ∧ (s.setLawWord n i x).cores = s.cores ∧
    (s.setLawWord n i x).delays = s.delays ∧ (s.setLawWord n i x).ladles = s.ladles ∧ (s.setLawWord n i x).turn = s.turn ∧
    (s.setLawWord n i x).heatLast = s.heatLast ∧ (s.setLawWord n i x).heatDue = s.heatDue ∧
    (s.setLawWord n i x).pairLock = s.pairLock ∧ (s.setLawWord n i x).mem = s.mem ∧
    (s.setLawWord n i x).journal = s.journal ∧ (s.setLawWord n i x).poison = s.poison ∧
    (s.setLawWord n i x).upsets = s.upsets ∧ (s.setLawWord n i x).flash = s.flash ∧ (s.setLawWord n i x).tw = s.tw ∧
    (s.setLawWord n i x).twSys = s.twSys ∧ (s.setLawWord n i x).host = s.host ∧ (s.setLawWord n i x).assay = s.assay ∧
    (s.setLawWord n i x).exposed = s.exposed ∧ (s.setLawWord n i x).gpio = s.gpio ∧ (s.setLawWord n i x).swi = s.swi ∧
    (s.setLawWord n i x).supply = s.supply ∧ (s.setLawWord n i x).rc = s.rc ∧ (s.setLawWord n i x).timeBase = s.timeBase ∧
    (s.setLawWord n i x).freeCount = s.freeCount ∧ (s.setLawWord n i x).pending = s.pending := by
  repeat' constructor

@[simp] theorem State.setTableEntry_fields (s : State) (n : Nat) (x : BitVec 48) :
    (s.setTableEntry n x).regs = s.regs ∧ (s.setTableEntry n x).chans = s.chans ∧ (s.setTableEntry n x).audit = s.audit ∧
    (s.setTableEntry n x).riserFree = s.riserFree ∧ (s.setTableEntry n x).assayTokens = s.assayTokens ∧
    (s.setTableEntry n x).alarm = s.alarm ∧ (s.setTableEntry n x).eccReported = s.eccReported ∧
    (s.setTableEntry n x).snaps = s.snaps ∧ (s.setTableEntry n x).snapCross = s.snapCross ∧
    (s.setTableEntry n x).snapCopy = s.snapCopy ∧ (s.setTableEntry n x).captured = s.captured ∧
    (s.setTableEntry n x).readers = s.readers ∧ (s.setTableEntry n x).pushes = s.pushes ∧
    (s.setTableEntry n x).decs = s.decs ∧ (s.setTableEntry n x).streams = s.streams ∧ (s.setTableEntry n x).wcs = s.wcs ∧
    (s.setTableEntry n x).rbFrom = s.rbFrom ∧ (s.setTableEntry n x).svs = s.svs ∧ (s.setTableEntry n x).outs = s.outs ∧
    (s.setTableEntry n x).pgs = s.pgs ∧ (s.setTableEntry n x).accs = s.accs ∧ (s.setTableEntry n x).laws = s.laws ∧
    (s.setTableEntry n x).lawWords = s.lawWords ∧ (s.setTableEntry n x).lawProg = s.lawProg ∧
    (s.setTableEntry n x).tableQ = s.tableQ ∧ (s.setTableEntry n x).ports = s.ports ∧
    (s.setTableEntry n x).pairFault = s.pairFault ∧ (s.setTableEntry n x).coreHalted = s.coreHalted ∧
    (s.setTableEntry n x).cores = s.cores ∧ (s.setTableEntry n x).delays = s.delays ∧
    (s.setTableEntry n x).ladles = s.ladles ∧ (s.setTableEntry n x).turn = s.turn ∧
    (s.setTableEntry n x).heatLast = s.heatLast ∧ (s.setTableEntry n x).heatDue = s.heatDue ∧
    (s.setTableEntry n x).pairLock = s.pairLock ∧ (s.setTableEntry n x).mem = s.mem ∧
    (s.setTableEntry n x).journal = s.journal ∧ (s.setTableEntry n x).poison = s.poison ∧
    (s.setTableEntry n x).upsets = s.upsets ∧ (s.setTableEntry n x).flash = s.flash ∧ (s.setTableEntry n x).tw = s.tw ∧
    (s.setTableEntry n x).twSys = s.twSys ∧ (s.setTableEntry n x).host = s.host ∧ (s.setTableEntry n x).assay = s.assay ∧
    (s.setTableEntry n x).exposed = s.exposed ∧ (s.setTableEntry n x).gpio = s.gpio ∧ (s.setTableEntry n x).swi = s.swi ∧
    (s.setTableEntry n x).supply = s.supply ∧ (s.setTableEntry n x).rc = s.rc ∧ (s.setTableEntry n x).timeBase = s.timeBase ∧
    (s.setTableEntry n x).freeCount = s.freeCount ∧ (s.setTableEntry n x).pending = s.pending := by
  repeat' constructor

@[simp] theorem State.setCore_fields (s : State) (n : Nat) (x : Core) :
    (s.setCore n x).regs = s.regs ∧ (s.setCore n x).chans = s.chans ∧ (s.setCore n x).audit = s.audit ∧
    (s.setCore n x).riserFree = s.riserFree ∧ (s.setCore n x).assayTokens = s.assayTokens ∧ (s.setCore n x).alarm = s.alarm ∧
    (s.setCore n x).eccReported = s.eccReported ∧ (s.setCore n x).snaps = s.snaps ∧ (s.setCore n x).snapCross = s.snapCross ∧
    (s.setCore n x).snapCopy = s.snapCopy ∧ (s.setCore n x).captured = s.captured ∧ (s.setCore n x).readers = s.readers ∧
    (s.setCore n x).pushes = s.pushes ∧ (s.setCore n x).decs = s.decs ∧ (s.setCore n x).streams = s.streams ∧
    (s.setCore n x).wcs = s.wcs ∧ (s.setCore n x).rbFrom = s.rbFrom ∧ (s.setCore n x).svs = s.svs ∧
    (s.setCore n x).outs = s.outs ∧ (s.setCore n x).pgs = s.pgs ∧ (s.setCore n x).accs = s.accs ∧
    (s.setCore n x).laws = s.laws ∧ (s.setCore n x).lawWords = s.lawWords ∧ (s.setCore n x).lawProg = s.lawProg ∧
    (s.setCore n x).lawTable = s.lawTable ∧ (s.setCore n x).tableQ = s.tableQ ∧ (s.setCore n x).ports = s.ports ∧
    (s.setCore n x).pairFault = s.pairFault ∧ (s.setCore n x).coreHalted = s.coreHalted ∧ (s.setCore n x).delays = s.delays ∧
    (s.setCore n x).ladles = s.ladles ∧ (s.setCore n x).turn = s.turn ∧ (s.setCore n x).heatLast = s.heatLast ∧
    (s.setCore n x).heatDue = s.heatDue ∧ (s.setCore n x).pairLock = s.pairLock ∧ (s.setCore n x).mem = s.mem ∧
    (s.setCore n x).journal = s.journal ∧ (s.setCore n x).poison = s.poison ∧ (s.setCore n x).upsets = s.upsets ∧
    (s.setCore n x).flash = s.flash ∧ (s.setCore n x).tw = s.tw ∧ (s.setCore n x).twSys = s.twSys ∧
    (s.setCore n x).host = s.host ∧ (s.setCore n x).assay = s.assay ∧ (s.setCore n x).exposed = s.exposed ∧
    (s.setCore n x).gpio = s.gpio ∧ (s.setCore n x).swi = s.swi ∧ (s.setCore n x).supply = s.supply ∧
    (s.setCore n x).rc = s.rc ∧ (s.setCore n x).timeBase = s.timeBase ∧ (s.setCore n x).freeCount = s.freeCount ∧
    (s.setCore n x).pending = s.pending := by
  repeat' constructor

@[simp] theorem State.setLadle_fields (s : State) (n : Nat) (x : LadleState) :
    (s.setLadle n x).regs = s.regs ∧ (s.setLadle n x).chans = s.chans ∧ (s.setLadle n x).audit = s.audit ∧
    (s.setLadle n x).riserFree = s.riserFree ∧ (s.setLadle n x).assayTokens = s.assayTokens ∧
    (s.setLadle n x).alarm = s.alarm ∧ (s.setLadle n x).eccReported = s.eccReported ∧ (s.setLadle n x).snaps = s.snaps ∧
    (s.setLadle n x).snapCross = s.snapCross ∧ (s.setLadle n x).snapCopy = s.snapCopy ∧
    (s.setLadle n x).captured = s.captured ∧ (s.setLadle n x).readers = s.readers ∧ (s.setLadle n x).pushes = s.pushes ∧
    (s.setLadle n x).decs = s.decs ∧ (s.setLadle n x).streams = s.streams ∧ (s.setLadle n x).wcs = s.wcs ∧
    (s.setLadle n x).rbFrom = s.rbFrom ∧ (s.setLadle n x).svs = s.svs ∧ (s.setLadle n x).outs = s.outs ∧
    (s.setLadle n x).pgs = s.pgs ∧ (s.setLadle n x).accs = s.accs ∧ (s.setLadle n x).laws = s.laws ∧
    (s.setLadle n x).lawWords = s.lawWords ∧ (s.setLadle n x).lawProg = s.lawProg ∧ (s.setLadle n x).lawTable = s.lawTable ∧
    (s.setLadle n x).tableQ = s.tableQ ∧ (s.setLadle n x).ports = s.ports ∧ (s.setLadle n x).pairFault = s.pairFault ∧
    (s.setLadle n x).coreHalted = s.coreHalted ∧ (s.setLadle n x).cores = s.cores ∧ (s.setLadle n x).delays = s.delays ∧
    (s.setLadle n x).turn = s.turn ∧ (s.setLadle n x).heatLast = s.heatLast ∧ (s.setLadle n x).heatDue = s.heatDue ∧
    (s.setLadle n x).pairLock = s.pairLock ∧ (s.setLadle n x).mem = s.mem ∧ (s.setLadle n x).journal = s.journal ∧
    (s.setLadle n x).poison = s.poison ∧ (s.setLadle n x).upsets = s.upsets ∧ (s.setLadle n x).flash = s.flash ∧
    (s.setLadle n x).tw = s.tw ∧ (s.setLadle n x).twSys = s.twSys ∧ (s.setLadle n x).host = s.host ∧
    (s.setLadle n x).assay = s.assay ∧ (s.setLadle n x).exposed = s.exposed ∧ (s.setLadle n x).gpio = s.gpio ∧
    (s.setLadle n x).swi = s.swi ∧ (s.setLadle n x).supply = s.supply ∧ (s.setLadle n x).rc = s.rc ∧
    (s.setLadle n x).timeBase = s.timeBase ∧ (s.setLadle n x).freeCount = s.freeCount ∧ (s.setLadle n x).pending = s.pending := by
  repeat' constructor

@[simp] theorem State.setFlash_fields (s : State) (x : FlashState) :
    (s.setFlash x).regs = s.regs ∧ (s.setFlash x).chans = s.chans ∧ (s.setFlash x).audit = s.audit ∧
    (s.setFlash x).riserFree = s.riserFree ∧ (s.setFlash x).assayTokens = s.assayTokens ∧ (s.setFlash x).alarm = s.alarm ∧
    (s.setFlash x).eccReported = s.eccReported ∧ (s.setFlash x).snaps = s.snaps ∧ (s.setFlash x).snapCross = s.snapCross ∧
    (s.setFlash x).snapCopy = s.snapCopy ∧ (s.setFlash x).captured = s.captured ∧ (s.setFlash x).readers = s.readers ∧
    (s.setFlash x).pushes = s.pushes ∧ (s.setFlash x).decs = s.decs ∧ (s.setFlash x).streams = s.streams ∧
    (s.setFlash x).wcs = s.wcs ∧ (s.setFlash x).rbFrom = s.rbFrom ∧ (s.setFlash x).svs = s.svs ∧
    (s.setFlash x).outs = s.outs ∧ (s.setFlash x).pgs = s.pgs ∧ (s.setFlash x).accs = s.accs ∧ (s.setFlash x).laws = s.laws ∧
    (s.setFlash x).lawWords = s.lawWords ∧ (s.setFlash x).lawProg = s.lawProg ∧ (s.setFlash x).lawTable = s.lawTable ∧
    (s.setFlash x).tableQ = s.tableQ ∧ (s.setFlash x).ports = s.ports ∧ (s.setFlash x).pairFault = s.pairFault ∧
    (s.setFlash x).coreHalted = s.coreHalted ∧ (s.setFlash x).cores = s.cores ∧ (s.setFlash x).delays = s.delays ∧
    (s.setFlash x).ladles = s.ladles ∧ (s.setFlash x).turn = s.turn ∧ (s.setFlash x).heatLast = s.heatLast ∧
    (s.setFlash x).heatDue = s.heatDue ∧ (s.setFlash x).pairLock = s.pairLock ∧ (s.setFlash x).mem = s.mem ∧
    (s.setFlash x).journal = s.journal ∧ (s.setFlash x).poison = s.poison ∧ (s.setFlash x).upsets = s.upsets ∧
    (s.setFlash x).tw = s.tw ∧ (s.setFlash x).twSys = s.twSys ∧ (s.setFlash x).host = s.host ∧
    (s.setFlash x).assay = s.assay ∧ (s.setFlash x).exposed = s.exposed ∧ (s.setFlash x).gpio = s.gpio ∧
    (s.setFlash x).swi = s.swi ∧ (s.setFlash x).supply = s.supply ∧ (s.setFlash x).rc = s.rc ∧
    (s.setFlash x).timeBase = s.timeBase ∧ (s.setFlash x).freeCount = s.freeCount ∧ (s.setFlash x).pending = s.pending := by
  repeat' constructor

@[simp] theorem State.setPort_fields (s : State) (n : Nat) (x : TwPort) :
    (s.setPort n x).regs = s.regs ∧ (s.setPort n x).chans = s.chans ∧ (s.setPort n x).audit = s.audit ∧
    (s.setPort n x).riserFree = s.riserFree ∧ (s.setPort n x).assayTokens = s.assayTokens ∧ (s.setPort n x).alarm = s.alarm ∧
    (s.setPort n x).eccReported = s.eccReported ∧ (s.setPort n x).snaps = s.snaps ∧ (s.setPort n x).snapCross = s.snapCross ∧
    (s.setPort n x).snapCopy = s.snapCopy ∧ (s.setPort n x).captured = s.captured ∧ (s.setPort n x).readers = s.readers ∧
    (s.setPort n x).pushes = s.pushes ∧ (s.setPort n x).decs = s.decs ∧ (s.setPort n x).streams = s.streams ∧
    (s.setPort n x).wcs = s.wcs ∧ (s.setPort n x).rbFrom = s.rbFrom ∧ (s.setPort n x).svs = s.svs ∧
    (s.setPort n x).outs = s.outs ∧ (s.setPort n x).pgs = s.pgs ∧ (s.setPort n x).accs = s.accs ∧
    (s.setPort n x).laws = s.laws ∧ (s.setPort n x).lawWords = s.lawWords ∧ (s.setPort n x).lawProg = s.lawProg ∧
    (s.setPort n x).lawTable = s.lawTable ∧ (s.setPort n x).tableQ = s.tableQ ∧ (s.setPort n x).ports = s.ports ∧
    (s.setPort n x).pairFault = s.pairFault ∧ (s.setPort n x).coreHalted = s.coreHalted ∧ (s.setPort n x).cores = s.cores ∧
    (s.setPort n x).delays = s.delays ∧ (s.setPort n x).ladles = s.ladles ∧ (s.setPort n x).turn = s.turn ∧
    (s.setPort n x).heatLast = s.heatLast ∧ (s.setPort n x).heatDue = s.heatDue ∧ (s.setPort n x).pairLock = s.pairLock ∧
    (s.setPort n x).mem = s.mem ∧ (s.setPort n x).journal = s.journal ∧ (s.setPort n x).poison = s.poison ∧
    (s.setPort n x).upsets = s.upsets ∧ (s.setPort n x).flash = s.flash ∧ (s.setPort n x).twSys = s.twSys ∧
    (s.setPort n x).host = s.host ∧ (s.setPort n x).assay = s.assay ∧ (s.setPort n x).exposed = s.exposed ∧
    (s.setPort n x).gpio = s.gpio ∧ (s.setPort n x).swi = s.swi ∧ (s.setPort n x).supply = s.supply ∧
    (s.setPort n x).rc = s.rc ∧ (s.setPort n x).timeBase = s.timeBase ∧ (s.setPort n x).freeCount = s.freeCount ∧
    (s.setPort n x).pending = s.pending := by
  repeat' constructor

@[simp] theorem State.setHost_fields (s : State) (x : HostState) :
    (s.setHost x).regs = s.regs ∧ (s.setHost x).chans = s.chans ∧ (s.setHost x).audit = s.audit ∧
    (s.setHost x).riserFree = s.riserFree ∧ (s.setHost x).assayTokens = s.assayTokens ∧ (s.setHost x).alarm = s.alarm ∧
    (s.setHost x).eccReported = s.eccReported ∧ (s.setHost x).snaps = s.snaps ∧ (s.setHost x).snapCross = s.snapCross ∧
    (s.setHost x).snapCopy = s.snapCopy ∧ (s.setHost x).captured = s.captured ∧ (s.setHost x).readers = s.readers ∧
    (s.setHost x).pushes = s.pushes ∧ (s.setHost x).decs = s.decs ∧ (s.setHost x).streams = s.streams ∧
    (s.setHost x).wcs = s.wcs ∧ (s.setHost x).rbFrom = s.rbFrom ∧ (s.setHost x).svs = s.svs ∧ (s.setHost x).outs = s.outs ∧
    (s.setHost x).pgs = s.pgs ∧ (s.setHost x).accs = s.accs ∧ (s.setHost x).laws = s.laws ∧
    (s.setHost x).lawWords = s.lawWords ∧ (s.setHost x).lawProg = s.lawProg ∧ (s.setHost x).lawTable = s.lawTable ∧
    (s.setHost x).tableQ = s.tableQ ∧ (s.setHost x).ports = s.ports ∧ (s.setHost x).pairFault = s.pairFault ∧
    (s.setHost x).coreHalted = s.coreHalted ∧ (s.setHost x).cores = s.cores ∧ (s.setHost x).delays = s.delays ∧
    (s.setHost x).ladles = s.ladles ∧ (s.setHost x).turn = s.turn ∧ (s.setHost x).heatLast = s.heatLast ∧
    (s.setHost x).heatDue = s.heatDue ∧ (s.setHost x).pairLock = s.pairLock ∧ (s.setHost x).mem = s.mem ∧
    (s.setHost x).journal = s.journal ∧ (s.setHost x).poison = s.poison ∧ (s.setHost x).upsets = s.upsets ∧
    (s.setHost x).flash = s.flash ∧ (s.setHost x).tw = s.tw ∧ (s.setHost x).twSys = s.twSys ∧ (s.setHost x).assay = s.assay ∧
    (s.setHost x).exposed = s.exposed ∧ (s.setHost x).gpio = s.gpio ∧ (s.setHost x).swi = s.swi ∧
    (s.setHost x).supply = s.supply ∧ (s.setHost x).rc = s.rc ∧ (s.setHost x).timeBase = s.timeBase ∧
    (s.setHost x).freeCount = s.freeCount ∧ (s.setHost x).pending = s.pending := by
  repeat' constructor

@[simp] theorem State.setAssay_fields (s : State) (x : AssayState) :
    (s.setAssay x).regs = s.regs ∧ (s.setAssay x).chans = s.chans ∧ (s.setAssay x).audit = s.audit ∧
    (s.setAssay x).riserFree = s.riserFree ∧ (s.setAssay x).assayTokens = s.assayTokens ∧ (s.setAssay x).alarm = s.alarm ∧
    (s.setAssay x).eccReported = s.eccReported ∧ (s.setAssay x).snaps = s.snaps ∧ (s.setAssay x).snapCross = s.snapCross ∧
    (s.setAssay x).snapCopy = s.snapCopy ∧ (s.setAssay x).captured = s.captured ∧ (s.setAssay x).readers = s.readers ∧
    (s.setAssay x).pushes = s.pushes ∧ (s.setAssay x).decs = s.decs ∧ (s.setAssay x).streams = s.streams ∧
    (s.setAssay x).wcs = s.wcs ∧ (s.setAssay x).rbFrom = s.rbFrom ∧ (s.setAssay x).svs = s.svs ∧
    (s.setAssay x).outs = s.outs ∧ (s.setAssay x).pgs = s.pgs ∧ (s.setAssay x).accs = s.accs ∧ (s.setAssay x).laws = s.laws ∧
    (s.setAssay x).lawWords = s.lawWords ∧ (s.setAssay x).lawProg = s.lawProg ∧ (s.setAssay x).lawTable = s.lawTable ∧
    (s.setAssay x).tableQ = s.tableQ ∧ (s.setAssay x).ports = s.ports ∧ (s.setAssay x).pairFault = s.pairFault ∧
    (s.setAssay x).coreHalted = s.coreHalted ∧ (s.setAssay x).cores = s.cores ∧ (s.setAssay x).delays = s.delays ∧
    (s.setAssay x).ladles = s.ladles ∧ (s.setAssay x).turn = s.turn ∧ (s.setAssay x).heatLast = s.heatLast ∧
    (s.setAssay x).heatDue = s.heatDue ∧ (s.setAssay x).pairLock = s.pairLock ∧ (s.setAssay x).mem = s.mem ∧
    (s.setAssay x).journal = s.journal ∧ (s.setAssay x).poison = s.poison ∧ (s.setAssay x).upsets = s.upsets ∧
    (s.setAssay x).flash = s.flash ∧ (s.setAssay x).tw = s.tw ∧ (s.setAssay x).twSys = s.twSys ∧
    (s.setAssay x).host = s.host ∧ (s.setAssay x).exposed = s.exposed ∧ (s.setAssay x).gpio = s.gpio ∧
    (s.setAssay x).swi = s.swi ∧ (s.setAssay x).supply = s.supply ∧ (s.setAssay x).rc = s.rc ∧
    (s.setAssay x).timeBase = s.timeBase ∧ (s.setAssay x).freeCount = s.freeCount ∧ (s.setAssay x).pending = s.pending := by
  repeat' constructor

@[simp] theorem State.setSupply_fields (s : State) (x : SupplyState) :
    (s.setSupply x).regs = s.regs ∧ (s.setSupply x).chans = s.chans ∧ (s.setSupply x).audit = s.audit ∧
    (s.setSupply x).riserFree = s.riserFree ∧ (s.setSupply x).assayTokens = s.assayTokens ∧ (s.setSupply x).alarm = s.alarm ∧
    (s.setSupply x).eccReported = s.eccReported ∧ (s.setSupply x).snaps = s.snaps ∧ (s.setSupply x).snapCross = s.snapCross ∧
    (s.setSupply x).snapCopy = s.snapCopy ∧ (s.setSupply x).captured = s.captured ∧ (s.setSupply x).readers = s.readers ∧
    (s.setSupply x).pushes = s.pushes ∧ (s.setSupply x).decs = s.decs ∧ (s.setSupply x).streams = s.streams ∧
    (s.setSupply x).wcs = s.wcs ∧ (s.setSupply x).rbFrom = s.rbFrom ∧ (s.setSupply x).svs = s.svs ∧
    (s.setSupply x).outs = s.outs ∧ (s.setSupply x).pgs = s.pgs ∧ (s.setSupply x).accs = s.accs ∧
    (s.setSupply x).laws = s.laws ∧ (s.setSupply x).lawWords = s.lawWords ∧ (s.setSupply x).lawProg = s.lawProg ∧
    (s.setSupply x).lawTable = s.lawTable ∧ (s.setSupply x).tableQ = s.tableQ ∧ (s.setSupply x).ports = s.ports ∧
    (s.setSupply x).pairFault = s.pairFault ∧ (s.setSupply x).coreHalted = s.coreHalted ∧ (s.setSupply x).cores = s.cores ∧
    (s.setSupply x).delays = s.delays ∧ (s.setSupply x).ladles = s.ladles ∧ (s.setSupply x).turn = s.turn ∧
    (s.setSupply x).heatLast = s.heatLast ∧ (s.setSupply x).heatDue = s.heatDue ∧ (s.setSupply x).pairLock = s.pairLock ∧
    (s.setSupply x).mem = s.mem ∧ (s.setSupply x).journal = s.journal ∧ (s.setSupply x).poison = s.poison ∧
    (s.setSupply x).upsets = s.upsets ∧ (s.setSupply x).flash = s.flash ∧ (s.setSupply x).tw = s.tw ∧
    (s.setSupply x).twSys = s.twSys ∧ (s.setSupply x).host = s.host ∧ (s.setSupply x).assay = s.assay ∧
    (s.setSupply x).exposed = s.exposed ∧ (s.setSupply x).gpio = s.gpio ∧ (s.setSupply x).swi = s.swi ∧
    (s.setSupply x).rc = s.rc ∧ (s.setSupply x).timeBase = s.timeBase ∧ (s.setSupply x).freeCount = s.freeCount ∧
    (s.setSupply x).pending = s.pending := by
  repeat' constructor

@[simp] theorem State.tickRc_fields (s : State) :
    (s.tickRc).regs = s.regs ∧ (s.tickRc).chans = s.chans ∧ (s.tickRc).audit = s.audit ∧ (s.tickRc).riserFree = s.riserFree ∧
    (s.tickRc).assayTokens = s.assayTokens ∧ (s.tickRc).alarm = s.alarm ∧ (s.tickRc).eccReported = s.eccReported ∧
    (s.tickRc).snaps = s.snaps ∧ (s.tickRc).snapCross = s.snapCross ∧ (s.tickRc).snapCopy = s.snapCopy ∧
    (s.tickRc).captured = s.captured ∧ (s.tickRc).readers = s.readers ∧ (s.tickRc).pushes = s.pushes ∧
    (s.tickRc).decs = s.decs ∧ (s.tickRc).streams = s.streams ∧ (s.tickRc).wcs = s.wcs ∧ (s.tickRc).rbFrom = s.rbFrom ∧
    (s.tickRc).svs = s.svs ∧ (s.tickRc).outs = s.outs ∧ (s.tickRc).pgs = s.pgs ∧ (s.tickRc).accs = s.accs ∧
    (s.tickRc).laws = s.laws ∧ (s.tickRc).lawWords = s.lawWords ∧ (s.tickRc).lawProg = s.lawProg ∧
    (s.tickRc).lawTable = s.lawTable ∧ (s.tickRc).tableQ = s.tableQ ∧ (s.tickRc).ports = s.ports ∧
    (s.tickRc).pairFault = s.pairFault ∧ (s.tickRc).coreHalted = s.coreHalted ∧ (s.tickRc).cores = s.cores ∧
    (s.tickRc).delays = s.delays ∧ (s.tickRc).ladles = s.ladles ∧ (s.tickRc).turn = s.turn ∧
    (s.tickRc).heatLast = s.heatLast ∧ (s.tickRc).heatDue = s.heatDue ∧ (s.tickRc).pairLock = s.pairLock ∧
    (s.tickRc).mem = s.mem ∧ (s.tickRc).journal = s.journal ∧ (s.tickRc).poison = s.poison ∧ (s.tickRc).upsets = s.upsets ∧
    (s.tickRc).flash = s.flash ∧ (s.tickRc).tw = s.tw ∧ (s.tickRc).twSys = s.twSys ∧ (s.tickRc).host = s.host ∧
    (s.tickRc).assay = s.assay ∧ (s.tickRc).exposed = s.exposed ∧ (s.tickRc).gpio = s.gpio ∧ (s.tickRc).swi = s.swi ∧
    (s.tickRc).supply = s.supply ∧ (s.tickRc).freeCount = s.freeCount ∧ (s.tickRc).pending = s.pending := by
  repeat' constructor

@[simp] theorem State.spent_fields (s : State) :
    (s.spent).regs = s.regs ∧ (s.spent).chans = s.chans ∧ (s.spent).audit = s.audit ∧ (s.spent).riserFree = s.riserFree ∧
    (s.spent).assayTokens = s.assayTokens ∧ (s.spent).alarm = s.alarm ∧ (s.spent).eccReported = s.eccReported ∧
    (s.spent).snaps = s.snaps ∧ (s.spent).snapCross = s.snapCross ∧ (s.spent).snapCopy = s.snapCopy ∧
    (s.spent).captured = s.captured ∧ (s.spent).readers = s.readers ∧ (s.spent).pushes = s.pushes ∧ (s.spent).decs = s.decs ∧
    (s.spent).streams = s.streams ∧ (s.spent).wcs = s.wcs ∧ (s.spent).rbFrom = s.rbFrom ∧ (s.spent).svs = s.svs ∧
    (s.spent).outs = s.outs ∧ (s.spent).pgs = s.pgs ∧ (s.spent).accs = s.accs ∧ (s.spent).laws = s.laws ∧
    (s.spent).lawWords = s.lawWords ∧ (s.spent).lawProg = s.lawProg ∧ (s.spent).lawTable = s.lawTable ∧
    (s.spent).tableQ = s.tableQ ∧ (s.spent).ports = s.ports ∧ (s.spent).pairFault = s.pairFault ∧
    (s.spent).coreHalted = s.coreHalted ∧ (s.spent).cores = s.cores ∧ (s.spent).delays = s.delays ∧
    (s.spent).ladles = s.ladles ∧ (s.spent).turn = s.turn ∧ (s.spent).heatLast = s.heatLast ∧ (s.spent).heatDue = s.heatDue ∧
    (s.spent).pairLock = s.pairLock ∧ (s.spent).mem = s.mem ∧ (s.spent).journal = s.journal ∧ (s.spent).poison = s.poison ∧
    (s.spent).upsets = s.upsets ∧ (s.spent).flash = s.flash ∧ (s.spent).tw = s.tw ∧ (s.spent).twSys = s.twSys ∧
    (s.spent).host = s.host ∧ (s.spent).assay = s.assay ∧ (s.spent).exposed = s.exposed ∧ (s.spent).gpio = s.gpio ∧
    (s.spent).swi = s.swi ∧ (s.spent).supply = s.supply ∧ (s.spent).rc = s.rc ∧ (s.spent).timeBase = s.timeBase ∧
    (s.spent).pending = s.pending := by
  repeat' constructor

/-! ### Every other part -/

@[simp] theorem State.setReg_parts (s : State) (a : Nat) (w : Word) :
    (s.setReg a w).chan = s.chan ∧ (s.setReg a w).reader = s.reader ∧ (s.setReg a w).push = s.push ∧
    (s.setReg a w).dec = s.dec ∧ (s.setReg a w).path = s.path ∧ (s.setReg a w).stream = s.stream ∧
    (s.setReg a w).delayed = s.delayed ∧ (s.setReg a w).wc = s.wc ∧ (s.setReg a w).sv = s.sv ∧ (s.setReg a w).out = s.out ∧
    (s.setReg a w).pg = s.pg ∧ (s.setReg a w).law = s.law ∧ (s.setReg a w).lawWord = s.lawWord ∧
    (s.setReg a w).tableEntry = s.tableEntry ∧ (s.setReg a w).core = s.core ∧ (s.setReg a w).ladle = s.ladle ∧
    (s.setReg a w).port = s.port ∧ (s.setReg a w).alive = s.alive ∧ (s.setReg a w).runnerOn = s.runnerOn ∧
    (s.setReg a w).flashByte = s.flashByte ∧ (s.setReg a w).byteAt = s.byteAt := by
  repeat' constructor

@[simp] theorem State.setChan_parts (s : State) (n : Nat) (x : Channel) :
    (s.setChan n x).reg = s.reg ∧ (s.setChan n x).fld = s.fld ∧ (s.setChan n x).bit = s.bit ∧
    (s.setChan n x).reader = s.reader ∧ (s.setChan n x).push = s.push ∧ (s.setChan n x).dec = s.dec ∧
    (s.setChan n x).path = s.path ∧ (s.setChan n x).stream = s.stream ∧ (s.setChan n x).delayed = s.delayed ∧
    (s.setChan n x).wc = s.wc ∧ (s.setChan n x).sv = s.sv ∧ (s.setChan n x).out = s.out ∧ (s.setChan n x).pg = s.pg ∧
    (s.setChan n x).law = s.law ∧ (s.setChan n x).lawWord = s.lawWord ∧ (s.setChan n x).tableEntry = s.tableEntry ∧
    (s.setChan n x).core = s.core ∧ (s.setChan n x).ladle = s.ladle ∧ (s.setChan n x).port = s.port ∧
    (s.setChan n x).alive = s.alive ∧ (s.setChan n x).runnerOn = s.runnerOn ∧ (s.setChan n x).flashByte = s.flashByte ∧
    (s.setChan n x).byteAt = s.byteAt := by
  repeat' constructor

@[simp] theorem State.setReader_parts (s : State) (n : Nat) (x : Reader) :
    (s.setReader n x).reg = s.reg ∧ (s.setReader n x).fld = s.fld ∧ (s.setReader n x).bit = s.bit ∧
    (s.setReader n x).chan = s.chan ∧ (s.setReader n x).push = s.push ∧ (s.setReader n x).dec = s.dec ∧
    (s.setReader n x).path = s.path ∧ (s.setReader n x).stream = s.stream ∧ (s.setReader n x).delayed = s.delayed ∧
    (s.setReader n x).wc = s.wc ∧ (s.setReader n x).sv = s.sv ∧ (s.setReader n x).out = s.out ∧ (s.setReader n x).pg = s.pg ∧
    (s.setReader n x).law = s.law ∧ (s.setReader n x).lawWord = s.lawWord ∧ (s.setReader n x).tableEntry = s.tableEntry ∧
    (s.setReader n x).core = s.core ∧ (s.setReader n x).ladle = s.ladle ∧ (s.setReader n x).port = s.port ∧
    (s.setReader n x).alive = s.alive ∧ (s.setReader n x).runnerOn = s.runnerOn ∧ (s.setReader n x).flashByte = s.flashByte ∧
    (s.setReader n x).byteAt = s.byteAt := by
  repeat' constructor

@[simp] theorem State.setPush_parts (s : State) (n : Nat) (x : PushPorts) :
    (s.setPush n x).reg = s.reg ∧ (s.setPush n x).fld = s.fld ∧ (s.setPush n x).bit = s.bit ∧ (s.setPush n x).chan = s.chan ∧
    (s.setPush n x).reader = s.reader ∧ (s.setPush n x).dec = s.dec ∧ (s.setPush n x).path = s.path ∧
    (s.setPush n x).stream = s.stream ∧ (s.setPush n x).delayed = s.delayed ∧ (s.setPush n x).wc = s.wc ∧
    (s.setPush n x).sv = s.sv ∧ (s.setPush n x).out = s.out ∧ (s.setPush n x).pg = s.pg ∧ (s.setPush n x).law = s.law ∧
    (s.setPush n x).lawWord = s.lawWord ∧ (s.setPush n x).tableEntry = s.tableEntry ∧ (s.setPush n x).core = s.core ∧
    (s.setPush n x).ladle = s.ladle ∧ (s.setPush n x).port = s.port ∧ (s.setPush n x).alive = s.alive ∧
    (s.setPush n x).runnerOn = s.runnerOn ∧ (s.setPush n x).flashByte = s.flashByte ∧ (s.setPush n x).byteAt = s.byteAt := by
  repeat' constructor

@[simp] theorem State.setPath_parts (s : State) (n : Nat) (b : Bool) (x : PathState) :
    (s.setPath n b x).reg = s.reg ∧ (s.setPath n b x).fld = s.fld ∧ (s.setPath n b x).bit = s.bit ∧
    (s.setPath n b x).chan = s.chan ∧ (s.setPath n b x).reader = s.reader ∧ (s.setPath n b x).push = s.push ∧
    (s.setPath n b x).stream = s.stream ∧ (s.setPath n b x).delayed = s.delayed ∧ (s.setPath n b x).wc = s.wc ∧
    (s.setPath n b x).sv = s.sv ∧ (s.setPath n b x).out = s.out ∧ (s.setPath n b x).pg = s.pg ∧
    (s.setPath n b x).law = s.law ∧ (s.setPath n b x).lawWord = s.lawWord ∧ (s.setPath n b x).tableEntry = s.tableEntry ∧
    (s.setPath n b x).core = s.core ∧ (s.setPath n b x).ladle = s.ladle ∧ (s.setPath n b x).port = s.port ∧
    (s.setPath n b x).alive = s.alive ∧ (s.setPath n b x).runnerOn = s.runnerOn ∧ (s.setPath n b x).flashByte = s.flashByte ∧
    (s.setPath n b x).byteAt = s.byteAt := by
  repeat' constructor

@[simp] theorem State.setStream_parts (s : State) (n : Nat) (x : StreamState) :
    (s.setStream n x).reg = s.reg ∧ (s.setStream n x).fld = s.fld ∧ (s.setStream n x).bit = s.bit ∧
    (s.setStream n x).chan = s.chan ∧ (s.setStream n x).reader = s.reader ∧ (s.setStream n x).push = s.push ∧
    (s.setStream n x).dec = s.dec ∧ (s.setStream n x).path = s.path ∧ (s.setStream n x).delayed = s.delayed ∧
    (s.setStream n x).wc = s.wc ∧ (s.setStream n x).sv = s.sv ∧ (s.setStream n x).out = s.out ∧ (s.setStream n x).pg = s.pg ∧
    (s.setStream n x).law = s.law ∧ (s.setStream n x).lawWord = s.lawWord ∧ (s.setStream n x).tableEntry = s.tableEntry ∧
    (s.setStream n x).core = s.core ∧ (s.setStream n x).ladle = s.ladle ∧ (s.setStream n x).port = s.port ∧
    (s.setStream n x).alive = s.alive ∧ (s.setStream n x).runnerOn = s.runnerOn ∧ (s.setStream n x).flashByte = s.flashByte ∧
    (s.setStream n x).byteAt = s.byteAt := by
  repeat' constructor

@[simp] theorem State.setDelayed_parts (s : State) (n : Nat) (x : List DelayEntry) :
    (s.setDelayed n x).reg = s.reg ∧ (s.setDelayed n x).fld = s.fld ∧ (s.setDelayed n x).bit = s.bit ∧
    (s.setDelayed n x).chan = s.chan ∧ (s.setDelayed n x).reader = s.reader ∧ (s.setDelayed n x).push = s.push ∧
    (s.setDelayed n x).dec = s.dec ∧ (s.setDelayed n x).path = s.path ∧ (s.setDelayed n x).stream = s.stream ∧
    (s.setDelayed n x).wc = s.wc ∧ (s.setDelayed n x).sv = s.sv ∧ (s.setDelayed n x).out = s.out ∧
    (s.setDelayed n x).pg = s.pg ∧ (s.setDelayed n x).law = s.law ∧ (s.setDelayed n x).lawWord = s.lawWord ∧
    (s.setDelayed n x).tableEntry = s.tableEntry ∧ (s.setDelayed n x).core = s.core ∧ (s.setDelayed n x).ladle = s.ladle ∧
    (s.setDelayed n x).port = s.port ∧ (s.setDelayed n x).alive = s.alive ∧ (s.setDelayed n x).runnerOn = s.runnerOn ∧
    (s.setDelayed n x).flashByte = s.flashByte ∧ (s.setDelayed n x).byteAt = s.byteAt := by
  repeat' constructor

@[simp] theorem State.setWc_parts (s : State) (n : Nat) (x : WcState) :
    (s.setWc n x).reg = s.reg ∧ (s.setWc n x).fld = s.fld ∧ (s.setWc n x).bit = s.bit ∧ (s.setWc n x).chan = s.chan ∧
    (s.setWc n x).reader = s.reader ∧ (s.setWc n x).push = s.push ∧ (s.setWc n x).dec = s.dec ∧ (s.setWc n x).path = s.path ∧
    (s.setWc n x).stream = s.stream ∧ (s.setWc n x).delayed = s.delayed ∧ (s.setWc n x).sv = s.sv ∧
    (s.setWc n x).out = s.out ∧ (s.setWc n x).pg = s.pg ∧ (s.setWc n x).law = s.law ∧ (s.setWc n x).lawWord = s.lawWord ∧
    (s.setWc n x).tableEntry = s.tableEntry ∧ (s.setWc n x).core = s.core ∧ (s.setWc n x).ladle = s.ladle ∧
    (s.setWc n x).port = s.port ∧ (s.setWc n x).alive = s.alive ∧ (s.setWc n x).runnerOn = s.runnerOn ∧
    (s.setWc n x).flashByte = s.flashByte ∧ (s.setWc n x).byteAt = s.byteAt := by
  repeat' constructor

@[simp] theorem State.setSv_parts (s : State) (n : Nat) (x : SvState) :
    (s.setSv n x).reg = s.reg ∧ (s.setSv n x).fld = s.fld ∧ (s.setSv n x).bit = s.bit ∧ (s.setSv n x).chan = s.chan ∧
    (s.setSv n x).reader = s.reader ∧ (s.setSv n x).push = s.push ∧ (s.setSv n x).dec = s.dec ∧ (s.setSv n x).path = s.path ∧
    (s.setSv n x).stream = s.stream ∧ (s.setSv n x).delayed = s.delayed ∧ (s.setSv n x).wc = s.wc ∧
    (s.setSv n x).out = s.out ∧ (s.setSv n x).pg = s.pg ∧ (s.setSv n x).law = s.law ∧ (s.setSv n x).lawWord = s.lawWord ∧
    (s.setSv n x).tableEntry = s.tableEntry ∧ (s.setSv n x).core = s.core ∧ (s.setSv n x).ladle = s.ladle ∧
    (s.setSv n x).port = s.port ∧ (s.setSv n x).alive = s.alive ∧ (s.setSv n x).runnerOn = s.runnerOn ∧
    (s.setSv n x).flashByte = s.flashByte ∧ (s.setSv n x).byteAt = s.byteAt := by
  repeat' constructor

@[simp] theorem State.setOut_parts (s : State) (n : Nat) (x : OutState) :
    (s.setOut n x).reg = s.reg ∧ (s.setOut n x).fld = s.fld ∧ (s.setOut n x).bit = s.bit ∧ (s.setOut n x).chan = s.chan ∧
    (s.setOut n x).reader = s.reader ∧ (s.setOut n x).push = s.push ∧ (s.setOut n x).dec = s.dec ∧
    (s.setOut n x).path = s.path ∧ (s.setOut n x).stream = s.stream ∧ (s.setOut n x).delayed = s.delayed ∧
    (s.setOut n x).wc = s.wc ∧ (s.setOut n x).sv = s.sv ∧ (s.setOut n x).pg = s.pg ∧ (s.setOut n x).law = s.law ∧
    (s.setOut n x).lawWord = s.lawWord ∧ (s.setOut n x).tableEntry = s.tableEntry ∧ (s.setOut n x).core = s.core ∧
    (s.setOut n x).ladle = s.ladle ∧ (s.setOut n x).port = s.port ∧ (s.setOut n x).alive = s.alive ∧
    (s.setOut n x).runnerOn = s.runnerOn ∧ (s.setOut n x).flashByte = s.flashByte ∧ (s.setOut n x).byteAt = s.byteAt := by
  repeat' constructor

@[simp] theorem State.setPg_parts (s : State) (n : Nat) (x : PgState) :
    (s.setPg n x).reg = s.reg ∧ (s.setPg n x).fld = s.fld ∧ (s.setPg n x).bit = s.bit ∧ (s.setPg n x).chan = s.chan ∧
    (s.setPg n x).reader = s.reader ∧ (s.setPg n x).push = s.push ∧ (s.setPg n x).dec = s.dec ∧ (s.setPg n x).path = s.path ∧
    (s.setPg n x).stream = s.stream ∧ (s.setPg n x).delayed = s.delayed ∧ (s.setPg n x).wc = s.wc ∧ (s.setPg n x).sv = s.sv ∧
    (s.setPg n x).out = s.out ∧ (s.setPg n x).law = s.law ∧ (s.setPg n x).lawWord = s.lawWord ∧
    (s.setPg n x).tableEntry = s.tableEntry ∧ (s.setPg n x).core = s.core ∧ (s.setPg n x).ladle = s.ladle ∧
    (s.setPg n x).port = s.port ∧ (s.setPg n x).alive = s.alive ∧ (s.setPg n x).runnerOn = s.runnerOn ∧
    (s.setPg n x).flashByte = s.flashByte ∧ (s.setPg n x).byteAt = s.byteAt := by
  repeat' constructor

@[simp] theorem State.setLaw_parts (s : State) (n : Nat) (x : LawState) :
    (s.setLaw n x).reg = s.reg ∧ (s.setLaw n x).fld = s.fld ∧ (s.setLaw n x).bit = s.bit ∧ (s.setLaw n x).chan = s.chan ∧
    (s.setLaw n x).reader = s.reader ∧ (s.setLaw n x).push = s.push ∧ (s.setLaw n x).dec = s.dec ∧
    (s.setLaw n x).path = s.path ∧ (s.setLaw n x).stream = s.stream ∧ (s.setLaw n x).delayed = s.delayed ∧
    (s.setLaw n x).wc = s.wc ∧ (s.setLaw n x).sv = s.sv ∧ (s.setLaw n x).out = s.out ∧ (s.setLaw n x).pg = s.pg ∧
    (s.setLaw n x).lawWord = s.lawWord ∧ (s.setLaw n x).tableEntry = s.tableEntry ∧ (s.setLaw n x).core = s.core ∧
    (s.setLaw n x).ladle = s.ladle ∧ (s.setLaw n x).port = s.port ∧ (s.setLaw n x).alive = s.alive ∧
    (s.setLaw n x).runnerOn = s.runnerOn ∧ (s.setLaw n x).flashByte = s.flashByte ∧ (s.setLaw n x).byteAt = s.byteAt := by
  repeat' constructor

@[simp] theorem State.setLawWord_parts (s : State) (n i : Nat) (x : Cell) :
    (s.setLawWord n i x).reg = s.reg ∧ (s.setLawWord n i x).fld = s.fld ∧ (s.setLawWord n i x).bit = s.bit ∧
    (s.setLawWord n i x).chan = s.chan ∧ (s.setLawWord n i x).reader = s.reader ∧ (s.setLawWord n i x).push = s.push ∧
    (s.setLawWord n i x).dec = s.dec ∧ (s.setLawWord n i x).path = s.path ∧ (s.setLawWord n i x).stream = s.stream ∧
    (s.setLawWord n i x).delayed = s.delayed ∧ (s.setLawWord n i x).wc = s.wc ∧ (s.setLawWord n i x).sv = s.sv ∧
    (s.setLawWord n i x).out = s.out ∧ (s.setLawWord n i x).pg = s.pg ∧ (s.setLawWord n i x).law = s.law ∧
    (s.setLawWord n i x).tableEntry = s.tableEntry ∧ (s.setLawWord n i x).core = s.core ∧
    (s.setLawWord n i x).ladle = s.ladle ∧ (s.setLawWord n i x).port = s.port ∧ (s.setLawWord n i x).alive = s.alive ∧
    (s.setLawWord n i x).runnerOn = s.runnerOn ∧ (s.setLawWord n i x).flashByte = s.flashByte ∧
    (s.setLawWord n i x).byteAt = s.byteAt := by
  repeat' constructor

@[simp] theorem State.setTableEntry_parts (s : State) (n : Nat) (x : BitVec 48) :
    (s.setTableEntry n x).reg = s.reg ∧ (s.setTableEntry n x).fld = s.fld ∧ (s.setTableEntry n x).bit = s.bit ∧
    (s.setTableEntry n x).chan = s.chan ∧ (s.setTableEntry n x).reader = s.reader ∧ (s.setTableEntry n x).push = s.push ∧
    (s.setTableEntry n x).dec = s.dec ∧ (s.setTableEntry n x).path = s.path ∧ (s.setTableEntry n x).stream = s.stream ∧
    (s.setTableEntry n x).delayed = s.delayed ∧ (s.setTableEntry n x).wc = s.wc ∧ (s.setTableEntry n x).sv = s.sv ∧
    (s.setTableEntry n x).out = s.out ∧ (s.setTableEntry n x).pg = s.pg ∧ (s.setTableEntry n x).law = s.law ∧
    (s.setTableEntry n x).lawWord = s.lawWord ∧ (s.setTableEntry n x).core = s.core ∧ (s.setTableEntry n x).ladle = s.ladle ∧
    (s.setTableEntry n x).port = s.port ∧ (s.setTableEntry n x).alive = s.alive ∧
    (s.setTableEntry n x).runnerOn = s.runnerOn ∧ (s.setTableEntry n x).flashByte = s.flashByte ∧
    (s.setTableEntry n x).byteAt = s.byteAt := by
  repeat' constructor

@[simp] theorem State.setCore_parts (s : State) (n : Nat) (x : Core) :
    (s.setCore n x).reg = s.reg ∧ (s.setCore n x).fld = s.fld ∧ (s.setCore n x).bit = s.bit ∧ (s.setCore n x).chan = s.chan ∧
    (s.setCore n x).reader = s.reader ∧ (s.setCore n x).push = s.push ∧ (s.setCore n x).dec = s.dec ∧
    (s.setCore n x).path = s.path ∧ (s.setCore n x).stream = s.stream ∧ (s.setCore n x).delayed = s.delayed ∧
    (s.setCore n x).wc = s.wc ∧ (s.setCore n x).sv = s.sv ∧ (s.setCore n x).out = s.out ∧ (s.setCore n x).pg = s.pg ∧
    (s.setCore n x).law = s.law ∧ (s.setCore n x).lawWord = s.lawWord ∧ (s.setCore n x).tableEntry = s.tableEntry ∧
    (s.setCore n x).ladle = s.ladle ∧ (s.setCore n x).port = s.port ∧ (s.setCore n x).alive = s.alive ∧
    (s.setCore n x).runnerOn = s.runnerOn ∧ (s.setCore n x).flashByte = s.flashByte ∧ (s.setCore n x).byteAt = s.byteAt := by
  repeat' constructor

@[simp] theorem State.setLadle_parts (s : State) (n : Nat) (x : LadleState) :
    (s.setLadle n x).reg = s.reg ∧ (s.setLadle n x).fld = s.fld ∧ (s.setLadle n x).bit = s.bit ∧
    (s.setLadle n x).chan = s.chan ∧ (s.setLadle n x).reader = s.reader ∧ (s.setLadle n x).push = s.push ∧
    (s.setLadle n x).dec = s.dec ∧ (s.setLadle n x).path = s.path ∧ (s.setLadle n x).stream = s.stream ∧
    (s.setLadle n x).delayed = s.delayed ∧ (s.setLadle n x).wc = s.wc ∧ (s.setLadle n x).sv = s.sv ∧
    (s.setLadle n x).out = s.out ∧ (s.setLadle n x).pg = s.pg ∧ (s.setLadle n x).law = s.law ∧
    (s.setLadle n x).lawWord = s.lawWord ∧ (s.setLadle n x).tableEntry = s.tableEntry ∧ (s.setLadle n x).core = s.core ∧
    (s.setLadle n x).port = s.port ∧ (s.setLadle n x).alive = s.alive ∧ (s.setLadle n x).runnerOn = s.runnerOn ∧
    (s.setLadle n x).flashByte = s.flashByte ∧ (s.setLadle n x).byteAt = s.byteAt := by
  repeat' constructor

@[simp] theorem State.setFlash_parts (s : State) (x : FlashState) :
    (s.setFlash x).reg = s.reg ∧ (s.setFlash x).fld = s.fld ∧ (s.setFlash x).bit = s.bit ∧ (s.setFlash x).chan = s.chan ∧
    (s.setFlash x).reader = s.reader ∧ (s.setFlash x).push = s.push ∧ (s.setFlash x).dec = s.dec ∧
    (s.setFlash x).path = s.path ∧ (s.setFlash x).stream = s.stream ∧ (s.setFlash x).delayed = s.delayed ∧
    (s.setFlash x).wc = s.wc ∧ (s.setFlash x).sv = s.sv ∧ (s.setFlash x).out = s.out ∧ (s.setFlash x).pg = s.pg ∧
    (s.setFlash x).law = s.law ∧ (s.setFlash x).lawWord = s.lawWord ∧ (s.setFlash x).tableEntry = s.tableEntry ∧
    (s.setFlash x).core = s.core ∧ (s.setFlash x).ladle = s.ladle ∧ (s.setFlash x).port = s.port ∧
    (s.setFlash x).alive = s.alive ∧ (s.setFlash x).runnerOn = s.runnerOn := by
  repeat' constructor

@[simp] theorem State.setPort_parts (s : State) (n : Nat) (x : TwPort) :
    (s.setPort n x).reg = s.reg ∧ (s.setPort n x).fld = s.fld ∧ (s.setPort n x).bit = s.bit ∧ (s.setPort n x).chan = s.chan ∧
    (s.setPort n x).reader = s.reader ∧ (s.setPort n x).push = s.push ∧ (s.setPort n x).dec = s.dec ∧
    (s.setPort n x).path = s.path ∧ (s.setPort n x).stream = s.stream ∧ (s.setPort n x).delayed = s.delayed ∧
    (s.setPort n x).wc = s.wc ∧ (s.setPort n x).sv = s.sv ∧ (s.setPort n x).out = s.out ∧ (s.setPort n x).pg = s.pg ∧
    (s.setPort n x).law = s.law ∧ (s.setPort n x).lawWord = s.lawWord ∧ (s.setPort n x).tableEntry = s.tableEntry ∧
    (s.setPort n x).core = s.core ∧ (s.setPort n x).ladle = s.ladle ∧ (s.setPort n x).alive = s.alive ∧
    (s.setPort n x).runnerOn = s.runnerOn ∧ (s.setPort n x).flashByte = s.flashByte ∧ (s.setPort n x).byteAt = s.byteAt := by
  repeat' constructor

@[simp] theorem State.setHost_parts (s : State) (x : HostState) :
    (s.setHost x).reg = s.reg ∧ (s.setHost x).fld = s.fld ∧ (s.setHost x).bit = s.bit ∧ (s.setHost x).chan = s.chan ∧
    (s.setHost x).reader = s.reader ∧ (s.setHost x).push = s.push ∧ (s.setHost x).dec = s.dec ∧ (s.setHost x).path = s.path ∧
    (s.setHost x).stream = s.stream ∧ (s.setHost x).delayed = s.delayed ∧ (s.setHost x).wc = s.wc ∧ (s.setHost x).sv = s.sv ∧
    (s.setHost x).out = s.out ∧ (s.setHost x).pg = s.pg ∧ (s.setHost x).law = s.law ∧ (s.setHost x).lawWord = s.lawWord ∧
    (s.setHost x).tableEntry = s.tableEntry ∧ (s.setHost x).core = s.core ∧ (s.setHost x).ladle = s.ladle ∧
    (s.setHost x).port = s.port ∧ (s.setHost x).alive = s.alive ∧ (s.setHost x).runnerOn = s.runnerOn ∧
    (s.setHost x).flashByte = s.flashByte ∧ (s.setHost x).byteAt = s.byteAt := by
  repeat' constructor

@[simp] theorem State.setAssay_parts (s : State) (x : AssayState) :
    (s.setAssay x).reg = s.reg ∧ (s.setAssay x).fld = s.fld ∧ (s.setAssay x).bit = s.bit ∧ (s.setAssay x).chan = s.chan ∧
    (s.setAssay x).reader = s.reader ∧ (s.setAssay x).push = s.push ∧ (s.setAssay x).dec = s.dec ∧
    (s.setAssay x).path = s.path ∧ (s.setAssay x).stream = s.stream ∧ (s.setAssay x).delayed = s.delayed ∧
    (s.setAssay x).wc = s.wc ∧ (s.setAssay x).sv = s.sv ∧ (s.setAssay x).out = s.out ∧ (s.setAssay x).pg = s.pg ∧
    (s.setAssay x).law = s.law ∧ (s.setAssay x).lawWord = s.lawWord ∧ (s.setAssay x).tableEntry = s.tableEntry ∧
    (s.setAssay x).core = s.core ∧ (s.setAssay x).ladle = s.ladle ∧ (s.setAssay x).port = s.port ∧
    (s.setAssay x).alive = s.alive ∧ (s.setAssay x).runnerOn = s.runnerOn ∧ (s.setAssay x).flashByte = s.flashByte ∧
    (s.setAssay x).byteAt = s.byteAt := by
  repeat' constructor

@[simp] theorem State.setSupply_parts (s : State) (x : SupplyState) :
    (s.setSupply x).reg = s.reg ∧ (s.setSupply x).fld = s.fld ∧ (s.setSupply x).bit = s.bit ∧ (s.setSupply x).chan = s.chan ∧
    (s.setSupply x).reader = s.reader ∧ (s.setSupply x).push = s.push ∧ (s.setSupply x).dec = s.dec ∧
    (s.setSupply x).path = s.path ∧ (s.setSupply x).stream = s.stream ∧ (s.setSupply x).delayed = s.delayed ∧
    (s.setSupply x).wc = s.wc ∧ (s.setSupply x).sv = s.sv ∧ (s.setSupply x).out = s.out ∧ (s.setSupply x).pg = s.pg ∧
    (s.setSupply x).law = s.law ∧ (s.setSupply x).lawWord = s.lawWord ∧ (s.setSupply x).tableEntry = s.tableEntry ∧
    (s.setSupply x).core = s.core ∧ (s.setSupply x).ladle = s.ladle ∧ (s.setSupply x).port = s.port ∧
    (s.setSupply x).flashByte = s.flashByte ∧ (s.setSupply x).byteAt = s.byteAt := by
  repeat' constructor

@[simp] theorem State.tickRc_parts (s : State) :
    (s.tickRc).reg = s.reg ∧ (s.tickRc).fld = s.fld ∧ (s.tickRc).bit = s.bit ∧ (s.tickRc).chan = s.chan ∧
    (s.tickRc).reader = s.reader ∧ (s.tickRc).push = s.push ∧ (s.tickRc).dec = s.dec ∧ (s.tickRc).path = s.path ∧
    (s.tickRc).stream = s.stream ∧ (s.tickRc).delayed = s.delayed ∧ (s.tickRc).wc = s.wc ∧ (s.tickRc).sv = s.sv ∧
    (s.tickRc).out = s.out ∧ (s.tickRc).pg = s.pg ∧ (s.tickRc).law = s.law ∧ (s.tickRc).lawWord = s.lawWord ∧
    (s.tickRc).tableEntry = s.tableEntry ∧ (s.tickRc).core = s.core ∧ (s.tickRc).ladle = s.ladle ∧ (s.tickRc).port = s.port ∧
    (s.tickRc).alive = s.alive ∧ (s.tickRc).runnerOn = s.runnerOn ∧ (s.tickRc).flashByte = s.flashByte ∧
    (s.tickRc).byteAt = s.byteAt := by
  repeat' constructor

@[simp] theorem State.spent_parts (s : State) :
    (s.spent).reg = s.reg ∧ (s.spent).fld = s.fld ∧ (s.spent).bit = s.bit ∧ (s.spent).chan = s.chan ∧
    (s.spent).reader = s.reader ∧ (s.spent).push = s.push ∧ (s.spent).dec = s.dec ∧ (s.spent).path = s.path ∧
    (s.spent).stream = s.stream ∧ (s.spent).delayed = s.delayed ∧ (s.spent).wc = s.wc ∧ (s.spent).sv = s.sv ∧
    (s.spent).out = s.out ∧ (s.spent).pg = s.pg ∧ (s.spent).law = s.law ∧ (s.spent).lawWord = s.lawWord ∧
    (s.spent).tableEntry = s.tableEntry ∧ (s.spent).core = s.core ∧ (s.spent).ladle = s.ladle ∧ (s.spent).port = s.port ∧
    (s.spent).alive = s.alive ∧ (s.spent).runnerOn = s.runnerOn ∧ (s.spent).flashByte = s.flashByte ∧
    (s.spent).byteAt = s.byteAt := by
  repeat' constructor

/-! ### A part after a write of it -/

@[simp] theorem State.chan_setChan (s : State) (n : Nat) (x : Channel) : (s.setChan n x).chan n = x :=
  mapGet_mapInsert_self _ _ _ _

theorem State.chan_setChan_of_ne (s : State) {n m : Nat} (x : Channel) (h : m ≠ n) : (s.setChan n x).chan m = s.chan m :=
  mapGet_mapInsert_of_ne _ _ _ h

@[simp] theorem State.reader_setReader (s : State) (n : Nat) (x : Reader) : (s.setReader n x).reader n = x :=
  mapGet_mapInsert_self _ _ _ _

theorem State.reader_setReader_of_ne (s : State) {n m : Nat} (x : Reader) (h : m ≠ n) : (s.setReader n x).reader m = s.reader m :=
  mapGet_mapInsert_of_ne _ _ _ h

@[simp] theorem State.push_setPush (s : State) (n : Nat) (x : PushPorts) : (s.setPush n x).push n = x :=
  mapGet_mapInsert_self _ _ _ _

theorem State.push_setPush_of_ne (s : State) {n m : Nat} (x : PushPorts) (h : m ≠ n) : (s.setPush n x).push m = s.push m :=
  mapGet_mapInsert_of_ne _ _ _ h

@[simp] theorem State.stream_setStream (s : State) (n : Nat) (x : StreamState) : (s.setStream n x).stream n = x :=
  mapGet_mapInsert_self _ _ _ _

theorem State.stream_setStream_of_ne (s : State) {n m : Nat} (x : StreamState) (h : m ≠ n) : (s.setStream n x).stream m = s.stream m :=
  mapGet_mapInsert_of_ne _ _ _ h

@[simp] theorem State.wc_setWc (s : State) (n : Nat) (x : WcState) : (s.setWc n x).wc n = x :=
  mapGet_mapInsert_self _ _ _ _

theorem State.wc_setWc_of_ne (s : State) {n m : Nat} (x : WcState) (h : m ≠ n) : (s.setWc n x).wc m = s.wc m :=
  mapGet_mapInsert_of_ne _ _ _ h

@[simp] theorem State.sv_setSv (s : State) (n : Nat) (x : SvState) : (s.setSv n x).sv n = x :=
  mapGet_mapInsert_self _ _ _ _

theorem State.sv_setSv_of_ne (s : State) {n m : Nat} (x : SvState) (h : m ≠ n) : (s.setSv n x).sv m = s.sv m :=
  mapGet_mapInsert_of_ne _ _ _ h

@[simp] theorem State.out_setOut (s : State) (n : Nat) (x : OutState) : (s.setOut n x).out n = x :=
  mapGet_mapInsert_self _ _ _ _

theorem State.out_setOut_of_ne (s : State) {n m : Nat} (x : OutState) (h : m ≠ n) : (s.setOut n x).out m = s.out m :=
  mapGet_mapInsert_of_ne _ _ _ h

@[simp] theorem State.pg_setPg (s : State) (n : Nat) (x : PgState) : (s.setPg n x).pg n = x :=
  mapGet_mapInsert_self _ _ _ _

theorem State.pg_setPg_of_ne (s : State) {n m : Nat} (x : PgState) (h : m ≠ n) : (s.setPg n x).pg m = s.pg m :=
  mapGet_mapInsert_of_ne _ _ _ h

@[simp] theorem State.law_setLaw (s : State) (n : Nat) (x : LawState) : (s.setLaw n x).law n = x :=
  mapGet_mapInsert_self _ _ _ _

theorem State.law_setLaw_of_ne (s : State) {n m : Nat} (x : LawState) (h : m ≠ n) : (s.setLaw n x).law m = s.law m :=
  mapGet_mapInsert_of_ne _ _ _ h

@[simp] theorem State.ladle_setLadle (s : State) (n : Nat) (x : LadleState) : (s.setLadle n x).ladle n = x :=
  mapGet_mapInsert_self _ _ _ _

theorem State.ladle_setLadle_of_ne (s : State) {n m : Nat} (x : LadleState) (h : m ≠ n) : (s.setLadle n x).ladle m = s.ladle m :=
  mapGet_mapInsert_of_ne _ _ _ h

@[simp] theorem State.port_setPort (s : State) (n : Nat) (x : TwPort) : (s.setPort n x).port n = x :=
  mapGet_mapInsert_self _ _ _ _

theorem State.port_setPort_of_ne (s : State) {n m : Nat} (x : TwPort) (h : m ≠ n) : (s.setPort n x).port m = s.port m :=
  mapGet_mapInsert_of_ne _ _ _ h

@[simp] theorem State.setFlash_self (s : State) (x : FlashState) : (s.setFlash x).flash = x := rfl
@[simp] theorem State.setHost_self (s : State) (x : HostState) : (s.setHost x).host = x := rfl
@[simp] theorem State.setAssay_self (s : State) (x : AssayState) : (s.setAssay x).assay = x := rfl
@[simp] theorem State.setSupply_self (s : State) (x : SupplyState) : (s.setSupply x).supply = x := rfl

@[simp] theorem State.path_setPath (s : State) (n : Nat) (b : Bool) (x : PathState) : (s.setPath n b x).path n b = x := by
  unfold State.setPath State.path State.dec
  simp only [mapGet_mapInsert_self]
  cases b <;> rfl

/-- The other path of the same decimator stays. -/
@[simp] theorem State.path_setPath_other (s : State) (n : Nat) (b : Bool) (x : PathState) :
    (s.setPath n b x).path n (!b) = s.path n (!b) := by
  unfold State.setPath State.path State.dec
  simp only [mapGet_mapInsert_self]
  cases b <;> rfl

theorem State.path_setPath_of_ne (s : State) {n m : Nat} (b e : Bool) (x : PathState) (h : m ≠ n) :
    (s.setPath n b x).path m e = s.path m e := by
  unfold State.setPath State.path State.dec
  simp only [mapGet_mapInsert_of_ne _ _ _ h]

@[simp] theorem State.lawWord_setLawWord (s : State) (n w : Nat) (v : Cell) : (s.setLawWord n w v).lawWord n w = v :=
  mapGet_mapSet_self _ _ _ _

theorem State.lawWord_setLawWord_of_ne (s : State) {n m w u : Nat} (v : Cell) (h : 256 * m + u ≠ 256 * n + w) :
    (s.setLawWord n w v).lawWord m u = s.lawWord m u := mapGet_mapSet_of_ne _ _ _ h

@[simp] theorem State.tableEntry_setTableEntry (s : State) (i : Nat) (v : BitVec 48) :
    (s.setTableEntry i v).tableEntry i = v := mapGet_mapSet_self _ _ _ _

theorem State.tableEntry_setTableEntry_of_ne (s : State) {i j : Nat} (v : BitVec 48) (h : j ≠ i) :
    (s.setTableEntry i v).tableEntry j = s.tableEntry j := mapGet_mapSet_of_ne _ _ _ h

/-! ### Registers -/

/-- A register reads as it was written, with zero in its reserved bits (R15). -/
@[simp] theorem State.reg_setReg (s : State) (a : Nat) (w : Word) : (s.setReg a w).reg a = w &&& definedMask a :=
  mapGet_mapSet_self _ _ _ _

theorem State.reg_setReg_of_ne (s : State) {a b : Nat} (w : Word) (h : b ≠ a) : (s.setReg a w).reg b = s.reg b :=
  mapGet_mapSet_of_ne _ _ _ h

/-- The operations that write fields, flags and counters write registers and nothing else. -/
def State.OnlyRegs (s t : State) : Prop := t = { s with regs := t.regs }

theorem State.onlyRegs_refl (s : State) : s.OnlyRegs s := rfl

theorem State.OnlyRegs.trans {s t u : State} (h : s.OnlyRegs t) (g : t.OnlyRegs u) : s.OnlyRegs u := by
  unfold State.OnlyRegs at *
  rw [g, h]

theorem State.setReg_onlyRegs (s : State) (a : Nat) (w : Word) : s.OnlyRegs (s.setReg a w) := rfl
theorem State.setFld_onlyRegs (s : State) (a : Nat) (f : Fld) (v : Nat) : s.OnlyRegs (s.setFld a f v) := rfl
theorem State.setBit_onlyRegs (s : State) (a : Nat) (f : Fld) : s.OnlyRegs (s.setBit a f) := rfl
theorem State.clrBit_onlyRegs (s : State) (a : Nat) (f : Fld) : s.OnlyRegs (s.clrBit a f) := rfl

theorem State.putBit_onlyRegs (s : State) (a : Nat) (f : Fld) (b : Bool) : s.OnlyRegs (s.putBit a f b) := by
  cases b <;> rfl

theorem State.setBitIf_onlyRegs (s : State) (b : Bool) (a : Nat) (f : Fld) : s.OnlyRegs (s.setBitIf b a f) := by
  cases b <;> rfl

theorem State.countEvent_onlyRegs (s : State) (a fullAt : Nat) (full : Fld) : s.OnlyRegs (s.countEvent a fullAt full) := by
  unfold State.countEvent
  refine State.OnlyRegs.trans ?_ (State.setBitIf_onlyRegs _ _ _ _)
  split
  · exact State.setReg_onlyRegs _ _ _
  · exact State.onlyRegs_refl _

theorem State.countSat_onlyRegs (s : State) (a : Nat) (f : Fld) : s.OnlyRegs (s.countSat a f) := by
  unfold State.countSat
  dsimp only
  split
  · exact State.setFld_onlyRegs _ _ _ _
  · exact State.onlyRegs_refl _

theorem State.countWrap_onlyRegs (s : State) (a : Nat) (f : Fld) : s.OnlyRegs (s.countWrap a f) :=
  State.setFld_onlyRegs _ _ _ _

/-- A field of a register other than the one written stays. -/
theorem State.fld_setReg_of_ne (s : State) {a b : Nat} (w : Word) (f : Fld) (h : b ≠ a) :
    (s.setReg a w).fld b f = s.fld b f := congrArg (fieldOf · f) (s.reg_setReg_of_ne w h)

theorem State.fld_setFld_of_ne (s : State) {a b : Nat} (f g : Fld) (v : Nat) (h : b ≠ a) :
    (s.setFld a f v).fld b g = s.fld b g := s.fld_setReg_of_ne _ g h

theorem State.bit_setFld_of_ne (s : State) {a b : Nat} (f g : Fld) (v : Nat) (h : b ≠ a) :
    (s.setFld a f v).bit b g = s.bit b g := congrArg (fun n => decide (n ≠ 0)) (s.fld_setFld_of_ne f g v h)

/-! ### Bytes of memory -/

/-- A byte of a memory that stores reach reads as it was written. -/
theorem State.byteAt_putByte (s : State) (a : Nat) (b : Byte) (h : regionOf a ≠ .flash) : (s.putByte a b).byteAt a = b := by
  cases e : regionOf a with
  | flash => exact absurd e h
  | _ => simp [State.putByte, State.byteAt, e]

/-- Every other byte stays. -/
theorem State.byteAt_putByte_of_ne (s : State) {a x : Nat} (b : Byte) (h : x ≠ a) : (s.putByte a b).byteAt x = s.byteAt x := by
  unfold State.putByte
  split
  · rename_i ja
    unfold State.byteAt
    split
    · rfl
    · rename_i jx
      have e : x - 0x48000000 ≠ a - 0x48000000 := by
        unfold regionOf at ja jx
        split_ifs at ja jx
        omega
      exact mapGet_mapSet_of_ne _ _ _ e
    · rfl
  · unfold State.byteAt
    split
    · rfl
    · rfl
    · exact mapGet_mapSet_of_ne _ _ _ h

/-- Bytes outside those written stay. -/
theorem State.byteAt_putBytes_of_outside (s : State) (a x : Nat) (bs : List Byte) (h : x < a ∨ a + bs.length ≤ x) :
    (s.putBytes a bs).byteAt x = s.byteAt x := by
  induction bs generalizing s a with
  | nil => rfl
  | cons b t ih =>
    simp only [List.length_cons] at h
    unfold State.putBytes
    rw [ih _ _ (by omega), State.byteAt_putByte_of_ne _ _ (by omega)]

/-- The bytes written read back. -/
theorem State.byteAt_putBytes (s : State) (a i : Nat) (bs : List Byte) (hi : i < bs.length)
    (h : ∀ j < bs.length, regionOf (a + j) ≠ .flash) : (s.putBytes a bs).byteAt (a + i) = bs[i] := by
  induction bs generalizing s a i with
  | nil => exact absurd hi (Nat.not_lt_zero _)
  | cons b t ih =>
    unfold State.putBytes
    cases i with
    | zero =>
      rw [State.byteAt_putBytes_of_outside _ _ _ _ (by omega)]
      exact State.byteAt_putByte _ _ _ (h 0 hi)
    | succ k =>
      have := ih (s.putByte a b) (a + 1) k (by simpa using hi) (fun j hj => by
        have := h (j + 1) (by simp; omega)
        rwa [show a + (j + 1) = a + 1 + j by omega] at this)
      rw [show a + (k + 1) = a + 1 + k by omega, this]
      rfl

/-- A write of memory changes memory and the journal only. -/
theorem State.putBytes_frame (s : State) (a : Nat) (bs : List Byte) :
    s.putBytes a bs = { s with mem := (s.putBytes a bs).mem, journal := (s.putBytes a bs).journal } := by
  induction bs generalizing s a with
  | nil => rfl
  | cons b t ih =>
    unfold State.putBytes
    rw [ih]
    unfold State.putByte
    split <;> rfl

end Sys2Proof.Machine
end

