-- ==== Sys2Proof/WellFormed.lean ====
section
/-! DEFINITION. The operand values that a command can carry. A command outside these ranges names an address, a ball, an
endpoint or a message that the manual does not have. -/

namespace Sys2Proof

/-- `a ≤ x < b`. -/
def inRange (a b x : Nat) : Bool := decide (a ≤ x) && decide (x < b)

/-- A producer endpoint of R182. -/
def producerCode (x : Nat) : Bool :=
  inRange 0 0x140 x || inRange 0x1C0 0x270 x || inRange 0x2A0 0x2BC x || inRange 0x2C0 0x300 x || inRange 0x388 0x390 x

/-- A consumer endpoint of R182. -/
def consumerCode (x : Nat) : Bool :=
  inRange 0x140 0x1C0 x || inRange 0x270 0x2A0 x || inRange 0x2BC 0x2C0 x || inRange 0x300 0x388 x

/-- A byte address of the shared SRAM or the DRAM that starts an ECC word (R329, R335). -/
def sharedWord (a : Nat) : Bool :=
  decide (a % 8 = 0) &&
    (inRange 0x10000000 0x11000000 a || inRange 0x100000000 0x180000000 a)

/-- A byte address that starts an ECC word, or a flash line, of a memory: the TCMs at their windows, the flash, the journal, the shared
SRAM or the DRAM (R262, R335, R382, R398). -/
def eccWord (a : Nat) : Bool :=
  (decide (a % 8 = 0) && (inRange 0xF0000000 0xF0400000 a || inRange 0x48000000 0x48100000 a)) ||
    (decide (a % 64 = 0) && inRange 0x40000000 0x44000000 a) || sharedWord a

/-- A grid position of R59. -/
def gridBall (b : Nat) : Bool := decide (b < 1936)

/-- A message payload is at most 264 bytes long (R439). -/
def payloadFits (req : MgmtReq) : Bool := decide (req.payload.length ≤ 264)

/-- The operands of a command lie in their ranges. -/
def Instr.wellFormed : Instr → Bool
  | .registerWrite _ addr _ => decide (addr % 4 = 0) && inRange 0x80000000 0x100000000 addr
  | .currentLimitTrip ball _ => gridBall ball
  | .currentLimitChange ball _ _ => gridBall ball
  | .limitTimeClear ball => gridBall ball
  | .thermalScan raws => decide (raws.length = 8)
  | .tokenIssue endpoint => producerCode endpoint.toNat
  | .tokenAccept endpoint => consumerCode endpoint.toNat
  | .swiftResult _ cells _ => decide (cells ≠ [])
  | .fineResult _ cells _ => decide (cells ≠ [])
  | .scrub addr (.struck _) => eccWord addr
  | .scrub addr _ => sharedWord addr
  | .tapSamplePreload balls => balls.all (fun p => gridBall p.1)
  | .mgmtOpen _ req => payloadFits req
  | .mgmtClose _ req => payloadFits req
  | .mgmtStatus _ req => payloadFits req
  | .mgmtRead _ req => payloadFits req
  | .mgmtWrite _ req => payloadFits req
  | .mgmtReset _ req => payloadFits req
  | .mgmtSetKey _ req => payloadFits req
  | .mgmtForward _ req => payloadFits req
  | .mgmtBadCode _ code req => payloadFits req && (decide (code = 0) || decide (8 < code.toNat))
  | .replyGo _ len => decide (len.toNat ≤ 256)
  | _ => true

end Sys2Proof
end

