-- ==== Sys2Proof/Tests/Slice0.lean ====
section
/-! SUPPORT. The author's own tests: ill-formed commands that the check refuses, steps on small states with results taken from the
spec's tables, and for every statement that has hypotheses a concrete state and operands that meet them, clause by clause. -/

namespace Sys2Proof.Tests

open Sys2Proof.Machine

/-! ### Small states -/

/-- The reserved bits of the listed registers are zero. -/
def fits (s : State) : Bool := s.regs.all (fun p => decide (p.2 &&& ~~~definedMask p.1 = 0))

theorem reserved_of_fits {s : State} (h : fits s = true) : Regs.reserved s := by
  intro a
  unfold fits at h
  unfold State.reg
  generalize s.regs = m at h
  induction m with
  | nil => exact resetWord_reserved a
  | cons p t ih =>
    simp only [List.all_cons, Bool.and_eq_true, decide_eq_true_eq] at h
    unfold mapGet
    split
    · rename_i e
      exact e ▸ h.1
    · exact ih h.2

theorem writable_of {s : State} {a : Nat} (h : (s.runnerOn && !s.basicAt a && fits s) = true) : s.writable a := by
  simp only [Bool.and_eq_true, Bool.not_eq_true'] at h
  exact ⟨h.1.1, h.1.2, reserved_of_fits h.2⟩

/-- A device that runs. -/
def powered : State := { State.reset with supply := { SupplyState.reset with phase := .good, committed := true, vin := true } }

/-- The stack cells of a list, top first, from address `p`. -/
def cellsFrom (p : Nat) : List Cell → SMap (BitVec 64)
  | [] => []
  | v :: vs => (p, wide v) :: cellsFrom (p + 8) vs

/-- A core that runs at 0x100 with the cells `l`, top first, on its supervisor stack. -/
def coreWith (l : List Cell) : Core :=
  { Core.reset with
    started := true
    pc := 0x100
    ds := { ptr := BitVec.ofNat 32 (0x3F000 - 8 * l.length), lo := 0x3E000, hi := 0x3F000,
            cells := cellsFrom (0x3F000 - 8 * l.length) l } }

/-- Core 0 runs with the cells `l`. -/
def runs (l : List Cell) : State := powered.setCore 0 (coreWith l)

def base : State := runs [1, 2, 3, 4]

/-- A supervisor core, and a management port. -/
def sup : Requester := .core 0 false

/-- The state after a command, for reading it. -/
def next (i : Instr) (s : State) : State :=
  match exec i s with
  | .next t => t
  | _ => s

/-- The bits of a register changed, as a table of them. -/
def sets (s : State) : List (Nat × Word) → State
  | [] => s
  | p :: t => sets (s.setReg p.1 p.2) t

/-! ### Ill-formed commands -/

theorem test_wellFormed_accepts : (Instr.registerWrite sup A.SUP_VIN_WARN 5).wellFormed = true ∧
    (Instr.scrub 0x10000008 .corrected).wellFormed = true ∧ (Instr.tokenIssue 0).wellFormed = true ∧
    (Instr.tokenAccept 0x140).wellFormed = true ∧ (Instr.currentLimitTrip 1935 1).wellFormed = true := by decide

theorem test_wellFormed_registerAddress : (Instr.registerWrite sup 0x80000002 5).wellFormed = false ∧
    (Instr.registerWrite sup 0x1000 5).wellFormed = false ∧ (Instr.registerWrite sup 0x100000000 5).wellFormed = false := by decide

theorem test_wellFormed_ball : (Instr.currentLimitTrip 1936 1).wellFormed = false ∧
    (Instr.currentLimitChange 1936 true 1).wellFormed = false ∧ (Instr.limitTimeClear 1936).wellFormed = false ∧
    (Instr.tapSamplePreload [(3, true), (1936, true)]).wellFormed = false := by decide

theorem test_wellFormed_lists : (Instr.thermalScan [1, 2, 3]).wellFormed = false ∧
    (Instr.swiftResult 0 [] []).wellFormed = false ∧ (Instr.fineResult 0 [] []).wellFormed = false := by decide

theorem test_wellFormed_endpoints : (Instr.tokenIssue 0x140).wellFormed = false ∧ (Instr.tokenAccept 0).wellFormed = false ∧
    (Instr.tokenIssue 0x390).wellFormed = false ∧ (Instr.tokenAccept 0x390).wellFormed = false := by decide

theorem test_wellFormed_scrub : (Instr.scrub 0x10000004 .corrected).wellFormed = false ∧
    (Instr.scrub 0x20000 .corrected).wellFormed = false := by decide

/-- A request with header, payload and CRC-32 as R439 lays them out, sent to UDP port 7160 of 192.168.0.60. -/
def request (code : Nat) (p : List Byte) : MgmtReq :=
  { tag := 7, length := BitVec.ofNat 16 p.length, result := 0, zeros := 0, payload := p,
    crc := BitVec.ofNat 32 (crc32 (leBytes 1 code ++ leBytes 1 7 ++ leBytes 2 p.length ++ leBytes 4 0 ++ p)),
    source := 99, dest := .ipv4 0xC0A8003C, destPort := 7160, ecc := [] }

/-- A payload of `n` bytes. -/
def payloadOf (n : Nat) : MgmtReq := request 0 (List.replicate n 0)

theorem test_wellFormed_payload :
    ∀ i ∈ [Instr.mgmtOpen 0 (payloadOf 265), .mgmtClose 0 (payloadOf 265), .mgmtStatus 0 (payloadOf 265),
      .mgmtRead 0 (payloadOf 265), .mgmtWrite 0 (payloadOf 265), .mgmtReset 0 (payloadOf 265), .mgmtSetKey 0 (payloadOf 265),
      .mgmtForward 0 (payloadOf 265), .mgmtBadCode 0 9 (payloadOf 265), .mgmtBadCode 0 8 (payloadOf 0), .replyGo sup 257],
      i.wellFormed = false := by decide +kernel

/-! ### The queue, and words that spell no command -/

theorem test_decode_none : decodeTableWord 8 0 = none ∧ decodeTableWord 32 0xFFFFFFFF = none ∧
    State.reset.withFetchWord 32 5 = State.reset := by decide

theorem test_step_front : step { base with pending := [.wdogExpiry, .nop 0] } = exec .wdogExpiry { base with pending := [.nop 0] } :=
  rfl

/-- With no supply nothing changes; a device that runs counts one rc (R197). -/
theorem test_step_idle : step State.reset = .next State.reset ∧
    (match step powered with | .next t => t.rc | _ => 0) = powered.rc + 1 := ⟨rfl, by decide⟩

/-! ### Witnesses: the whole machine, register writes, supply and power -/

theorem witness_wholeMachine : Memory.wf base = true ∧ Regs.reserved base ∧ base.pending = [] ∧ base.alive = true ∧
    State.reset.alive = false ∧ base.wcs = [] ∧ base.chans = [] ∧ base.laws = [] ∧ ∀ p < 8, base.delayed p = [] :=
  ⟨by decide, reserved_of_fits (by decide), by decide⟩

theorem witness_registerWrites : base.mayWrite sup = true ∧ commandRegister A.SUP_VIN_WARN = false ∧
    base.refusedWhole sup A.SUP_VIN_WARN 5 = false ∧ (regDefAt A.SUP_VIN_WARN).isSome = true ∧ regDefAt 0x80001FF0 = none ∧
    commandRegister 0x80001FF0 = false ∧ commandRegister (A.LOCK_LIMP_PC 2) = false ∧ (regDefAt (A.LOCK_LIMP_PC 2)).isSome = true ∧
    (base.setFld (A.LOCK_STATUS 2) F.LOCK_STATUS_CAUSE 1).refusedWhole sup (A.LOCK_LIMP_PC 2) 5 = true ∧
    commandRegister (A.DEC_CFG 7) = false ∧ base.refusedWhole sup (A.DEC_CFG 7) 5 = false ∧
    (base.setReg (A.DEC_STATUS 7) 0).guarded (A.DEC_CFG 7) 5 ≠ 0 ∧ commandRegister (A.LOCK_CTRL 2) = false ∧
    (base.setFld (A.LOCK_STATUS 2) F.LOCK_STATUS_CAUSE 1).forbidden (A.LOCK_CTRL 2) 1 ≠ 0 := by decide +kernel

/-- A device in a phase of power-up. -/
def phased (x : Supply) : State := { State.reset with supply := { SupplyState.reset with phase := x, vin := true } }

/-- A device without VIN; `high` says that the supply holds it off for an overvoltage. -/
def dark (high : Bool) : State :=
  { State.reset with supply := { SupplyState.reset with phase := .off, vin := false, overvoltage := high } }

theorem witness_powerUp : (dark false).supply.vin = false ∧ (dark false).supply.overvoltage = false ∧
    (dark false).supply.phase = .off ∧ (phased .discharging).supply.phase = .discharging ∧
    (phased .waiting).supply.phase = .waiting ∧ (phased .waiting).supply.pinLow = false ∧
    (phased .waiting).supply.refLost = false ∧ (phased .waiting).supply.hot = false := by decide

theorem witness_overvoltage : (dark true).supply.overvoltage = true ∧ (dark true).supply.phase = .off := by decide

theorem witness_powerGood : let s := phased .ramping
    s.supply.phase = .ramping ∧ s.supply.vin = true ∧ s.holding = false ∧ (s.core 0).started = false ∧
      ({ s with supply := { s.supply with hot := true } } : State).holding = true := by decide

theorem witness_recovery : ∀ k < 2, (phased .ramping).flashWord (bootBase k) ≠ 0x42424D5A := by decide

/-- The bytes of a boot block whose Pattern has the six mandatory sections, empty (R99, R102, R393). -/
def bootBlock : List Byte :=
  let head := leBytes 4 0x42424D5A ++ leBytes 4 0 ++ leBytes 4 0xF0000000 ++ leBytes 4 64 ++ List.replicate 44 0
  let pat := leBytes 4 0x5A4D5054 ++ leBytes 2 0x0100 ++ leBytes 2 0x7160 ++ leBytes 4 0xB1 ++ leBytes 4 120 ++ leBytes 2 6 ++
    List.replicate 42 0
  let body := pat ++ leBytes 4 (crc32 pat) ++ [1, 4, 5, 6, 0x0B, 0xFF].flatMap (fun t => leBytes 8 t)
  head ++ leBytes 4 (crc32 head) ++ body ++ leBytes 4 (crc32 body) ++ leBytes 4 0

/-- A device whose boot block A holds them. -/
def bootable : State :=
  let s := phased .ramping
  { s with flash := { s.flash with bytes :=
    (bootBlock.zipIdx.map (fun p => (0x200000 + p.2, p.1))).filter (fun p => decide (p.2 ≠ 0xFF)) } }

theorem witness_boots : bootable.supply.phase = .ramping ∧ bootable.supply.vin = true ∧ bootable.holding = false := by decide

set_option maxRecDepth 100000 in
/-- The Pattern of that block passes every phase (R99 to R106). -/
theorem test_bootBlock : (tryBlock 0 false bootable).found.isSome = true := by decide +kernel

theorem witness_fullReset : base.supply.phase = .good ∧ base.supply.vin = true ∧ base.supply.power ≠ .dormant ∧
    Regs.reserved base ∧ (∀ c < 16, (base.core c).stores = []) ∧ base.flash.job = none ∧ base.flash.suspended = none ∧
    base.mayWrite sup = true ∧ base.basicAt A.RST_CTRL = false :=
  ⟨by decide, by decide, by decide, reserved_of_fits (by decide), by decide⟩

theorem witness_wdogExpiry : let s := base.setReg A.RST_WDOG 0x80000010
    s.bit A.RST_WDOG F.RST_WDOG_EN = true ∧ fits s = true ∧ s.supply.phase = .good := by decide

theorem witness_release : base.mayWrite sup = true ∧ Regs.reserved base ∧ base.basicAt A.RST_WDOG = false ∧
    base.bit A.RST_WDOG F.RST_WDOG_EN = false ∧ base.fld A.RST_WDOG F.RST_WDOG_TIMEOUT = 0 ∧ byUser sup = false ∧
    base.released = false ∧ base.releaseBlocked = false ∧ (∀ g < 16, base.groupCause g = none) ∧
    base.startRefused 1 = false ∧ (base.core 1).started = false :=
  ⟨by decide, reserved_of_fits (by decide), by decide⟩

/-- Core 0 in user mode, with the whole of segment 0 open to it. -/
def user : State :=
  powered.setCore 0 { coreWith [1, 2, 3, 4] with psw := 0x40, pswE := 0x40, seg := [(1, 0xFFFF001D)], segE := [(1, 0xFFFF001D)] }

theorem witness_releaseRefused : (user.core 0).user = true ∧ user.mayWrite (.core 0 true) = true ∧ user.released = false ∧
    byUser (.core 0 true) = true ∧ (base.setReg A.BOOT_STATUS (fieldMask F.BOOT_STATUS_RELEASED)).released = true ∧
    (base.setReg A.BOOT_STATUS (fieldMask F.BOOT_STATUS_RECOVERY)).bit A.BOOT_STATUS F.BOOT_STATUS_RECOVERY = true ∧
    (powered.setFld (A.LOCK_STATUS 1) F.LOCK_STATUS_STATE 4).startRefused 2 = true := by decide

theorem witness_limits : let p := 187
    let s := (base.setOut 11 { base.out 11 with mode := .driven, pin := .low }).setBallLimit p ⟨true, 9000⟩
    s.ballDrives p = true ∧ (s.ballLimit p).inLimit = true ∧ 10000 ≤ (s.ballLimit p).spent + 1000 ∧
      (base.ballLimit p).inLimit = false ∧ base.basicAt A.SUP_IO_FAULT = false ∧ base.testing = 0 := by decide +kernel

/-- Every core sleeps, and the power manager may choose a state. -/
def sleepy : State := powered.setReg A.PM_CTRL 0x0101FFFF

theorem witness_sleep : sleepy.supply.power = .run ∧ sleepy.supply.entering = none ∧ sleepy.flash.suspended = none ∧
    sleepy.maySleep = true ∧ sleepy.sleepTarget ≠ .run := by decide

/-- The device is entering a power state. -/
def enters (p : PowerState) : State := { powered with supply := { powered.supply with entering := some p } }

theorem witness_heatsEnd : let s := sets (enters .hold) [(A.RUN_HEAT_CFG, fieldBits F.RUN_HEAT_CFG_SRC 1 ||| 500)]
    let g := sets (enters .hold) [(A.PG_CTRL 6, 1), (A.PG_STATUS 6, fieldMask F.PG_STATUS_RUNNING),
      (A.RUN_HEAT_CFG, fieldBits F.RUN_HEAT_CFG_SRC 2 ||| fieldBits F.RUN_HEAT_CFG_REF_PG 6)]
    s.runnerOn = true ∧ s.supply.entering ≠ none ∧ s.fld A.RUN_HEAT_CFG F.RUN_HEAT_CFG_SRC = 1 ∧ g.runnerOn = true ∧
      g.heatRef 6 = true ∧ g.pgRunning 6 = true ∧ (g.pg 6).start / 64 = g.rc ∧ g.heatLast ≠ some g.rc := by decide

theorem witness_entry : (enters .hold).settled = true ∧ (enters .dormant).settled = true ∧ (enters .hold).pgsStopped = true ∧
    (enters .dormant).pgsStopped = true ∧ (enters .hold).flash.suspended = none ∧
    ((enters .hold).setReg (A.PG_STATUS 6) (fieldMask F.PG_STATUS_RUNNING)).pgsStopped = false ∧
    ((enters .hold).setReg (A.PG_STATUS 6) (fieldMask F.PG_STATUS_RUNNING)).settled = true ∧ (enters .hold).supply.entering = some .hold ∧ (enters .dormant).supply.entering = some .dormant ∧
    (enters .dormant).flash.job = none ∧ (∀ c < 16, ((enters .dormant).core c).stores = []) ∧ fits (enters .dormant) = true ∧
    (∀ g < 48, (enters .dormant).pgEn g = false) := by
  decide

/-- While HOLD is being entered, group 6 is enabled and waits, with an output that waits for its boundary. -/
theorem witness_entryWaiting : let s := ((enters .hold).setReg (A.PG_CTRL 6) 1).setOut 24 { (enters .hold).out 24 with mode := .await }
    let h := s.setPg 6 { s.pg 6 with holdStop := true }
    s.pgRunning 6 = false ∧ (s.pg 6).next.isSome = false ∧ s.pgPending 6 = false ∧ s.pgEn 6 = true ∧ (s.pg 6).holdStop = false ∧
      (s.out 24).mode = .await ∧ s.settled = true ∧ s.pgsStopped = true ∧
      (s.setReg (A.PG_STATUS 7) (fieldMask F.PG_STATUS_RUNNING)).pgsStopped = false ∧
      ∀ g < 48, h.pgEn g = true → (h.pg g).holdStop = true := by decide

/-- Source 1 is watched by core 0's controller, in a power state. -/
def watched (p : PowerState) : State :=
  let s := (powered.setReg (A.IC_SRC 0 1) 0x8000).setReg A.SUP_STATUS 1
  { s.setCore 0 { Core.reset with en := [(0, 2)] } with supply := { s.supply with power := p } }

theorem witness_wake : (∀ p ∈ [PowerState.idle, .hold, .run], (watched p).alive = true ∧ (watched p).watched 0 1 = true ∧
      (watched p).source 1 = true ∧ (watched p).supply.power = p ∧ 1 ∉ (watched p).supply.highAtStop) ∧
    (watched .run).supply.entering = none ∧ (watched .idle).coreRecord 0 = 0 ∧
    (watched .idle).stillHigh.supply.risen.find? (fun k => (watched .idle).watched 0 k) = some 1 ∧
    (let s := watched .idle
     let t : State := { s with supply := { s.supply with highAtStop := [1] } }
     1 ∈ t.supply.highAtStop ∧ 1 ∉ t.supply.risen) ∧
    (let s := (watched .idle).setReg A.SUP_STATUS 0
     let t : State := { s with supply := { s.supply with risen := [1] } }
     1 ∈ t.supply.risen ∧ t.source 1 = false ∧ t.watched 0 1 = true) ∧
    (let s := watched .run
     ({ s with supply := { s.supply with entering := some .hold } } : State).pendingAt 0 1 = true) := by decide

theorem witness_dormant : let s := { powered with supply := { powered.supply with power := .dormant } }
    s.supply.phase = .good ∧ fits s = true ∧ s.supply.power = .dormant ∧ (s.setReg A.PM_ALARM 5).reg A.PM_ALARM ≠ 0 ∧
      (enters .dormant).supply.power = .run := by decide

/-! ### Witnesses: converters, comparators, Quench, Survey -/

/-- Bit 0 of one register set, as an enable or a running flag. -/
def flagged (l : List (Nat × Word)) : State := sets base l

theorem witness_overload : let s := flagged [(A.MD_STATUS 95, fieldMask F.MD_STATUS_RUNNING)]
    s.runnerOn = true ∧ s.bit (A.MD_STATUS 95) F.MD_STATUS_RUNNING = true := by decide

theorem witness_streams :
    let s := flagged [(A.MD_CTRL 3, 1), (A.XB_CTRL 4, 1), (A.XB_STATUS 5, fieldMask F.XB_STATUS_RUNNING)]
    let m := s.setReg (A.XB_CTRL 5) (fieldMask F.XB_CTRL_FORM)
    s.runnerOn = true ∧ s.bit (A.MD_CTRL 3) F.MD_CTRL_EN = true ∧ s.bit (A.MD_STATUS 3) F.MD_STATUS_RUNNING = false ∧
      s.bit (A.XB_CTRL 4) F.XB_CTRL_EN = true ∧ s.bit (A.XB_STATUS 4) F.XB_STATUS_RUNNING = false ∧
      s.bit (A.XB_STATUS 5) F.XB_STATUS_RUNNING = true ∧ s.bit (A.XB_CTRL 5) F.XB_CTRL_FORM = false ∧ m.runnerOn = true ∧
      m.bit (A.XB_STATUS 5) F.XB_STATUS_RUNNING = true ∧ m.bit (A.XB_CTRL 5) F.XB_CTRL_FORM = true := by decide

/-- Decimator 7, from modulator 7, with its swift path taking input and `buf` in the holding buffer. -/
def pathOn (buf : List Payload) : State :=
  (flagged [(A.MD_STATUS 7, fieldMask F.MD_STATUS_RUNNING), (A.TC_ROUTE_P 0, 7), (A.TC_ROUTE_P 1, 0xA7)]).setPath 7 false
    { PathState.init with taking := true, buf := buf, produced := BitVec.ofNat 48 buf.length }

theorem witness_decSource : (∃ q ∈ (pathOn []).decs, q.1 = 7) ∧ (pathOn []).decSrc 7 = 7 := by decide

theorem witness_pathResult :
    (∀ buf ∈ ([[], [1, 2, 3, 4]] : List (List Payload)), let s := pathOn buf
      let p := s.path 7 false
      let fed := fun (n : Nat) => p.queue ++ ((List.replicate n true).drop p.skip).map (fun b => (b, false))
      s.runnerOn = true ∧ p.taking = true ∧ p.stopping = false ∧ s.decSrc 7 < 96 ∧ s.streamRunning (s.decSrc 7) = true ∧
        p.primed = false ∧ s.pathFirst 7 false ≤ (fed 24).length ∧ (fed 23).length < s.pathFirst 7 false ∧
        p.produced - p.delivered = BitVec.ofNat 48 p.buf.length) ∧
      (List.replicate 22 true).length = 3 * 2 ^ (pathOn []).swiftLog 7 - 2 := by decide

/-- Decimator 7 with both its channels routed. -/
def routedPaths : State := flagged [(A.TC_ROUTE_P 0, 7), (A.TC_ROUTE_P 1, 0xA7)]

theorem witness_pathUnrouted : base.writable (A.DEC_CTRL 7) ∧ base.producerChannel (pathEndpoint 7 false) = none :=
  ⟨writable_of (by decide), by decide⟩

theorem witness_pathStart : let s := routedPaths
    s.writable (A.DEC_CTRL 7) ∧ (s.producerChannel (epSwift 7)).isSome = true ∧ (s.producerChannel (epFine 7)).isSome = true ∧
      s.bit (A.DEC_CTRL 7) (fEnable false) = false ∧ (s.path 7 false).taking = false ∧
      s.bit (A.DEC_STATUS 7) (fDisabled false) = true ∧
      (s.setReg (A.DEC_STATUS 7) 0).bit (A.DEC_STATUS 7) (fDisabled false) = false ∧
      (s.setReg (A.DEC_CTRL 7) 1).bit (A.DEC_CTRL 7) (fEnable false) = true ∧ (s.path 7 false).buf = [] :=
  ⟨writable_of (by decide), by decide⟩

theorem witness_comparators : let s := flagged [(A.WC_CTRL 9, 1)]
    let v := fieldBits F.WC_THR_HI 5
    s.alive = true ∧ s.bit (A.WC_CTRL 9) F.WC_CTRL_EN = true ∧ s.bit (A.WC_STATUS 9) F.WC_STATUS_READY = false ∧
      (base.runnerOn && !base.basicAt (A.WC_THR 9) && fits base) = true ∧
      (base.runnerOn && !base.basicAt A.WC_RB_SEL && fits base) = true ∧
      signedOf 12 (fieldOf v F.WC_THR_LO) < signedOf 12 (fieldOf v F.WC_THR_HI) ∧
      signedOf 12 (fieldOf 0 F.WC_THR_HI) ≤ signedOf 12 (fieldOf 0 F.WC_THR_LO) ∧
      fieldOf 0x5F F.WC_RB_SEL_COMP < 96 ∧ fieldOf 0x5F F.WC_RB_SEL_CFG_REJECT = 0 := by decide

/-- Output release has occurred, and group 3 alone takes request 45, which is raised. -/
def requested : State := flagged [(A.BOOT_STATUS, fieldMask F.BOOT_STATUS_RELEASED), (A.QUENCH_IN 3 1, 0x2000), (A.QUENCH_CTRL, 1)]

theorem witness_quench : let l := requested.setReg (A.QUENCH_CAUSE 3) (fieldMask F.QUENCH_CAUSE_VALID)
    requested.alive = true ∧ requested.released = true ∧ requested.requestRaised 45 = true ∧
      (∀ h < 16, requested.takes h 45 = true ↔ h = 3) ∧ requested.latched 3 = false ∧
      requested.bit (A.QUENCH_GCFG 3) F.QUENCH_GCFG_NOTICE = false ∧ base.released = false ∧ l.released = true ∧
      (∀ h < 16, l.takes h 45 = true ↔ h = 3) ∧ l.latched 3 = true := by decide

/-- Group 3 has a notice channel, with its queue, STATUS and Riser slots left, and is not latched. -/
def noticing (queue : List Token) (status : Word) : State :=
  let s := sets requested [(A.QUENCH_GCFG 3, fieldMask F.QUENCH_GCFG_NOTICE), (A.TC_ROUTE_P 5, 0x2AB), (A.TC_ROUTE_C 5, 0x3FF0309),
    (A.TC_STATUS 5, status)]
  { s.setChan 5 { s.chan 5 with queue := queue, issued := BitVec.ofNat 48 queue.length } with riserFree := 64 - queue.length }

theorem witness_notice : let r : Token := { payload := 88, tag := 0x580, accepted := [], passed := [] }
    (∀ q ∈ [[], [r], [r, r]], let s := noticing q 0
      s.alive = true ∧ s.released = true ∧ s.requestRaised 45 = true ∧ (∀ h < 16, s.takes h 45 = true ↔ h = 3) ∧
        s.latched 3 = false ∧ s.bit (A.QUENCH_GCFG 3) F.QUENCH_GCFG_NOTICE = true ∧ s.producerChannel (epNotice 3) = some 5 ∧
        s.accounted 5 ∧ (s.chan 5).risers = q.length ∧ s.channelClosed 5 = false) ∧
      (noticing [] 0).awaited 5 ∧ (noticing [r] 0).awaited 5 ∧ (noticing [] 0x02000000).channelClosed 5 = true := by
  unfold State.accounted State.awaited
  decide

theorem witness_quenchComparator :
    let s := (flagged [(A.BOOT_STATUS, fieldMask F.BOOT_STATUS_RELEASED), (A.QUENCH_IN 3 2, 1), (A.WC_CTRL 0, 1)])
    let l := s.setWc 0 { s.wc 0 with now := true }
    s.wcHeld 0 = true ∧ (∀ h < 16, s.takes h 64 = true ↔ h = 3) ∧ (l.wc 0).now = true ∧ (l.wc 0).prev = false ∧
      (∀ h < 16, l.takes h 64 = true ↔ h = 3) ∧ l.latched 3 = false := by decide

theorem witness_groups : let s := flagged [(A.QUENCH_CAUSE 3, fieldMask F.QUENCH_CAUSE_VALID),
      (A.QUENCH_GCFG 3, fieldMask F.QUENCH_GCFG_MODE)]
    let r := s.setPg 0 { s.pg 0 with next := some 6400 }
    s.mayWrite sup = true ∧ s.runnerOn = true ∧ s.basicAt A.QUENCH_RELEASE = false ∧ fits s = true ∧ byUser sup = false ∧
      s.latched 3 = true ∧ s.latched 4 = false ∧ s.bit (A.QUENCH_GCFG 3) F.QUENCH_GCFG_MODE = true ∧ s.testRc 3 = none ∧
      r.runnerOn = true ∧ r.latched 3 = true ∧ r.bit (A.QUENCH_GCFG 3) F.QUENCH_GCFG_MODE = true ∧ r.testRc 3 = some 99 ∧
      r.bit (A.QUENCH_CAUSE 3) F.QUENCH_CAUSE_STICKY = false ∧ (r.passTo 99).groupRaised 3 = false ∧
      user.mayWrite (.core 0 true) = true ∧ byUser (.core 0 true) = true := by decide

/-- Output 5 in a mode, waiting to go high. -/
def output (m : OutMode) : State := base.setOut 5 { base.out 5 with mode := m, highDue := true }

theorem witness_outputs : ((output .tripped).out 5).mode = .tripped ∧ ((output .tripped).out 5).highDue = true ∧
    ((output .held).out 5).mode = .held := by decide

/-- Converter 2 is enabled, with TRIG `t`, in job `j`. -/
def survey (t : Nat) (j : SvJob) (status : Word) : State :=
  let s := flagged [(A.SV_CTRL 2, 1 ||| fieldBits F.SV_CTRL_TRIG t), (A.SV_STATUS 2, status)]
  s.setSv 2 { s.sv 2 with job := j, entries := [0, 1] }

theorem witness_surveyPass : let b := fieldMask F.SV_STATUS_BUSY
    (survey 0 .none 0).writable (A.SV_CTRL 2) ∧ (survey 3 .none 0).writable (A.SV_CTRL 2) ∧
      (∀ s ∈ [survey 0 .none 0, survey 3 .none 0, survey 0 .entry b, survey 3 .entry b, survey 0 .starting b],
        (s.runnerOn && !s.basicAt (A.SV_CTRL 2) && fits s) = true ∧ s.svEn 2 = true ∧ (s.sv 2).draining = false ∧
          s.svPaused 2 = false ∧ (s.sv 2).urgent = none ∧ (s.sv 2).buf = [] ∧
          s.bit (A.SV_STATUS 2) F.SV_STATUS_DISABLED = false) ∧
      (∀ s ∈ [survey 0 .none 0, survey 3 .none 0], s.svBusy 2 = false ∧ (s.sv 2).job = .none ∧ s.svPowered 2 = false) ∧
      (survey 0 .none 0).fld (A.SV_CTRL 2) F.SV_CTRL_TRIG = 0 ∧ (survey 3 .none 0).fld (A.SV_CTRL 2) F.SV_CTRL_TRIG = 3 ∧
      (survey 0 .entry b).svBusy 2 = true ∧ (survey 3 .entry b).svBusy 2 = true ∧ ((survey 0 .entry b).sv 2).job = .entry ∧
      (survey 0 .starting b).svBusy 2 = true ∧ ((survey 0 .starting b).sv 2).job = .starting ∧
      (survey 0 .starting b).svBlocked 2 = false := ⟨writable_of (by decide), writable_of (by decide), by decide⟩

theorem witness_surveyResults : let s := survey 0 .entry (fieldMask F.SV_STATUS_BUSY)
    let u := s.setSv 2 { s.sv 2 with job := .urgent, urgent := some 0x80000005 }
    let i := survey 0 .none 0
    s.alive = true ∧ (s.sv 2).job = .entry ∧ s.svBusy 2 = true ∧ (s.sv 2).urgent = none ∧ s.svEntry 2 < 32 ∧
      fieldOf (s.svEntryWord 2) F.SV_ENTRY_TOKEN = 0 ∧ (u.sv 2).job = .urgent ∧ (u.sv 2).urgent = some 0x80000005 ∧
      fieldOf 0x80000005 F.SV_URGENT_TOKEN = 0 ∧ (i.runnerOn && !i.basicAt (A.SV_URGENT 2) && fits i) = true ∧ i.alive = true ∧
      fieldOf 96 F.SV_URGENT_INPUT ≤ 96 ∧ fieldOf 96 F.SV_URGENT_TOKEN = 0 ∧
      i.bit (A.SV_STATUS 2) F.SV_STATUS_URGENT_BUSY = false ∧ i.svEn 2 = true ∧ i.svPaused 2 = false ∧ i.svPowered 2 = false ∧
      (i.sv 2).job = .none ∧ (i.sv 2).ended ≠ some i.rc ∧ base.svEn 2 = false ∧
      ((i.setSv 2 { i.sv 2 with ended := some i.rc }).sv 2).ended = some i.rc := by decide

/-! ### Witnesses: Runner and Tundish -/

/-- Channel 5 runs from core 0's push port 0 to snapshot 9, with `alloc` credits, its queue and STATUS. -/
def channel (alloc : Nat) (queue : List Token) (status : Word) : State :=
  let s := flagged [(A.TC_ROUTE_P 5, 0x2C0), (A.TC_ROUTE_C 5, 0x3FF0309), (A.TC_CREDIT 5, BitVec.ofNat 32 alloc), (A.TC_CTRL 5, 1),
    (A.TC_STATUS 5, status)]
  let n := BitVec.ofNat 48 queue.length
  (s.setChan 5 { s.chan 5 with queue := queue, free := alloc - queue.length, issued := n }).setPush 0
    { s.push 0 with buf := [(0, 77)] }

def aToken : Token := { payload := 88, tag := 0x500, accepted := [], passed := [] }

theorem witness_tokenIssue : ∀ alloc < 2, let s := channel alloc [] 0
    s.runnerOn = true ∧ s.bootTesting = false ∧ s.offers 0x2C0 = some 77 ∧ s.producerChannel 0x2C0 = some 5 ∧ s.accounted 5 ∧
      (s.chan 5).free = alloc ∧ (s.passCredit 5).rc = s.rc ∧
      s.channelClosed 5 = false ∧ s.awaited 5 ∧ (s.chan 5).inflight + 1 < 2 ^ 13 ∧
      (channel alloc [] 0x02000000).channelClosed 5 = true := by
  unfold State.accounted State.awaited
  decide

theorem witness_tokenAccept : let s := channel 3 [aToken, aToken] 0
    s.consumerReady 0x309 = true ∧ s.chosen 0x309 = some (5, 0) ∧ (0, 0x309) ∈ s.consumers 5 ∧
      (s.chan 5).queue = [aToken, aToken] ∧ s.accounted 5 ∧ (∀ x ∈ [aToken], x.takenBy 0 = false) ∧
      (∀ p ∈ s.consumers 5, ¬ (p.1 ≠ 0 ∧ s.consumerDisabled p.2 = false ∧ aToken.takenBy p.1 = false)) ∧ 0x309 = epSnap 9 := by
  unfold State.accounted
  decide

theorem witness_tokenShared : let s := (channel 3 [aToken] 0).setReg (A.TC_ROUTE_C 5) 0x030A0309
    s.consumerReady 0x309 = true ∧ s.chosen 0x309 = some (5, 0) ∧ (0, 0x309) ∈ s.consumers 5 ∧ (s.chan 5).queue = [aToken] ∧
      s.accounted 5 ∧ (∃ p ∈ s.consumers 5, p.1 ≠ 0 ∧ s.consumerDisabled p.2 = false ∧ aToken.takenBy p.1 = false) := by
  unfold State.accounted
  decide

theorem witness_auditWrap :
    let s := (channel 3 [] 0x02000000).setChan 5 { (channel 3 [] 0x02000000).chan 5 with issued := -1, returned := -1 }
    let u := (channel 3 [aToken] 0).setChan 5 { (channel 3 [aToken] 0).chan 5 with retired := -1 }
    s.runnerOn = true ∧ s.bootTesting = false ∧ s.offers 0x2C0 = some 77 ∧ s.producerChannel 0x2C0 = some 5 ∧ 0 < (s.chan 5).free ∧
      (s.chan 5).issued = -1 ∧ s.channelClosed 5 = true ∧ (s.chan 5).returned = -1 ∧ u.consumerReady 0x309 = true ∧
      u.chosen 0x309 = some (5, 0) ∧ (u.chan 5).queue = [aToken] ∧ (u.chan 5).retired = -1 ∧
      (∀ p ∈ u.consumers 5, p.1 = 0 ∨ u.consumerDisabled p.2 = true ∨ p.1 ∈ aToken.accepted) := by decide

theorem witness_channels : let s := channel 3 [] 0
    let d := s.setReg (A.TC_STATUS 5) 0x04000000
    s.writable (A.TC_CTRL 5) ∧ s.bit (A.TC_CTRL 5) F.TC_CTRL_EN = true ∧ s.bit (A.TC_STATUS 5) F.TC_STATUS_DISABLED = false ∧
      base.fld (A.TC_ROUTE_P 255) F.TC_ROUTE_P_PROD = 0x3FF ∧ s.fld (A.TC_ROUTE_P 5) F.TC_ROUTE_P_PROD ≠ 0x3FF ∧
      s.testBlocks channelRegions = false ∧ (s.setReg (A.TC_CTRL 5) 0).bit (A.TC_CTRL 5) F.TC_CTRL_EN = false ∧
      d.bit (A.TC_STATUS 5) F.TC_STATUS_DISABLE_PENDING = true ∧ (d.chan 5).queue = [] ∧
      (s.runnerOn && !s.basicAt A.RUN_AUDIT_CTRL && fits s) = true := ⟨writable_of (by decide), by decide⟩

theorem witness_heats : let s := flagged [(A.RUN_HEAT_CFG, fieldBits F.RUN_HEAT_CFG_SRC 1 ||| 500)]
    let a := { s with rc := 12, snapCross := [{ snaps := [(9, ⟨88, 0x500, 1⟩)], since := 0 }] }
    s.runnerOn = true ∧ s.supply.entering = none ∧ s.fld A.RUN_HEAT_CFG F.RUN_HEAT_CFG_SRC = 1 ∧ s.mayWrite sup = true ∧
      s.coreOn 0 = true ∧ s.basicAt A.RUN_PUSH_LO = false ∧ a.mayWrite sup = true ∧ a.readerOf sup < 16 ∧
      (∀ e ∈ a.snapCross, e.since + 12 ≤ a.rc) ∧ (s.push 0).buf.length < 8 := by decide

/-! ### Witnesses: law engines -/

/-- An operation of R207. -/
def op (code d a b x : Nat) : BitVec 64 := BitVec.ofNat 64 (code * 2 ^ 32 + d * 2 ^ 24 + a * 2 ^ 16 + b * 2 ^ 8 + x)

/-- Engine 3 runs the operation `w`, with S[1], S[2] and S[3] as given. -/
def law (w : BitVec 64) (a b c : Cell) : State :=
  let s := flagged [(A.LE_STATUS 3, fieldMask F.LE_STATUS_RUNNING), (A.LE_RUNCFG 3, 100)]
  (((s.setLawWord 3 1 a).setLawWord 3 2 b).setLawWord 3 3 c).setLaw 3 { LawState.init with pc := 0 } |> fun s =>
    { s with lawProg := [(1024 * 3, w)] }

theorem witness_lawOperations : ∀ k < 26, 1 ≤ k → (law (op k 4 1 2 0) 5 6 7).lawGoes 3 k := by
  intro k h h1
  unfold State.lawGoes
  interval_cases k <;> decide

/-- Engine 3 at its last operation. -/
theorem witness_lawLast : let s := law 0 5 6 7
    let t := { s.setLaw 3 { LawState.init with pc := 1023 } with lawProg := [(1024 * 3 + 1023, op 4 4 1 2 0)] }
    t.lawGoes 3 4 ∧ (t.law 3).pc = 1023 := by
  unfold State.lawGoes
  decide

theorem witness_lawEnd : (law 0 5 6 7).lawAt 3 0 = true ∧ (law (op 2 4 1 2 0 + 0x10000000000) 5 6 7).lawAt 3 2 = true ∧
    ((law (op 2 4 1 2 0 + 0x10000000000) 5 6 7).law 3).skip = false ∧ opE (op 2 4 1 2 0 + 0x10000000000) = true := by decide

theorem witness_lawSkipped : let s := law (op 4 4 1 2 0) 5 6 7
    let t := s.setLaw 3 { s.law 3 with skip := true }
    s.lawAt 3 4 = true ∧ t.lawAt 3 4 = true ∧ (t.law 3).skip = true ∧ opE (t.lawOp 3 (t.law 3).pc) = false ∧
      (t.law 3).ops + 1 < t.fld (A.LE_RUNCFG 3) F.LE_RUNCFG_MAX_OPS := by decide

theorem witness_lawOut : ∀ free < 2, let s := (law (op 0x19 0 1 2 0) 5 6 7).setReg (A.TC_ROUTE_P 8) 0x1CC
    let t := s.setChan 8 { s.chan 8 with free := free }
    t.lawGoes 3 0x19 ∧ t.producerChannel (epLawOut 3 0) = some 8 ∧ (t.chan 8).free = free := by
  unfold State.lawGoes
  decide

/-- Engine 3 looks up `a` in partition 2: two entries, each one wide. -/
def lookup2 (code : Nat) (a : Cell) : State :=
  (sets (law (op code 4 1 2 0) a 6 7) [(A.LE_CFG 3, fieldBits F.LE_CFG_PART0 2), (A.LT_PART_SIZE 2, 1)]).setTableEntry 0 9

theorem witness_lookupInside : (lookup2 0x15 1).lawGoes 3 0x15 ∧ 0 ≤ (lookup2 0x15 1).S 3 1 ∧ (lookup2 0x15 1).S 3 1 < 2 ∧
    mapGet (fun _ => 0) (lookup2 0x15 1).ports 0 ≠ ((lookup2 0x15 1).lawNow 3).rc + 1 ∧
    ∀ m < 3, ((lookup2 0x15 1).lawNow 3).looksUp 0 m = false := by
  unfold State.lawGoes
  decide

theorem witness_lookupBelow : (lookup2 0x15 (-1)).lawGoes 3 0x15 ∧ (lookup2 0x15 (-1)).S 3 1 < 0 := by
  unfold State.lawGoes
  decide

theorem witness_lookupAbove : (lookup2 0x15 2).lawGoes 3 0x15 ∧ 2 ≤ (lookup2 0x15 2).S 3 1 := by
  unfold State.lawGoes
  decide

theorem witness_directLookup : (lookup2 0x16 1).lawGoes 3 0x16 ∧ 0 ≤ (lookup2 0x16 1).S 3 1 ∧ (lookup2 0x16 1).S 3 1 < 2 := by
  unfold State.lawGoes
  decide

theorem witness_waitingLookup : let s := lookup2 0x15 1
    let b : State := { s with ports := [(0, 1)] }
    let t := s.setLaw 3 { s.law 3 with wait := .port }
    b.lawGoes 3 0x15 ∧ mapGet (fun _ => 0) b.ports 0 = (b.lawNow 3).rc + 1 ∧ t.alive = true ∧ t.waitsFor 0 3 = true ∧
      (∀ m < 3, t.looksUp 0 m = false) ∧ t.portBusy 0 = false ∧ opCode (t.lawOp 3 (t.law 3).pc) = 0x15 ∧
      opE (t.lawOp 3 (t.law 3).pc) = false ∧ (t.law 3).ops + 1 < t.fld (A.LE_RUNCFG 3) F.LE_RUNCFG_MAX_OPS := by
  unfold State.lawGoes
  decide

/-- Engine 3 is idle and enabled, with port 1 in a mode, and the latches `l`. -/
def idleLaw (mode : Nat) (l : List Latch) (heat : Option Nat) : State :=
  (flagged [(A.LE_STATUS 3, 0), (A.LE_PORT 3 1, BitVec.ofNat 32 mode)]).setLaw 3 { LawState.init with latches := l, heat := heat }

theorem witness_lawDispatch : let l : Latch := { port := 1, payload := 9, since := 0 }
    let s := idleLaw 1 [l] none
    let h := idleLaw 1 [] (some 0)
    let m := idleLaw 2 [l] none
    let e := { idleLaw 1 [l] (some 0) with rc := 0 }
    (∀ t ∈ [s, h, m, e], t.runnerOn = true ∧ t.bootTesting = false ∧ t.lawRunning 3 = false ∧ t.lawDisabled 3 = false ∧ (t.law 3).wait = .none ∧
      (t.law 3).closed = false ∧ t.lawPending 3 = false ∧ (∀ k ∈ (t.law 3).latches, k.port < 4)) ∧
      (∀ t ∈ [s, h, e], ∀ q < 4, t.fld (A.LE_PORT 3 q) F.LE_PORT_MODE ≤ 1) ∧ (h.law 3).heat = some 0 ∧ (e.law 3).heat = some 0 ∧
      (∀ k ∈ (e.law 3).latches, 0 ≤ k.since) ∧ (s.law 3).heat = none ∧
      (s.law 3).latches = [l] ∧ s.fld (A.LE_PORT 3 l.port) F.LE_PORT_MODE = 1 ∧ (m.law 3).latches = [l] ∧
      m.fld (A.LE_PORT 3 l.port) F.LE_PORT_MODE = 2 := by
  decide

theorem witness_tableAccess : let q : TableStore := { reader := base.readerOf sup, entry := 524287, value := 5 }
    let s := { base with tableQ := [q] }
    base.mayWrite sup = true ∧ base.basicAt (A.LE_STATE_LO 31 255) = false ∧ base.tableQ = [] ∧ base.entryPort 524287 = 0 ∧
      base.portBusy 0 = false ∧ (∀ m < 32, base.looksUp 0 m = false) ∧ s.mayWrite sup = true ∧ s.tableQ = [q] ∧
      q.reader = s.readerOf sup ∧ s.entryPort q.entry = 0 ∧ s.portBusy 0 = false ∧ (∀ m < 32, s.looksUp 0 m = false) := by decide

/-- Engine 3 with its EN bit and its STATUS. -/
def engine (en status : Word) : State := flagged [(A.LE_CTRL 3, en), (A.LE_STATUS 3, status)]

theorem witness_lawEnable : (engine 1 4).writable (A.LE_CTRL 3) ∧ (engine 1 4).bit (A.LE_CTRL 3) F.LE_CTRL_EN = true ∧
    (engine 1 4).lawDisabled 3 = false ∧ (engine 1 4).lawRunning 3 = true ∧ (engine 1 0).lawRunning 3 = false ∧
    (engine 1 0).heatRunning = false ∧ ((engine 1 0).law 3).latches = [] ∧ (engine 0 2).bit (A.LE_CTRL 3) F.LE_CTRL_EN = false ∧
    (engine 0 2).testBlocks (lawRegions 3) = false ∧ (engine 0 2).lawPending 3 = true ∧ (engine 0 1).lawPending 3 = false ∧
    (engine 0 1).lawDisabled 3 = true ∧
    ({ engine 0 1 with assay := { base.assay with lane0 := some 16 } } : State).testBlocks (lawRegions 3) = true :=
  ⟨writable_of (by decide), by decide⟩

theorem witness_lawDrained : ∀ r : Bool, let s := (engine 0 2).setLaw 3 { LawState.init with closed := true, reenable := r }
    let h := (engine 0 2).setLaw 3 { LawState.init with reenable := r }
    (∀ t ∈ [s, h], t.lawPending 3 = true ∧ t.lawRunning 3 = false ∧ (t.law 3).shadows = [] ∧ (t.law 3).reenable = r) ∧
      (s.law 3).closed = true ∧ h.heatRunning = false := by decide

/-! ### Witnesses: PWM groups -/

/-- Group 6 runs, FREE, with a period of 12,800 fine steps that started at 0. -/
def group6 : State :=
  let s := flagged [(A.PG_CTRL 6, 1), (A.PG_STATUS 6, fieldMask F.PG_STATUS_RUNNING), (A.PG_ACTIVE 6 4, 12800),
    (A.PG_CFG 6, 0x1000), (A.BOOT_STATUS, fieldMask F.BOOT_STATUS_RELEASED), (A.PG_BLANK 6, 3)]
  s.setPg 6 { s.pg 6 with next := some 12800, len := 12800 }

theorem witness_period : group6.runnerOn = true ∧ group6.pgEn 6 = true ∧ group6.pgPending 6 = false ∧ group6.pgRunning 6 = true ∧
    (group6.pg 6).next = some 12800 ∧ (group6.pg 6).holdNext = false ∧ group6.pgSync 6 = 0 ∧
    (group6.pg 6).phase % group6.pgPeriod 6 = group6.pgPhase 6 % group6.pgPeriod 6 ∧ (group6.pg 6).restartAt = [] ∧
    128 ≤ group6.pgPeriod 6 ∧ group6.pgPaired 6 0 = false ∧ group6.pgOutEn 6 0 = true ∧
    ((group6.setOut 24 { group6.out 24 with mode := .driven }).out 24).mode = .driven := by decide

/-- Output A of group 6 in a mode, with its interval from 640 to 1,280. -/
def pulsing (m : OutMode) (commanded : Bool) : State :=
  group6.setOut 24 { group6.out 24 with
    mode := m, pin := .low, commanded := (if commanded then 1 else 0),
    cur := some { rise := 640, fall := some 1280, commanded := commanded, counted := false } }

theorem witness_pulse : ∀ m ∈ [OutMode.driven, .tripped], let s := pulsing m false
    let x := s.out 24
    s.pgPaired 6 0 = false ∧ x.older = [] ∧ x.prev = none ∧ s.pulsesOn 6 0 = true ∧ s.beforeBoundary 6 640 = true ∧
      x.commanded = x.emitted + x.suppressed ∧ x.commanded ≠ -1 ∧ x.suppressed ≠ -1 ∧ x.pin ≠ .high ∧ 0 < s.blankLen 6 0 ∧
      x.mode = m ∧ x.forcedAt < 640 / 64 := by
  decide

theorem witness_pulseEnd : let s := pulsing .driven true
    let x := s.out 24
    s.pgPaired 6 0 = false ∧ x.older = [] ∧ x.prev = none ∧ s.pulsesOn 6 0 = true ∧ s.beforeBoundary 6 1280 = true ∧
      x.commanded = x.emitted + x.suppressed + 1 ∧ x.emitted ≠ -1 ∧ x.mode = .driven ∧ 0 < s.blankLen 6 0 := by decide

theorem witness_shadowStore : shadowLegal 4 128 = true ∧ group6.writable (aShadow 6 4) ∧ group6.lawTargets 6 4 = false :=
  ⟨by decide, writable_of (by decide), by decide⟩

theorem witness_shadowTargeted : let s := group6.setReg (A.LE_TGT 0 0) (fieldBits F.LE_TGT_EN 1 ||| fieldBits F.LE_TGT_PG 6)
    s.lawTargets 6 0 = true ∧ (s.runnerOn && !s.basicAt (aShadow 6 0) && fits s) = true := by decide

theorem witness_shadowLaw : let s := group6.setReg (A.LE_TGT 0 0) (fieldBits F.LE_TGT_EN 1 ||| fieldBits F.LE_TGT_PG 6)
    let t := s.setLaw 0 { LawState.init with shadows := [{ target := 0, value := 5 }] }
    t.alive = true ∧ (t.law 0).shadows = [{ target := 0, value := 5 }] ∧ t.fld (A.LE_TGT 0 0) F.LE_TGT_PG = 6 ∧
      t.fld (A.LE_TGT 0 0) F.LE_TGT_REG = 0 := by decide

theorem witness_shadowToken : let t : Token := { payload := 5, tag := 0, accepted := [], passed := [] }
    let s := (group6.setReg (A.TC_ROUTE_C 5) 0x3FF0276)
    let u := s.setChan 5 { s.chan 5 with queue := [t] }
    (u.setReg (A.PG_STATUS 6) 4).consumerReady (epShadow 6) = true ∧
      (u.setReg (A.PG_STATUS 6) 4).chosen (epShadow 6) = some (5, 0) ∧ (t.payload >>> 48).toNat % 8 = 0 := by decide

theorem witness_groupStop : let s := (sets group6 [(A.TC_ROUTE_P 5, 0x246), (A.PG_STATUS 6, 0)])
    s.writable (A.PG_CTRL 6) ∧ (s.producerChannel (epPeriod 6)).isSome = true ∧ s.bit (A.PG_CTRL 6) F.PG_CTRL_EN = true ∧
      s.pgDisabled 6 = false ∧ s.heatRunning = false ∧ (s.setReg (A.PG_CTRL 6) 0).bit (A.PG_CTRL 6) F.PG_CTRL_EN = false ∧
      s.testBlocks (s.pgRegions 6) = false ∧ (s.setReg (A.PG_STATUS 6) 2).pgPending 6 = true ∧
      (s.setReg (A.PG_STATUS 6) 1).pgDisabled 6 = true ∧ (s.setReg (A.PG_STATUS 6) 1).pgPending 6 = false ∧
      (s.runnerOn && !s.basicAt (A.PG_ACC_CTRL 6) && fits s) = true := ⟨writable_of (by decide), by decide⟩

theorem witness_stopBoundary : let s := group6.setReg (A.PG_STATUS 6) 6
    let n := s.setPg 6 { s.pg 6 with stopNext := true }
    let h := s.setReg A.RUN_HEAT_CFG (fieldBits F.RUN_HEAT_CFG_SRC 2 ||| fieldBits F.RUN_HEAT_CFG_REF_PG 6)
    (∀ t ∈ [s, n, h], t.runnerOn = true ∧ t.pgPending 6 = true ∧ (t.pg 6).reenable = false) ∧ (n.pg 6).stopNext = true ∧
      s.heatRunning = false ∧ h.heatRef 6 = true ∧ (s.setReg (A.PG_STATUS 6) 2).pgRunning 6 = false ∧
      (s.setReg (A.PG_STATUS 6) 2).pgPending 6 = true := by decide

/-- Group 6 is a pair in its outputs A and B with the bit of D in OUT_EN at 0, group 7 follows it and waits, and group 8 follows it
and runs. -/
def paired : State :=
  let s := sets group6 [(A.PG_CFG 6, 0x3400), (A.PG_ACTIVE 6 0, 5000), (A.PG_CTRL 7, 1), (A.PG_STATUS 7, 0), (A.PG_CFG 7, 0x06400000),
    (A.PG_STATUS 8, fieldMask F.PG_STATUS_RUNNING), (A.PG_CFG 8, 0x06400000)]
  let s := (s.setOut 24 { s.out 24 with mode := .driven, pin := .low }).setOut 25 { s.out 25 with mode := .driven, pin := .low }
  s.setPg 6 { s.pg 6 with dead := fieldBits F.PG_DEAD_DT_A 1024 }

theorem witness_pairedPeriod : let s := paired
    s.runnerOn = true ∧ s.pgEn 6 = true ∧ s.pgPending 6 = false ∧ s.pgRunning 6 = true ∧ (s.pg 6).next = some 12800 ∧
      (s.pg 6).holdNext = false ∧ s.pgSync 6 = 0 ∧ (s.pg 6).phase % s.pgPeriod 6 = s.pgPhase 6 % s.pgPeriod 6 ∧
      (s.pg 6).restartAt = [] ∧ 128 ≤ s.pgPeriod 6 ∧ s.pgPaired 6 0 = true ∧ s.pgOutEn 6 0 = true ∧ s.pgOutEn 6 1 = true ∧
      (∀ o ∈ [24, 25], (s.out o).mode = .driven ∧ (s.out o).older = [] ∧ (s.out o).prev = none ∧ (s.out o).cur = none) ∧
      0 < (s.reg (A.PG_ACTIVE 6 0)).toInt ∧ s.pgOutEn 6 3 = false ∧ (s.out 27).mode ≠ .held ∧ s.released = true ∧
      s.latched (s.tripGroupOf 27) = false := by decide

theorem witness_followers : let s := paired
    (∀ f ∈ [7, 8], s.fld (A.PG_CFG f) F.PG_CFG_SYNC = 1 ∧ s.fld (A.PG_CFG f) F.PG_CFG_SYNC_PG = 6) ∧ s.pgRunning 7 = false ∧
      s.pgEn 7 = true ∧ s.pgPending 7 = false ∧ (s.pg 7).holdStop = false ∧ (s.pg 7).next = none ∧ (s.pg 7).armed ≤ 12800 / 64 ∧
      s.pgRunning 8 = true ∧ (s.pg 8).orphan = false ∧ (s.pg 8).wrapped = false ∧ (s.pg 8).start < 12800 + (s.pg 8).phase := by decide

theorem witness_pairedPulse : let s := paired.setOut 24 { paired.out 24 with
      cur := some { rise := 640, fall := some 5640, commanded := false, counted := false } }
    let x := s.out 24
    s.pgPaired 6 0 = true ∧ s.pulsesOn 6 0 = true ∧ x.older = [] ∧ x.prev = none ∧ x.mode = .driven ∧ x.pin ≠ .high ∧
      x.cur = some { rise := 640, fall := some 5640, commanded := false, counted := false } ∧
      fieldOf (s.pg 6).dead F.PG_DEAD_DT_A = 1024 ∧ 640 + 1024 < 5640 ∧ s.beforeBoundary 6 (640 + 1024) = true ∧
      x.commanded = x.emitted + x.suppressed ∧ x.commanded ≠ -1 ∧ 0 < s.blankLen 6 0 := by decide

/-- Group 6 is synchronised to the heats of source 1, with its STATUS, the instant of its next boundary and those of its restarts. -/
def heated (status : Word) (next : Option Nat) (restarts : List Nat) : State :=
  let s := sets group6 [(A.PG_CFG 6, 0x00801000), (A.PG_STATUS 6, status), (A.RUN_HEAT_CFG, fieldBits F.RUN_HEAT_CFG_SRC 1 ||| 500)]
  s.setPg 6 { s.pg 6 with next := next, restartAt := restarts }

theorem witness_heated : let run := fieldMask F.PG_STATUS_RUNNING
    (∀ s ∈ [heated run (some 12800) [], heated run (some 64) [], heated 0 none [], heated run (some 12800) [20000],
      heated run (some 12800) [12864]],
      s.runnerOn = true ∧ s.supply.entering = none ∧ s.fld A.RUN_HEAT_CFG F.RUN_HEAT_CFG_SRC = 1 ∧
        s.fld (A.PG_CFG 6) F.PG_CFG_SYNC = 2 ∧ s.pgSync 6 = 2 ∧ s.pgPending 6 = false ∧ s.pgEn 6 = true ∧ 128 ≤ s.pgPeriod 6 ∧
        s.pgPhase 6 = 0 ∧ max s.rc (s.heatDue.getD 0) = 0 ∧ (s.pg 6).holdNext = false ∧ (s.pg 6).holdStop = false ∧
        (s.pg 6).armed = 0) ∧
      (heated 0 none []).pgRunning 6 = false ∧ (heated run (some 64) []).pgRunning 6 = true ∧ 64 ≤ 64 * (0 + 1) ∧
      64 * (0 + 1) < 12800 ∧ (heated 0 none []).pgPaired 6 0 = false := by decide

/-! ### Witnesses: memories, Ladle, the debug port, flash -/

/-- The SRAM is ready. -/
def ready : State := base.setReg A.MEM_STATUS (fieldMask F.MEM_STATUS_SRAM_READY)

theorem witness_scrub : base.mayWrite sup = true ∧ base.supply.phase = .good ∧ base.supply.power ≠ .dormant ∧
    ready.runnerOn = true ∧ regionOf 0x10000013 = .sram ∧ regionOf (0x10000013 / 8 * 8) = .sram ∧
    ready.memoryWaits 0x10000013 = false ∧ ready.poisoned (0x10000013 / 8 * 8) = false ∧ base.engineBusy = false ∧
    base.powered = true ∧ ready.upset 0x10000013 = .none ∧ (ready.strike 0x10000013 .corrected).upset 0x10000013 = .corrected ∧
    (let s := sets base [(A.IOMUX_CFG 61, fieldBits F.IOMUX_CFG_FUNC 1), (A.HOST_EN, fieldBits F.HOST_EN_UART 4)]
     s.muxPrimary (57 + 2 * 2) = true ∧ (s.fld A.HOST_EN F.HOST_EN_UART).testBit 2 = true) := by decide

/-- Ladle engine 3 in a mode, with its STATUS, from 0x10000100 to 0x10000200. -/
def ladle (mode : Nat) (status : Word) (payload : Option Payload) : State :=
  (sets ready [(A.LD_CTRL 3, 1 ||| fieldBits F.LD_CTRL_MODE mode), (A.LD_STATUS 3, status), (A.LD_COUNT 3, 4),
    (A.LD_SRC_LO 3, 0x10000100), (A.LD_DST_LO 3, 0x10000200)]).setLadle 3 { LadleState.init with payload := payload }

theorem witness_ladleStart : (ladle 0 0 none).writable (A.LD_CTRL 3) ∧ (ladle 0 0 none).mayWrite sup = true ∧
    (∀ m ≤ 2, (ladle m 0 none).ldMode 3 = m) ∧
    (ladle 0 0 none).ldDisabled 3 = false ∧ (ladle 0 0 none).ldFault 3 = false ∧ 2 ≤ (ladle 0 0 none).ldCount 3 ∧
    (ladle 0 1 none).ldDisabled 3 = true ∧ (ladle 0 0 none).bit (A.LD_CTRL 3) F.LD_CTRL_EN = true ∧
    ((ladle 0 1 none).setReg (A.LD_CTRL 3) 0).bit (A.LD_CTRL 3) F.LD_CTRL_EN = false ∧
    (ladle 0 0 none).channelsInto (epLdWrite 3) = [] ∧ (ladle 0 0 none).producerChannel (epLdRead 3) = none ∧
    ((ladle 0 0 none).ladle 3).payload = none ∧ ((ladle 1 0 (some 5)).ladle 3).payload.isSome = true ∧
    (ladle 0 9 none).ldFault 3 = true ∧ ((ladle 0 0 none).setReg (A.LD_COUNT 3) 0).ldCount 3 = 0 ∧
    ((ladle 1 0 none).setReg (A.LD_COUNT 3) 1).ldCount 3 = 1 ∧ (ladle 1 2 (some 5)).ldBusy 3 = true ∧
    ((ladle 1 0 none).setReg (A.LD_COUNT 3) 1).ldMode 3 = 1 := ⟨writable_of (by decide), by decide⟩

/-- A COPY engine whose stop waits for its unit. -/
theorem witness_ladleStopping : let s := (ladle 2 2 (some 5)).setReg (A.LD_CTRL 3) (fieldBits F.LD_CTRL_MODE 2)
    let t := s.setLadle 3 { s.ladle 3 with stopping := true }
    (t.ladle 3).stopping = true ∧ t.bit (A.LD_CTRL 3) F.LD_CTRL_EN = false ∧ t.ldMode 3 = 2 ∧ t.ldDisabled 3 = false ∧
      t.ldFault 3 = false ∧ t.ldCount 3 = 4 := by decide

theorem witness_ladleUnits : (ladle 0 2 none).ldRuns 3 0 = true ∧ ((ladle 0 2 none).ladle 3).stopping = false ∧
    (ladle 0 2 none).ldSrc 3 = 0x10000100 ∧ (ladle 0 2 none).ldDst 3 = 0x10000200 ∧ regionOf 0x10000200 = .sram ∧
    (ladle 0 2 none).memoryWaits 0x10000200 = false ∧ (ladle 0 2 none).poisoned 0x10000200 = false ∧
    (ladle 0 2 none).upset 0x10000200 = .none ∧
    (ladle 1 2 (some 5)).ldRuns 3 1 = true ∧ ((ladle 1 2 (some 5)).ladle 3).payload = some 5 ∧
    ((ladle 1 2 (some 5)).ldDst 3 + 8 * (ladle 1 2 (some 5)).ldWr 3) % 8 = 0 ∧ (ladle 2 2 none).ldRuns 3 2 = true ∧
    (ladle 2 2 none).producerChannel (epLdRead 3) = none ∧
    ((ladle 0 2 none).setReg (A.LD_SRC_LO 3) 0x10000102).ldSrc 3 % 4 ≠ 0 := by decide

/-- A session is open on port `p`. -/
def session (p : Nat) : State := base.putFieldBit A.SESSION_STATUS F.SESSION_STATUS_OPEN p true

theorem witness_debug : let s := (session 4).setCore 0 { base.core 0 with debugHalt := true }
    let l := { s with pairLock := 1 }
    (session 4).debugOpen = true ∧ base.debugOpen = false ∧ s.debugOpen = true ∧ (s.core 0).debugHalt = true ∧
      (s.core 0).debugStep = false ∧ s.pairLocked 0 = false ∧ l.debugOpen = true ∧ l.pairLocked 0 = true ∧ l.pairState 0 ≠ 3 := by decide

theorem witness_flashStart : base.mayWrite sup = true ∧ base.basicAt A.FLASH_CMD = false ∧ Regs.reserved base ∧
    byUser sup = false ∧ base.flashBusy = false ∧ base.bit A.FLASH_STATUS F.FLASH_STATUS_SUSPENDED = false ∧
    base.flash.suspended = none ∧ base.flash.job = none ∧ (0x200040 : BitVec 26).toNat % 64 = 0 ∧
    (0x200000 : BitVec 26).toNat % 0x20000 = 0 ∧ (0x200041 : BitVec 26).toNat % 64 ≠ 0 ∧
    (0x200040 : BitVec 26).toNat % 0x20000 ≠ 0 ∧ user.mayWrite (.core 0 true) = true ∧ byUser (.core 0 true) = true ∧
    user.basicAt A.FLASH_CMD = false ∧ fits user = true :=
  ⟨by decide, by decide, reserved_of_fits (by decide), by decide⟩

/-- A flash command runs. -/
def flashJob (j : FlashJob) : State :=
  { base with flash := { base.flash with job := some j } }.setBit A.FLASH_STATUS F.FLASH_STATUS_BUSY

theorem witness_flashBusy : (flashJob .lock).flashBusy = true ∧ (flashJob .lock).erasing = none ∧ (flashJob (.erase 16 false)).erasing = some 16 ∧
    (flashJob (.erase 0 false)).erasing = none ∧ (flashJob (.erase 16 false)).flashBusy = true ∧ (flashJob (.erase 16 false)).flash.job = some (.erase 16 false) ∧
    (flashJob (.erase 16 false)).bit A.FLASH_STATUS F.FLASH_STATUS_SUSPENDED = false ∧
    (base.setReg A.FLASH_INTERRUPTED 0x80000000).bit A.FLASH_INTERRUPTED F.FLASH_INTERRUPTED_VALID = true ∧
    base.runnerOn = true := by decide

theorem witness_flashSuspended :
    let s := { base with flash := { base.flash with suspended := some 16 } }.setBit A.FLASH_STATUS F.FLASH_STATUS_SUSPENDED
    s.mayWrite sup = true ∧ s.basicAt A.FLASH_CMD = false ∧ fits s = true ∧ s.flashBusy = false ∧
      s.bit A.FLASH_STATUS F.FLASH_STATUS_SUSPENDED = true ∧ s.flash.suspended = some 16 := by decide

theorem witness_flashEnd : base.engineBusy = false ∧ (flashJob (.erase 0 false)).eraseCause 0 ≠ 0 ∧ (List.replicate 64 (7 : Byte)).length = 64 ∧
    (flashJob (.program 0x200040 [])).programCause (0x200040 / 64) = 0 ∧
    (flashJob (.program 0x40 [])).programCause (0x40 / 64) ≠ 0 ∧ (flashJob (.erase 16 false)).eraseCause 16 = 0 ∧
    16 ∉ (flashJob (.erase 16 false)).flash.retire ∧ (flashJob (.erase 16 true)).flash.job = some (.erase 16 true) ∧ (flashJob .lock).flash.pwdLocked = false ∧
    (flashJob (.suspend (some 16))).flash.job = some (.suspend (some 16)) := by decide

/-! ### Witnesses: Twiast -/

/-- Port 1 in a state, changed by `f`. -/
def port (l : TwLink) (f : TwPort → TwPort) : State :=
  base.setPort 1 (f { TwPort.reset with link := l, localCr := 32, transitCr := 32 })

def up : State := port .up id

/-- A token for node 77. -/
def twToken (hops : Byte) : TwToken := { dest := 77, src := 5, hops := hops, payload := 0x1122334455667788 }

theorem witness_flitArrives : up.alive = true ∧ (up.port 1).link ≠ .disabled ∧ (up.port 1).link ≠ .down ∧
    9 ≤ flitType (BitVec.ofNat 128 (9 * 2 ^ 124)) ∧ flitType 0 < 9 ∧
    flitType (tokenFlit 0 (twToken 3)) = 1 ∧ flitBits (tokenFlit 0 (twToken 3)) 15 0 = flitCrc (tokenFlit 0 (twToken 3)) ∧
    flitBits (tokenFlit 0 (twToken 3) ^^^ 1) 15 0 ≠ flitCrc (tokenFlit 0 (twToken 3) ^^^ 1) ∧
    flitBits (tokenFlit 0 (twToken 3)) 97 88 = (up.port 1).rxSeq.toNat ∧
    flitBits (tokenFlit 4 (twToken 3)) 97 88 ≠ (up.port 1).rxSeq.toNat := by decide +kernel

theorem witness_tap : powered.supply.phase = .good ∧ powered.supply.power ≠ .dormant ∧
    powered.fld (A.IOMUX_CFG 113) F.IOMUX_CFG_FUNC ≠ 2 ∧ (!powered.released && powered.sessionOpen 4) = false ∧
    (!(session 4).released && (session 4).sessionOpen 4) = true := by decide

theorem witness_routes : up.route 1 (twToken 3) ≠ .dead ∧ up.route 1 (twToken 0) = .dead ∧ (up.port 1).dead = none ∧
    (up.port 1).localBuf = [] ∧ (up.port 1).transitBuf = [] := by decide

theorem witness_linkFlit : let s := port .up (fun x => { x with retry := [(0, twToken 3), (1, twToken 3)], txSeq := 2 })
    (BitVec.ofNat 10 (flitBits (linkFlit 1 true 3 4) 123 114) - (s.port 1).oldest).toNat = 1 ∧ (s.port 1).retry.length = 2 ∧
      flitType (linkFlit 1 true 3 4) = 2 ∧ flitBits (linkFlit 1 true 3 4) 15 0 = flitCrc (linkFlit 1 true 3 4) ∧
      (BitVec.ofNat 10 (flitBits (linkFlit 5 true 3 4) 123 114) - (s.port 1).oldest).toNat = 5 := by decide +kernel

theorem witness_controlSlot : let s := port .up (fun x => { x with sinceControl := 15, control := [alignFlitWord] })
    15 ≤ (s.port 1).sinceControl ∧ (s.port 1).control = [alignFlitWord] ∧
      ((port .up (fun x => { x with sinceControl := 15 })).port 1).control = [] := by decide +kernel

theorem witness_tokenSlot :
    let r := port .up (fun x => { x with retry := [(0, twToken 3)], unsent := 1 })
    let o := port .up (fun x => { x with crossing := [twToken 3] })
    let p := up.setPort 0 { TwPort.reset with transitBuf := [twToken 3], audit := [(3, 1)] }
    (r.port 1).retry[(r.port 1).retry.length - (r.port 1).unsent]? = some (0, twToken 3) ∧ 0 < (r.port 1).unsent ∧
      (up.port 1).sinceControl < 15 ∧ (up.port 1).unsent = 0 ∧ (up.port 1).crossing = [] ∧ up.passing 1 = [] ∧ up.toInject 1 = [] ∧
      (o.port 1).crossing = [twToken 3] ∧ o.passing 1 = [] ∧ o.toInject 1 = [] ∧ o.mayTransmit 1 true (twToken 3) = true ∧
      p.passing 1 = [(mate 1, twToken 3)] ∧ (p.port 1).slots < 7 ∧ p.mayTransmit 1 false (twToken 3) = true := by decide +kernel

theorem witness_linkAgain : let x := port .init (fun x => { x with beenUp := true, retry := [(0, twToken 3), (1, twToken 3)], txSeq := 2 })
    let f := initFlitOf 9 0 0 false 1
    (x.port 1).link = .init ∧ flitType f = 7 ∧ flitBits f 15 0 = flitCrc f ∧ flitBits f 104 97 = 1 ∧ flitBits f 107 106 % 2 ≠ 1 % 2 ∧
      flitBits f 112 108 = x.pairRing 1 ∧ flitBits f 123 113 ≠ x.node ∧ flitBits f 105 105 = 0 ∧
      (BitVec.ofNat 48 (flitBits f 96 49) + (x.port 1).linkBase - (x.port 1).count 2).toNat = 1 ∧ (x.port 1).retry.length = 2 ∧
      x.clocksStand = false := by decide +kernel

theorem witness_retry : let s := fun n => port .up (fun x => { x with retry := [(0, twToken 3)], resends := n })
    ((s 0).port 1).retry ≠ [] ∧ ((s 0).port 1).resends < 16 ∧ 16 ≤ ((s 16).port 1).resends := by decide

theorem witness_linkStates : (port .train id).runnerOn = true ∧ (port .train id).writable (A.TW_CTRL 1) ∧
    ((port .train id).port 1).link = .train ∧ ((port .lock id).port 1).link = .lock ∧ ((port .down id).port 1).link = .down ∧
    base.bit (A.TW_CTRL 1) F.TW_CTRL_EN = false ∧ (base.port 1).draining = false ∧ (base.port 1).link = .disabled ∧
    base.bridge = false ∧ ((port .up (fun x => { x with draining := true })).port 1).draining = true ∧
    (up.setReg (A.TW_CTRL 1) 1).bit (A.TW_CTRL 1) F.TW_CTRL_EN = true ∧ (up.port 1).retry = [] ∧
    (up.port 1).crossing = [] ∧ (up.port 1).localBuf = [] ∧ up.channelsInto (epTwTx 1) = [] :=
  ⟨by decide, writable_of (by decide), by decide⟩

theorem witness_initFlit : let f := initFlitOf 9 0 0 true 33
    let g := initFlitOf 9 0 1 true 33
    ((port .init id).port 1).link = .init ∧ flitType f = 7 ∧ flitBits f 15 0 = flitCrc f ∧ flitBits f 104 97 = 1 ∧
      flitBits f 107 106 % 2 ≠ 1 % 2 ∧ flitBits f 112 108 = (port .init id).pairRing 1 ∧ flitBits f 123 113 ≠ (port .init id).node ∧
      flitBits f 105 105 = 1 ∧ ((port .init id).port 1).beenUp = false ∧ flitBits g 107 106 % 2 = 1 % 2 ∧
      flitBits g 15 0 = flitCrc g := by decide +kernel

theorem witness_linkAudit : let s := port .up (fun x => { x with transitBuf := [twToken 0], audit := [(1, 3)] })
    s.runnerOn = true ∧ fits s = true ∧ (s.port 1).localBuf = [] ∧ s.route 1 (twToken 0) = .dead ∧
      (up.setReg (A.TW_DEAD_INFO 1) 0x80000000).bit (A.TW_DEAD_INFO 1) F.TW_DEAD_INFO_FULL = true ∧
      flitType (auditFlitOf 3) = 6 ∧ flitBits (auditFlitOf 3) 15 0 = flitCrc (auditFlitOf 3) ∧
      BitVec.ofNat 48 (flitBits (auditFlitOf 3) 123 76) + (s.port 1).linkBase - (s.port 1).count 2 ≤
        (s.port 1).count 1 - (s.port 1).count 2 ∧
      (s.port 1).count 1 - (s.port 1).count 2 <
        BitVec.ofNat 48 (flitBits (auditFlitOf 4) 123 76) + (s.port 1).linkBase - (s.port 1).count 2 := by decide +kernel

/-- Port 1 is up and TIME_SRC is `n`. -/
def source (n : Nat) : State := up.setFld A.TW_NODE F.TW_NODE_TIME_SRC n

theorem witness_time : (source 1).timeSrc = 1 ∧ (source 1).linkUp (source 1).timeSrc = true ∧ 4 ≤ (source 4).timeSrc ∧
    flitType (timeReqFlit 9) = 3 ∧ flitBits (timeReqFlit 9) 15 0 = flitCrc (timeReqFlit 9) ∧
    flitType (timeRespFlit 7 8) = 4 ∧ flitBits (timeRespFlit 7 8) 15 0 = flitCrc (timeRespFlit 7 8) ∧
    (source 1).twSys.asked = none ∧
    ({ source 1 with twSys := { TwSystem.reset with asked := some (100, 0xFFFF) } } : State).twSys.asked = some (100, 0xFFFF) := by
  decide +kernel

/-- What a TIME_RESP with T2 `b` adds up to, where T1 is 100 and T3 and T4 are equal. -/
theorem witness_thetas :
    ((BitVec.ofNat 38 (flitBits (timeRespFlit 110 500) 123 86) - (100 : Stamp)).toInt * 1250).natAbs < 320000 ∧
      320000 ≤ ((BitVec.ofNat 38 (flitBits (timeRespFlit 3000 500) 123 86) - (100 : Stamp)).toInt * 1250).natAbs := by decide +kernel

def aPlan : HeatPlan := { epoch := 7, gen := 9, period := 50, start := 10000 }

theorem witness_systemHeats : (source 4).writable A.TW_SYS_CTRL ∧ (source 4).mayWrite sup = true ∧ (source 4).timeSrc = 4 ∧
    ({ source 4 with twSys := { TwSystem.reset with issued := some aPlan } } : State).twSys.issued = some aPlan ∧
    ({ source 4 with twSys := { TwSystem.reset with epoch := some 7 } } : State).twSys.issued = none ∧ (source 1).timeSrc ≠ 4 ∧
    flitType (heatFlitOf aPlan) = 5 ∧ flitBits (heatFlitOf aPlan) 15 0 = flitCrc (heatFlitOf aPlan) ∧
    (source 1).twSys.adopted = none ∧ ((10 : Byte) - 9).toNat = 1 ∧ ((9 : Byte) - 9).toNat = 0 := ⟨writable_of (by decide), by decide +kernel⟩

theorem witness_flitRanges : ∃ node ring port : Nat, node < 2048 ∧ ring < 32 ∧ port < 4 ∧ node = 2047 ∧ ring = 31 ∧ port = 3 :=
  ⟨2047, 31, 3, by decide⟩

/-! ### Witnesses: sessions, host links, Assay -/

/-- Ethernet port 0 carries messages to 192.168.0.60. -/
def ethernet : State :=
  sets { base with host := { HostState.reset with links := 2 } } [(A.ETH_MGMT_CTRL 0, 1), (A.ETH_MGMT_IPV4 0, 0xC0A8003C)]

theorem witness_requests : base.portUp 4 = true ∧ base.portUp 3 = false ∧ base.addressed 4 (request 3 []) = true ∧
    ethernet.portUp 1 = true ∧ ethernet.addressed 1 (request 3 []) = true ∧
    ethernet.addressed 1 { request 3 [] with destPort := 7161 } = false ∧ base.engineBusy = false ∧
    ({ base with host := { base.host with keyReply := some (4, 7, 99) } } : State).engineBusy = true ∧
    base.ownsSession 4 (request 2 []) = false ∧ (session 4).ownsSession 4 (request 2 []) = true ∧ (session 4).sessionOpen 4 = true ∧ base.sessionOpen 4 = false ∧
    base.lockedOut 4 = false ∧ (base.putFieldBit A.SESSION_STATUS F.SESSION_STATUS_LOCKOUT 4 true).lockedOut 4 = true ∧
    (request 1 (List.replicate 16 0)).payload.length = 16 ∧ base.flash.prot.getLsbD 1 = false ∧ (session 4).flashBusy = false ∧
    base.flash.suspended ≠ some 10 ∧ base.flashUnlocked = false ∧
    ({ base with flash := { base.flash with prot := 2 } } : State).flash.prot.getLsbD 1 = true ∧
    ({ base with flash := { base.flash with suspended := some 10 } } : State).flash.suspended = some 10 ∧
    (flashJob .lock).flashBusy = true := by decide

/-- Requests of every CODE and payload used, with the LENGTH and CRC of R439, and one with a wrong LENGTH. -/
theorem witness_frames : (∀ c ∈ [0, 2, 3, 6, 9, 255], frameOk (request c []) c = true) ∧
    (∀ c ∈ [1, 7], frameOk (request c (List.replicate 16 0)) c = true) ∧
    frameOk { request 3 [] with length := 1 } 3 = false := by decide +kernel

theorem witness_key : hashBytes (sha256 (List.replicate 16 0)) = base.keyHash := by decide +kernel

theorem witness_wrongKey : hashBytes (sha256 (List.replicate 16 1)) ≠ base.keyHash := by decide +kernel

theorem witness_accesses : let s := ready.putFieldBit A.SESSION_STATUS F.SESSION_STATUS_OPEN 4 true
    let r := fun (c a : Nat) => request c (leBytes 8 a ++ leBytes 4 1)
    s.portUp 4 = true ∧ s.addressed 4 (r 4 0x10000100) = true ∧ s.engineBusy = false ∧ s.ownsSession 4 (r 4 0x10000100) = true ∧
      (r 4 0x10000100).ecc = [] ∧ 0x10000100 % 4 = 0 ∧ regionOf 0x10000100 = .sram ∧ s.memoryWaits 0x10000100 = false ∧
      s.poisoned 0x10000100 = false ∧ s.upset 0x10000100 = .none ∧ frameOk (r 4 0x10000100) 4 = true ∧
      frameOk (r 5 0x10000100) 5 = true ∧ 0x10000102 % 4 ≠ 0 ∧ frameOk (r 4 0x10000102) 4 = true ∧
      frameOk (r 5 0x10000102) 5 = true := by decide +kernel

theorem witness_forward : let s := { session 4 with host := { HostState.reset with forward := some (4, 7, 99) } }
    s.host.forward.isSome = true ∧ (session 4).host.forward = none ∧ 1 ≤ (request 8 [1]).payload.length ∧ frameOk (request 8 [1]) 8 = true ∧
      s.fld A.SESSION_CTRL F.SESSION_CTRL_TIMEOUT ≠ 0 ∧
      ((session 4).setReg A.SESSION_CTRL 0).fld A.SESSION_CTRL F.SESSION_CTRL_TIMEOUT = 0 ∧
      (s.runnerOn && !s.basicAt A.SESSION_REPLY_CTRL && fits s) = true ∧ (256 : BitVec 9).toNat ≤ 256 := by decide +kernel

/-- PCIe and Ethernet port 0 are enabled, and software wants PCIe up. -/
def hosts : State := flagged [(A.HOST_EN, 3), (A.HOST_LINK, 1)]

theorem witness_links : hosts.writable A.HOST_LINK ∧ hosts.reg A.HOST_LINK &&& ~~~(3 : Word) = 0 ∧
    BitVec.ofNat 32 (bit01 (hosts.bit A.HOST_EN F.HOST_EN_PCIE) + 2 * hosts.fld A.HOST_EN F.HOST_EN_ETH) = 3 ∧
    hosts.hostOn = true ∧ hosts.linkEnabled .pcie = true ∧ hosts.linkWanted .pcie = true ∧ hosts.linkWanted (.eth 0) = false ∧
    hosts.hostLink 0 = false ∧ hosts.host.pcieRef = false ∧ hosts.ipv6Bad 1 = true ∧ ({ hosts with host := { HostState.reset with links := 1 } } : State).hostLink 0 = true ∧
    ipv4Reserved 0x0A000001 = false ∧ ipv4Reserved 0xE0000001 = true ∧
    (0x0A000001 : Word) &&& ~~~definedMask (mgmtRegAddr 1 .ipv4) = 0 ∧ fieldOf 1 F.ETH_MGMT_CTRL_V6_EN = 0 :=
  ⟨writable_of (by decide), by decide⟩

theorem witness_addresses : base.portUp 1 = false ∧ ethernet.portUp 1 = true ∧
    ethernet.bit (A.ETH_MGMT_CTRL 0) F.ETH_MGMT_CTRL_V4_EN = true ∧ 0xC0A8003C = ethernet.reg (A.ETH_MGMT_IPV4 0) ∧
    (1 : Word) ≠ ethernet.reg (A.ETH_MGMT_IPV4 0) ∧ ethernet.hostOn = true ∧
    ({ ethernet with host := { ethernet.host with pps := 1 } } : State).host.pps.getLsbD 0 = true ∧
    ethernet.host.pps.getLsbD 0 = false := by decide

/-- Region 70 is requested, and the supply carries its test. -/
def tests : State := sets base [(A.ASSAY_REQ 2, 0x40), (A.PM_LIMIT, 0xFFFFFFFF)]

theorem witness_assayStart : tests.writable (A.ASSAY_REQ 2) ∧ tests.mayWrite sup = true ∧ tests.runnerOn = true ∧
    tests.assay.arbitrations = [] ∧ tests.requested 70 = true ∧ tests.regionReady 70 = true ∧
    (∀ q < 70, tests.requested q = false ∨ tests.regionReady q = false) ∧ tests.together 70 = [70] ∧ tests.admitted 1 = true ∧
    tests.assay.lane0 = none ∧ tests.assay.boot = none ∧ user.mayWrite (.core 0 true) = true ∧
    (base.setReg A.PM_LIMIT 0).admitted 1 = false ∧ (base.setReg A.PM_LIMIT 0).admitted 2 = false :=
  ⟨writable_of (by decide), by decide⟩

/-- Region `r` is under test in lane 0. -/
def testing (r : Nat) : State := { base with assayTokens := 32, assay := { base.assay with lane0 := some r } }

theorem witness_assayEnd : ∀ r ∈ [0, 3, 32, 33, 45, 70, 85], r < 86 ∧ (testing r).assay.lane0 = some r ∧
    (testing r).assay.lane1 = none ∧ (testing r).assay.arbitrations = [] ∧ (testing r).pairLocked (r % 40 % 16 / 2) = false ∧
    (testing r).assay.boot = none ∧ (testing r).engineBusy = false ∧ (testing r).assay.lane0 ≠ (testing r).assay.lane1 := by
  decide

/-- Region 70 is under test in step 7 of the boot, alone or before region 71. -/
theorem witness_bootAssay : ∀ q ∈ [[], [71]], let b : BootTest := { option := 0, entry := 0x200, queue := q }
    let s := { testing 70 with assay := { (testing 70).assay with boot := some b } }
    s.assay.lane0 = some 70 ∧ s.assay.lane1 = none ∧ s.assay.boot = some b ∧ s.bootCore < 15 ∧ s.engineBusy = false ∧
      (s.core 15).started = false := by decide

/-! ### Witnesses: the cores' instructions -/

theorem witness_ready : ∀ len ∈ [1, 2, 3, 5, 7], base.ready 0 len := by
  unfold State.ready State.agrees
  decide

theorem witness_stackReady : ∀ q ∈ [(0, 1), (1, 0), (1, 1), (1, 2), (2, 0), (2, 1), (2, 2), (2, 3), (2, 4), (3, 1), (3, 3), (4, 1)],
    base.stackReady 0 .ds q.1 q.2 := by
  unfold State.stackReady
  decide

theorem witness_dataStack : (base.core 0).dataId = .ds ∧ (base.core 0).retId = .rs ∧ (base.coreNow 0).user = false := by decide

theorem witness_pick : (base.stack 0 .ds).ptr.toNat + 8 * 3 + 8 ≤ (base.stack 0 .ds).hi.toNat ∧
    ((base.stack 0 .ds).cached ((base.stack 0 .ds).ptr.toNat + 8 * 3)).isSome = true ∧ (3 : Byte).toNat < 16 ∧
    16 ≤ (16 : Byte).toNat := by decide

theorem witness_takes : (base.coreNow 0).takes 3 ∧ (base.coreNow 0).takes (2 ^ 39) := by
  unfold Core.takes
  decide

theorem witness_division : base.operand 0 0 ≠ 0 ∧ (runs [0, 5]).operand 0 0 = 0 ∧
    ((runs [0, 5]).coreNow 0).effective Psw.dze = false ∧ 16 ≤ 16 := by decide

theorem witness_crc : (∀ m : Byte, m.toNat ≤ 2 → m.toNat < 2 → (0 : Byte) = 0) ∧ 2 < (3 : Byte).toNat ∧ (255 : Nat) < 256 := by decide

/-- Core 0 at the end of a loop's body. -/
def looping : State := base.setCore 0 { base.core 0 with pswE := 0x01100040, leE := 0x100, lc := 2, lcE := 2 }

theorem witness_loopBack : (base.core 0).pend = 0 ∧ (base.core 0).lc = (base.core 0).lcE ∧
    (looping.core 0).pswE.getLsbD 20 = true ∧ (looping.core 0).pc = (looping.core 0).leE ∧
    (looping.core 0).lc = (looping.core 0).lcE := by decide

/-- The state after CALL 0x200 with frame registers 0 and 15. -/
def called : State := next (.call 0 0x8001 0x200) base

theorem witness_call : ((base.coreNow 0).stack .rs).check .rs 0 3 = none ∧
    ((base.coreNow 0).stack .rs).cells.length + 2 + 1 ≤ StackId.rs.depth ∧
    (∀ p ∈ ((base.coreNow 0).stack .rs).cells, ((base.coreNow 0).stack .rs).ptr.toNat ≤ p.1) := by decide

theorem witness_return : called.ready 0 1 ∧ exec (.call 0 0x8001 0x200) base = .next called ∧
    ((called.coreNow 0).stack .rs).top 0 = 0x8001_0000_0107 ∧ called.stackReady 0 .rs 3 0 :=
  ⟨by unfold State.ready State.agrees; decide, rfl, by decide, by unfold State.stackReady; decide⟩

/-- Core 0 with the address 0x20100 of its D-TCM, or one of the SRAM, on top of its stack. -/
def accessing (a : Cell) : State := (runs [a, 2, 3]).setReg A.MEM_STATUS (fieldMask F.MEM_STATUS_SRAM_READY)

theorem witness_ownAccess : ∀ q ∈ [(1, false), (2, false), (4, true), (8, false)], ∀ write : Bool,
    ((accessing 0x20100).begun 0).reaches 0 0x20100 q.1 write q.2 0x20100 := by
  unfold State.reaches
  decide

theorem witness_ownAccessReady : (accessing 0x20100).ready 0 1 ∧ (accessing 0x20100).stackReady 0 .ds 1 1 ∧
    (accessing 0x20100).stackReady 0 .ds 2 0 ∧ ((accessing 0x20100).operand 0 0).toNat % 2 ^ 32 = 0x20100 ∧
    (accessing 0x20100).poisoned ((accessing 0x20100).coreAddr 0 0x20100) = false ∧
    (accessing 0x20100).upset ((accessing 0x20100).coreAddr 0 0x20100) = .none ∧ ((accessing 0x20100).core 0).stores = [] := by
  unfold State.ready State.agrees State.stackReady
  decide

theorem witness_sharedAccess : ((accessing 0x10000100).begun 0).deviceAt 0 0x10000100 = false ∧
    ∀ write : Bool, ((accessing 0x10000100).begun 0).reaches 0 0x10000100 4 write true 0x10000100 := by
  unfold State.reaches
  decide

theorem witness_loadReturn : let s := accessing 0x10000100
    let t := s.setCore 0 { s.core 0 with loadWait := some ⟨.ld, 0x10000100, [0x10000100, 0]⟩ }
    t.coreOn 0 = true ∧ (t.core 0).loadWait = some ⟨.ld, 0x10000100, [0x10000100, 0]⟩ ∧ (t.core 0).shadow = none ∧
      (t.core 0).stores = [] ∧ regionOf 0x10000100 = .sram ∧ t.memoryWaits 0x10000100 = false ∧ t.poisoned 0x10000100 = false ∧
      t.upset 0x10000100 = .none ∧ t.agrees 0 := by
  unfold State.agrees
  decide

/-- A load whose data is to land in the cell at `a`. -/
def shadowed (a : Nat) : State := base.setCore 0 { base.core 0 with shadow := some ⟨.ds, a, 9⟩ }

theorem witness_loadShadow : (shadowed 0x3EFE0).executes 0 = true ∧ ((shadowed 0x3EFE0).core 0).job = none ∧
    ((shadowed 0x3EFE0).core 0).progress = 0 ∧ fetchCheck 0 0x100 1 (shadowed 0x3EFE0) = .ok () (shadowed 0x3EFE0) ∧
    ((shadowed 0x3EFE0).stack 0 .ds).ptr.toNat ≤ 0x3EFE0 ∧ (((shadowed 0x3EFE0).stack 0 .ds).cached 0x3EFE0).isSome = true ∧
    0x3EFD8 < ((shadowed 0x3EFD8).stack 0 .ds).ptr.toNat ∧ (∀ a ∈ [0x3EFD8, 0x3EFE0], (shadowed a).agrees 0) := by
  unfold State.agrees
  decide

theorem witness_storeLand : let s := accessing 0
    let a : Store := { addr := 0x10000100, bytes := [1, 2, 3, 4] }
    let t := s.setCore 0 { s.core 0 with stores := [a] }
    t.alive = true ∧ (t.core 0).stores = [a] ∧ t.memoryWaits 0x10000100 = false ∧
      t.poisoned 0x10000100 = false ∧ t.upset 0x10000100 = .none ∧ (∀ j < 4, regionOf (0x10000100 + j) = .sram) := by decide

/-- Core 0 with an accumulator, two addresses and a count, the count on top. -/
def block (count : Cell) : State := runs [count, 0x20200, 0x20100, 7]

theorem witness_block : (block 1).ready 0 1 ∧ (block 1).ready 0 3 ∧ (block 1).stackReady 0 .ds 3 1 ∧ (block 1).stackReady 0 .ds 4 1 ∧
    ((block 1).operand 0 0).toInt = 1 ∧ ((block 0).operand 0 0).toInt ≤ 0 ∧
    ((block 1).operand 0 1).toNat % 2 ^ 32 = 0x20200 ∧ ((block 1).operand 0 2).toNat % 2 ^ 32 = 0x20100 ∧
    ((block 1).begun 0).deviceAt 0 0x20100 = false ∧ ((block 1).begun 0).deviceAt 0 0x20200 = false ∧
    ((block 1).begun 0).reaches 0 0x20100 4 false false 0x20100 ∧ ((block 1).begun 0).reaches 0 0x20200 4 false false 0x20200 ∧
    ((block 1).begun 0).reaches 0 0x20200 4 true false 0x20200 := by
  unfold State.ready State.agrees State.stackReady State.reaches
  decide

theorem witness_system : (base.core 0).stores = [] ∧ base.tableStoring 0 = false ∧ base.copying 0 = false ∧
    ((base.setCore 0 { base.core 0 with stores := [{ addr := 0x10000100, bytes := [1] }] }).core 0).stores ≠ [] ∧
    ({ base with tableQ := [{ reader := 0, entry := 5, value := 6 }] } : State).tableStoring 0 = true ∧
    ((accessing 0x20100).begun 0).reaches 0 0x20100 1 false true 0x20100 := by
  unfold State.reaches
  decide

theorem witness_flush : let k := base.coreNow 0
    k.segE = [] ∧ k.pkr = 0 ∧ k.emerg = false ∧ k.stores = [] ∧ (k.stack .ds).cells.Pairwise (fun p q => p.1 + 8 ≤ q.1) ∧
      (∀ p ∈ (k.stack .ds).cells, 0x20000 ≤ p.1 ∧ p.1 + 8 ≤ 0x40000) := by decide

/-- Core 0 with source 1 pending, routed at priority 3. -/
def interrupted (psw : Word) : State :=
  let s := (base.setReg (A.IC_SRC 0 1) 0x8300).setReg A.SUP_STATUS 1
  s.setCore 0 { s.core 0 with en := [(0, 2)], psw := psw, pswE := psw, waiting := true }

theorem witness_waitExit : (interrupted 0x01000000).coreOn 0 = true ∧ ((interrupted 0x01000000).core 0).waiting = true ∧
    ((interrupted 0x01000000).core 0).effective Psw.ie = false ∧ (interrupted 0x01000000).pendingAt 0 1 = true ∧
    (interrupted 0x01000000).agrees 0 := by
  unfold State.agrees
  decide

theorem witness_cacheFill : let s := accessing 0
    translate 0 { va := 0x10000100, size := 1, write := false, fetch := true, user := false, word := false } s =
        .ok 0x10000100 s ∧ (s.core 0).hasLine 0x10000100 = false ∧ s.memoryWaits 0x10000100 = false ∧
      (∀ j < 4, s.poisoned (0x10000100 / 32 * 32 + 8 * j) = false ∧ s.upset (0x10000100 / 32 * 32 + 8 * j) = .none) ∧ s.coreOn 0 = true ∧ s.agrees 0 := by
  unfold State.agrees
  decide

theorem witness_unlockAll : (0x2 : Word).getLsbD 1 = true ∧ (0x40000000 : Word).getLsbD 30 = true ∧ (16 : Word).toNat % 32 ≤ 16 ∧
    16 < (17 : Word).toNat % 32 := by decide

theorem witness_privilege : user.ready 0 1 ∧ user.ready 0 2 ∧ (user.coreNow 0).user = true := by
  unfold State.ready State.agrees
  decide

/-- In user mode, with a PSW on the stack whose DZE differs. -/
theorem witness_userPsw : let s := user.setCore 0 { user.core 0 with du := (coreWith [0x140]).ds }
    s.ready 0 2 ∧ s.stackReady 0 (s.core 0).dataId 1 0 ∧ (s.coreNow 0).user = true ∧
      ((s.operand 0 0).setWidth 32 ^^^ (s.core 0).psw) &&& (0x01010300 : Word) ≠ 0 := by
  unfold State.ready State.agrees State.stackReady
  decide

/-- The state after the frame of an entry has been pushed. -/
def framed (pc : Word) (code : Nat) (s : State) : State :=
  match pushFrame 0 0x3FF00 [BitVec.ofNat 64 (pc.toNat + code * 2 ^ 32), BitVec.ofNat 64 0x01000040, 0] s with
  | .ok _ t => t
  | _ => s

theorem witness_entries : let k := base.coreNow 0
    k.rs.ptr = 0x3FF00 ∧ k.rs.lo.toNat + 24 ≤ k.rs.ptr.toNat ∧ k.rs.ptr.toNat ≤ k.rs.hi.toNat ∧ k.psw = 0x01000040 ∧ k.rlevel = 0 ∧
      k.pc = 0x100 ∧ opcodeUndefined 0xFF = true := by decide

theorem witness_trapFrame : pushFrame 0 0x3FF00 [BitVec.ofNat 64 (0x102 + 19 * 2 ^ 32), BitVec.ofNat 64 0x01000040, 0] (base.begun 0) =
    .ok () (framed 0x102 19 (base.begun 0)) := by decide

/-- Core 0 has claimed source 1. -/
def claimed : State := base.setCore 0 { base.core 0 with claim := some { source := 1, vector := 0x4020 } }

/-- The same core with the claim shown in its IC_CLAIM. -/
def claimShown : State := claimed.setCore 0 { claimed.core 0 with shadow := none, icClaim := BitVec.ofNat 32 (32 + 1) }

theorem witness_interruptEntry : claimed.coreOn 0 = true ∧ (claimed.core 0).claim = some { source := 1, vector := 0x4020 } ∧
    (claimed.core 0).shadow = none ∧ (claimed.core 0).progress = 0 ∧
    ((framed 0x100 33 claimShown).core 0).halted = false ∧
    pushFrame 0 0x3FF00 [BitVec.ofNat 64 (0x100 + 33 * 2 ^ 32), BitVec.ofNat 64 0x01000040, 0] claimShown =
      .ok () (framed 0x100 33 claimShown) ∧ claimed.agrees 0 := by
  unfold State.agrees
  decide

theorem witness_trapInTcm : let k := base.coreNow 0
    k.segE = [] ∧ k.pkr = 0 ∧ k.emerg = false ∧ k.stores = [] ∧ 0x20018 ≤ k.rs.ptr.toNat ∧ k.rs.ptr.toNat ≤ 0x40000 := by decide

theorem witness_reti : let s := framed 0x102 19 (runs [1])
    let t := s.setCore 0 { s.core 0 with rs := { (s.core 0).rs with ptr := 0x3FEE8 } }
    t.ready 0 1 ∧ (t.core 0).rs.ptr.toNat + 24 ≤ (t.core 0).rs.hi.toNat ∧
      peekCell 0 .rs false 0x3FEE8 (t.begun 0) = .ok 0 (t.begun 0) ∧
      peekCell 0 .rs false 0x3FEF0 (t.begun 0) = .ok 0x01000040 (t.begun 0) ∧
      peekCell 0 .rs false 0x3FEF8 (t.begun 0) = .ok (BitVec.ofNat 64 (0x102 + 19 * 2 ^ 32)) (t.begun 0) := by
  unfold State.ready State.agrees
  decide

theorem witness_claim : (interrupted 0x01000100).coreOn 0 = true ∧ ((interrupted 0x01000100).core 0).claim = none ∧
    ((interrupted 0x01000100).core 0).globalHold = false ∧ (interrupted 0x01000100).pendingAt 0 1 = true ∧
    ((interrupted 0x01000100).core 0).rlevel.toNat ≤ (interrupted 0x01000100).prio 0 1 := by decide

theorem witness_claimFirst : ∀ i < 384, (interrupted 0x01000100).pendingAt 0 i = true → i = 1 := by decide +kernel

/-- What a core puts out that puts out nothing. -/
def quiet : CoreOut :=
  { fetch := [], reads := [], landed := [], request := [], held := [], data := [], control := [], push := [], pc := 0x100,
    mode := true, ie := false, wait := false, halt := false, entry := 0 }

/-- Pair 0 runs locked; the comparison of the instruction two before this one meets the fault `r`. -/
def lockedPair (r : CmpReport) : State :=
  let k := coreWith [1, 2, 3, 4]
  let e : DelayEntry :=
    { before := ⟨k.asChecker, [], [], []⟩, pc := 0x100, primary := quiet, checker := quiet, fault := r }
  { base with pairLock := 1, cores := [(0, k), (1, k.asChecker)], delays := [(0, [e, { e with fault := noFault }])] }.setFld
    (A.LOCK_STATUS 0) F.LOCK_STATUS_STATE 1

theorem witness_mismatch : ∀ r ∈ ([⟨1, ⟨0, []⟩⟩, ⟨BitVec.ofNat 314 (2 ^ 313), ⟨0, []⟩⟩, ⟨0, ⟨0, [(5, true)]⟩⟩, noFault] : List CmpReport),
    let s := lockedPair r
    s.ready 0 1 ∧ s.pairState 0 = 1 ∧ (s.delayed 0).length = 2 ∧ ((s.delayed 0).head?.map (·.fault)) = some r ∧
      s.bit (A.LOCK_MISMATCH 0) F.LOCK_MISMATCH_VALID = false := by
  unfold State.ready State.agrees
  decide

/-- Pair 3 is in arbitration, with region `r` under test in lane 0. -/
def arbitrating (lane : Option Nat) (a : Arbitration) : State :=
  { tests with assay := { base.assay with lane0 := lane, arbitrations := [a] } }.setFld (A.LOCK_STATUS 3) F.LOCK_STATUS_STATE 2

theorem witness_arbitration : let w := arbitrating none ⟨3, [27], [], []⟩
    let own := arbitrating (some 27) ⟨3, [], [27], []⟩
    let one := arbitrating (some 6) ⟨3, [7], [6], []⟩
    let last := arbitrating (some 7) ⟨3, [], [7], [6]⟩
    let limp := last.setReg (A.LOCK_CTRL 3) (fieldMask F.LOCK_CTRL_LIMP_EN)
    w.runnerOn = true ∧ w.assay.lane0 = none ∧ w.assay.lane1 = none ∧ w.admitted 1 = true ∧
      (∀ s ∈ [own, one, last, limp], s.assay.boot = none ∧ s.engineBusy = false ∧ s.pairState 3 = 2) ∧
      (last.core 6).stores = [] ∧ last.bit (A.LOCK_CTRL 3) F.LOCK_CTRL_LIMP_EN = false ∧
      limp.bit (A.LOCK_CTRL 3) F.LOCK_CTRL_LIMP_EN = true ∧ (last.assay.lane0 = some 7 ∧ own.assay.lane0 = some 27) := by decide

theorem witness_stopped : executedBy (.nop 3) = some 3 ∧ base.executes 3 = false := by decide

/-! ### Steps with results that the spec writes out -/

/-- The top cells of core 0's supervisor stack. -/
def top (n : Nat) (s : State) : List Cell := (List.range n).map (s.operand 0)

/-- The ASCII bytes "123456789". -/
def digits : List Nat := [0x31, 0x32, 0x33, 0x34, 0x35, 0x36, 0x37, 0x38, 0x39]

/-- The check values of R294. -/
theorem test_crc_checkValues : crcRun 0 0 0xFFFFFFFF digits = 0xCBF43926 ^^^ 0xFFFFFFFF ∧ crcRun 1 0 0xFFFF digits = 0x29B1 ∧
    crcRun 2 0x07 0 digits = 0xF4 := by decide +kernel

/-- The check value of R101. -/
theorem test_crc32_pattern : crc32 (digits.map (BitVec.ofNat 8)) = 0xCBF43926 := by decide +kernel

/-- The division of the example "resuming a division": 1,000,000 by 7 is 142,857, remainder 1. -/
theorem test_div_example : top 2 (next (.div 0 16) (runs [7, 1000000])) = [142857, 1] := by decide

/-- The quotient is truncated toward zero, and -2^31 by -1 is +2^31 (R302). -/
theorem test_div_signs : top 2 (next (.div 0 16) (runs [2, -7])) = [-3, -1] ∧
    top 2 (next (.div 0 16) (runs [-1, -0x80000000])) = [0x80000000, 0] := by decide

/-- SUB takes the top from the cell below it; 0x7FFF_FFFF plus 1 keeps its guard bits while SAT is 0 (R273). -/
theorem test_sub_order : top 1 (next (.sub 0) (runs [2, 5])) = [3] ∧
    top 1 (next (.add 0) (runs [1, 0x7FFFFFFF])) = [0x80000000] := by decide

/-- SHL multiplies by 16, and LSR brings in zeros (R291). -/
theorem test_shifts : top 1 (next (.shl 0 4) (runs [3])) = [48] ∧ top 1 (next (.lsr 0 4) (runs [0x80000000])) = [0x08000000] := by
  decide

/-- NIP drops the second cell, TUCK copies the top below it (R290). -/
theorem test_stackWords : top 2 (next (.nip 0) base) = [1, 3] ∧ top 3 (next (.tuck 0) base) = [1, 2, 1] ∧
    top 3 (next (.rot 0) base) = [3, 1, 2] ∧ ((next (.nip 0) base).core 0).pc = 0x101 := by decide

/-- The operations of the example "a phase current loop". -/
theorem test_law_currentLoop :
    (next (.leSub 3 .none) (law (op 5 4 1 2 0) 0x11000000 0x10000000 0)).S 3 4 = 0x01000000 ∧
    (next (.leMul 3 .none) (law (op 0x0C 4 1 2 0) 81920 0x01000000 0)).S 3 4 = 640 ∧
    (next (.leMac 3 .none) (law (op 0x0D 3 1 2 0) 1024 0x01000000 56800)).S 3 3 = 56808 ∧
    (next (.leAdd 3 .none) (law (op 4 4 1 2 0) 640 56808 0)).S 3 4 = 57448 := by decide

/-- A lookup of the example "choosing the phase count": argument 0x3203_0000, SHIFT 18. -/
def phaseCount (value slope : Nat) : State :=
  (sets (law (op 0x15 4 1 2 0) 0x32030000 0 0)
    [(A.LE_CFG 3, fieldBits F.LE_CFG_PART0 2 ||| fieldBits F.LE_CFG_RND 1), (A.LT_PART_SIZE 2, 8191),
     (A.LT_PART_SCALE 2, 0x1200)]).setTableEntry 3200 (BitVec.ofNat 48 (slope * 2 ^ 32 + value))

theorem test_law_lookup : (next (.leLut 3 .none .none) (phaseCount 431000 70)).S 3 4 = 431053 ∧
    (next (.leLut 3 .none .none) (phaseCount 401300 39)).S 3 4 = 401329 := by decide

/-- Duty 57,448 of 64,000 steps, centred (the 12-phase example); with 1,024 steps of dead time A rises at 4,300. -/
theorem test_pwm_centred : alignInterval 1 0 64000 57448 = (3276, 60724) ∧
    ((freshInterval (3276, 60724)).bind (fun i => i.pulseAt 1024)) = some 4300 := by decide

/-- Grid position 187 is E12, the 84th name of R61: PWM_011. -/
theorem test_ball_example : ballOrder 187 = some 84 := by decide +kernel

/-- A flit with a bit changed fails its CRC, and the CRC of R406 over "123456789" is 0x29B1. -/
theorem test_flitCrc : crc16 (digits.map (BitVec.ofNat 8)) = 0x29B1 := by decide +kernel

/-- SHA-256 of "abc". -/
theorem test_sha256 : sha256 [0x61, 0x62, 0x63] = 0xBA7816BF8F01CFEA414140DE5DAE2223B00361A396177A9CB410FF61F20015AD := by
  decide +kernel

/-- A load of a byte from the D-TCM: the cell keeps the address until the next instruction has completed (R276). -/
theorem test_load_shadow :
    let s := next (.ldb 0 .none) ((accessing 0x20100).putBytes ((accessing 0x20100).coreAddr 0 0x20100) [0x80, 0x01])
    top 1 s = [0x20100] ∧ top 1 (next (.nop 0) s) = [0x80] := by decide

end Sys2Proof.Tests
end

/-! The proofs of the statements about the machine as a whole: what its steps keep, its reset, and its register writes. -/

namespace Sys2Proof.Machine

/-! ### What every step keeps -/

/-- Whatever command runs, the memories stay canonical, the reserved bits stay zero and the queue stays. -/
theorem exec_good {pq : List Instr} {i : Instr} {s s' : State} (hg : Good pq s) (e : exec i s = .next s') : Good pq s' := by
  cases i with
  | registerWrite who addr value => exact execRegisterWrite_good who addr value hg s' e
  | vinRise straps => exact execVinRise_good straps hg s' e
  | powerGood report => exact execPowerGood_good report hg s' e
  | vinLoss high => exact execVinLoss_good high hg s' e
  | vmidClamp => exact execVmidClamp_good hg s' e
  | safeHighForceDelay o => exact execSafeHighForceDelay_good o hg s' e
  | forceHoldExpiry o => exact execForceHoldExpiry_good o hg s' e
  | dischargeComplete => exact execDischargeComplete_good hg s' e
  | holdingCauseEnd cause => exact execHoldingCauseEnd_good cause hg s' e
  | currentLimitTrip ball elapsed => exact execCurrentLimitTrip_good ball elapsed hg s' e
  | limitTimeClear ball => exact execLimitTimeClear_good ball hg s' e
  | ioFaultClear who => exact execIoFaultClear_good who hg s' e
  | powerAverage vin power => exact execPowerAverage_good vin power hg s' e
  | thermalScan raws => exact execThermalScan_good raws hg s' e
  | thermalTrip => exact execThermalTrip_good hg s' e
  | sleepEntry => exact execSleepEntry_good hg s' e
  | entryComplete => exact execEntryComplete_good hg s' e
  | wakeEvent cause report => exact execWakeEvent_good cause report hg s' e
  | alarmExpiry report => exact execAlarmExpiry_good report hg s' e
  | clockLoss refclk => exact execClockLoss_good refclk hg s' e
  | resetPin => exact execResetPin_good hg s' e
  | resetPinRelease => exact execResetPinRelease_good hg s' e
  | softReset who => exact execSoftReset_good who hg s' e
  | wdogEnable who timeout => exact execWdogEnable_good who timeout hg s' e
  | wdogKick who => exact execWdogKick_good who hg s' e
  | wdogExpiry => exact execWdogExpiry_good hg s' e
  | release who => exact execRelease_good who hg s' e
  | coreStart who cores => exact execCoreStart_good who cores hg s' e
  | modulatorRunning n => exact execModulatorRunning_good n hg s' e
  | overload n => exact execOverload_good n hg s' e
  | stuck arrival => exact execStuck_good arrival hg s' e
  | xbRunning n => exact execXbRunning_good n hg s' e
  | swiftResult n cells later => exact execSwiftResult_good n cells later hg s' e
  | fineResult n cells later => exact execFineResult_good n cells later hg s' e
  | pathStart n fine => exact execPathStart_good n fine hg s' e
  | pathDisable n fine => exact execPathDisable_good n fine hg s' e
  | pathDisabled n fine => exact execPathDisabled_good n fine hg s' e
  | decSnap n => exact execDecSnap_good n hg s' e
  | comparatorCrossing n above below => exact execComparatorCrossing_good n above below hg s' e
  | comparatorReady n => exact execComparatorReady_good n hg s' e
  | thresholdWrite n value => exact execThresholdWrite_good n value hg s' e
  | rbSelWrite value => exact execRbSelWrite_good value hg s' e
  | rbSettled => exact execRbSettled_good hg s' e
  | quenchRequest k => exact execQuenchRequest_good k hg s' e
  | safeHighDeadTime o => exact execSafeHighDeadTime_good o hg s' e
  | groupSelfClear g => exact execGroupSelfClear_good g hg s' e
  | quenchRelease who groups => exact execQuenchRelease_good who groups hg s' e
  | swReq who raise => exact execSwReq_good who raise hg s' e
  | surveyStart n => exact execSurveyStart_good n hg s' e
  | surveyTrigger n => exact execSurveyTrigger_good n hg s' e
  | converterStartupDone n => exact execConverterStartupDone_good n hg s' e
  | conversionEnd n raw => exact execConversionEnd_good n raw hg s' e
  | urgent n value => exact execUrgent_good n value hg s' e
  | surveyDisable n => exact execSurveyDisable_good n hg s' e
  | surveyDisabled n => exact execSurveyDisabled_good n hg s' e
  | tokenIssue endpoint => exact execTokenIssue_good endpoint hg s' e
  | tokenAccept endpoint => exact execTokenAccept_good endpoint hg s' e
  | channelDisable n => exact execChannelDisable_good n hg s' e
  | channelDisabled n => exact execChannelDisabled_good n hg s' e
  | channelEnable n => exact execChannelEnable_good n hg s' e
  | auditSnap => exact execAuditSnap_good hg s' e
  | hwmClr => exact execHwmClr_good hg s' e
  | heatStart => exact execHeatStart_good hg s' e
  | timeLoRead who => exact execTimeLoRead_good who hg s' e
  | pushLo c value => exact execPushLo_good c value hg s' e
  | pushHi c q value => exact execPushHi_good c q value hg s' e
  | snapLoRead who k => exact execSnapLoRead_good who k hg s' e
  | leDispatch n ecc => exact execLeDispatch_good n ecc hg s' e
  | latchApply n => exact execLatchApply_good n hg s' e
  | leEnd n ecc => exact execLeEnd_good n ecc hg s' e
  | leNop n ecc => exact execLeNop_good n ecc hg s' e
  | leMov n ecc => exact execLeMov_good n ecc hg s' e
  | leLdi n ecc => exact execLeLdi_good n ecc hg s' e
  | leAdd n ecc => exact execLeAdd_good n ecc hg s' e
  | leSub n ecc => exact execLeSub_good n ecc hg s' e
  | leNeg n ecc => exact execLeNeg_good n ecc hg s' e
  | leAbs n ecc => exact execLeAbs_good n ecc hg s' e
  | leMin n ecc => exact execLeMin_good n ecc hg s' e
  | leMax n ecc => exact execLeMax_good n ecc hg s' e
  | leShl n ecc => exact execLeShl_good n ecc hg s' e
  | leShr n ecc => exact execLeShr_good n ecc hg s' e
  | leMul n ecc => exact execLeMul_good n ecc hg s' e
  | leMac n ecc => exact execLeMac_good n ecc hg s' e
  | leMsu n ecc => exact execLeMsu_good n ecc hg s' e
  | leLim n ecc => exact execLeLim_good n ecc hg s' e
  | leChk n ecc => exact execLeChk_good n ecc hg s' e
  | leTrip n ecc => exact execLeTrip_good n ecc hg s' e
  | leSkip n ecc => exact execLeSkip_good n ecc hg s' e
  | leBr n ecc => exact execLeBr_good n ecc hg s' e
  | leDjnz n ecc => exact execLeDjnz_good n ecc hg s' e
  | leLut n ecc entry => exact execLeLut_good n ecc entry hg s' e
  | leLutx n ecc entry => exact execLeLutx_good n ecc entry hg s' e
  | leSelmin n ecc => exact execLeSelmin_good n ecc hg s' e
  | leWdut n ecc => exact execLeWdut_good n ecc hg s' e
  | leOut n ecc => exact execLeOut_good n ecc hg s' e
  | lookupServed p entry => exact execLookupServed_good p entry hg s' e
  | stateLoWrite who n w value => exact execStateLoWrite_good who n w value hg s' e
  | stateHiWrite who n w value => exact execStateHiWrite_good who n w value hg s' e
  | stateLoRead who n w => exact execStateLoRead_good who n w hg s' e
  | tableLoWrite who entry value => exact execTableLoWrite_good who entry value hg s' e
  | tableHiWrite who entry value => exact execTableHiWrite_good who entry value hg s' e
  | tableLoRead who entry => exact execTableLoRead_good who entry hg s' e
  | leDisable n => exact execLeDisable_good n hg s' e
  | leDisabled n => exact execLeDisabled_good n hg s' e
  | leEnable n => exact execLeEnable_good n hg s' e
  | periodBoundary g => exact execPeriodBoundary_good g hg s' e
  | pulseCommanded o => exact execPulseCommanded_good o hg s' e
  | pulseEnd o => exact execPulseEnd_good o hg s' e
  | shadowWrite source => exact execShadowWrite_good source hg s' e
  | shadowTransfer g kind => exact execShadowTransfer_good g kind hg s' e
  | pgDisable g => exact execPgDisable_good g hg s' e
  | stopBoundary g => exact execStopBoundary_good g hg s' e
  | pgEnable g => exact execPgEnable_good g hg s' e
  | accSnap g => exact execAccSnap_good g hg s' e
  | delayRetrim rangeEnd => exact execDelayRetrim_good rangeEnd hg s' e
  | nop c => exact execNop_good c hg s' e
  | drop c => exact execDrop_good c hg s' e
  | dup c => exact execDup_good c hg s' e
  | flashSwap who => exact execFlashSwap_good who hg s' e
  | stackSwap c => exact execStackSwap_good c hg s' e
  | stackOver c => exact execStackOver_good c hg s' e
  | rot c => exact execRot_good c hg s' e
  | nip c => exact execNip_good c hg s' e
  | tuck c => exact execTuck_good c hg s' e
  | drop2 c => exact execDrop2_good c hg s' e
  | dup2 c => exact execDup2_good c hg s' e
  | pick c k => exact execPick_good c k hg s' e
  | sync c => exact execSync_good c hg s' e
  | wait c => exact execWait_good c hg s' e
  | waitExit c => exact execWaitExit_good c hg s' e
  | lit8 c k => exact execLit8_good c k hg s' e
  | lit16 c k => exact execLit16_good c k hg s' e
  | lit32 c k => exact execLit32_good c k hg s' e
  | lith c k => exact execLith_good c k hg s' e
  | frd c r => exact execFrd_good c r hg s' e
  | fwr c r => exact execFwr_good c r hg s' e
  | add c => exact execAdd_good c hg s' e
  | sub c => exact execSub_good c hg s' e
  | neg c => exact execNeg_good c hg s' e
  | abs c => exact execAbs_good c hg s' e
  | mulq c => exact execMulq_good c hg s' e
  | muli c => exact execMuli_good c hg s' e
  | macq c => exact execMacq_good c hg s' e
  | msuq c => exact execMsuq_good c hg s' e
  | min c => exact execMin_good c hg s' e
  | max c => exact execMax_good c hg s' e
  | shl c k => exact execShl_good c k hg s' e
  | shr c k => exact execShr_good c k hg s' e
  | lsr c k => exact execLsr_good c k hg s' e
  | satw c => exact execSatw_good c hg s' e
  | div c steps => exact execDiv_good c steps hg s' e
  | lim c => exact execLim_good c hg s' e
  | and c => exact execAnd_good c hg s' e
  | or c => exact execOr_good c hg s' e
  | xor c => exact execXor_good c hg s' e
  | not c => exact execNot_good c hg s' e
  | ceq c => exact execCeq_good c hg s' e
  | cne c => exact execCne_good c hg s' e
  | clt c => exact execClt_good c hg s' e
  | cle c => exact execCle_good c hg s' e
  | cgt c => exact execCgt_good c hg s' e
  | cge c => exact execCge_good c hg s' e
  | cltu c => exact execCltu_good c hg s' e
  | cz c => exact execCz_good c hg s' e
  | cn c => exact execCn_good c hg s' e
  | crcb c m p => exact execCrcb_good c m p hg s' e
  | crcw c m p => exact execCrcw_good c m p hg s' e
  | bcrc c m p units => exact execBcrc_good c m p units hg s' e
  | par c => exact execPar_good c hg s' e
  | brev8 c => exact execBrev8_good c hg s' e
  | brev16 c => exact execBrev16_good c hg s' e
  | brev32 c => exact execBrev32_good c hg s' e
  | ld c ecc cmp => exact execLd_good c ecc cmp hg s' e
  | ldh c ecc => exact execLdh_good c ecc hg s' e
  | ldqh c ecc => exact execLdqh_good c ecc hg s' e
  | ldb c ecc => exact execLdb_good c ecc hg s' e
  | ldbs c ecc => exact execLdbs_good c ecc hg s' e
  | ldx c ecc => exact execLdx_good c ecc hg s' e
  | st c pause cmp => exact execSt_good c pause cmp hg s' e
  | sth c pause => exact execSth_good c pause hg s' e
  | stqh c pause => exact execStqh_good c pause hg s' e
  | stb c => exact execStb_good c hg s' e
  | stx c => exact execStx_good c hg s' e
  | bmov c units => exact execBmov_good c units hg s' e
  | bmac c units => exact execBmac_good c units hg s' e
  | loadDataReturn c report => exact execLoadDataReturn_good c report hg s' e
  | storeLand c ecc => exact execStoreLand_good c ecc hg s' e
  | icacheFill c addr ecc => exact execIcacheFill_good c addr ecc hg s' e
  | br c o => exact execBr_good c o hg s' e
  | bz c o => exact execBz_good c o hg s' e
  | bnz c o => exact execBnz_good c o hg s' e
  | bv c o => exact execBv_good c o hg s' e
  | bnv c o => exact execBnv_good c o hg s' e
  | bc c o => exact execBc_good c o hg s' e
  | bnc c o => exact execBnc_good c o hg s' e
  | bsv c o => exact execBsv_good c o hg s' e
  | bnsv c o => exact execBnsv_good c o hg s' e
  | jmp c t => exact execJmp_good c t hg s' e
  | jmpi c => exact execJmpi_good c hg s' e
  | call c mask t => exact execCall_good c mask t hg s' e
  | calli c mask => exact execCalli_good c mask hg s' e
  | ret c => exact execRet_good c hg s' e
  | loop c u => exact execLoop_good c u hg s' e
  | trap c k => exact execTrap_good c k hg s' e
  | reti c => exact execReti_good c hg s' e
  | mfc c n => exact execMfc_good c n hg s' e
  | mtc c n => exact execMtc_good c n hg s' e
  | icinv c => exact execIcinv_good c hg s' e
  | icinva c => exact execIcinva_good c hg s' e
  | sflush c b => exact execSflush_good c b hg s' e
  | tlbinv c => exact execTlbinv_good c hg s' e
  | tlbinva c => exact execTlbinva_good c hg s' e
  | fence c => exact execFence_good c hg s' e
  | interruptClaim c => exact execInterruptClaim_good c hg s' e
  | interruptEntry c => exact execInterruptEntry_good c hg s' e
  | shadowPrgRead c => exact execShadowPrgRead_good c hg s' e
  | emergClear c => exact execEmergClear_good c hg s' e
  | swiSet who k bits => exact execSwiSet_good who k bits hg s' e
  | swiClr who k bits => exact execSwiClr_good who k bits hg s' e
  | unlockAll c => exact execUnlockAll_good c hg s' e
  | ladleGo who n => exact execLadleGo_good who n hg s' e
  | ladleUnit n ecc => exact execLadleUnit_good n ecc hg s' e
  | ladleEnable n => exact execLadleEnable_good n hg s' e
  | ladleDisable n => exact execLadleDisable_good n hg s' e
  | ladleFaultClear n => exact execLadleFaultClear_good n hg s' e
  | scrub addr ecc => exact execScrub_good addr ecc hg s' e
  | memoryFillDone dram => exact execMemoryFillDone_good dram hg s' e
  | debugHalt c => exact execDebugHalt_good c hg s' e
  | debugStep c => exact execDebugStep_good c hg s' e
  | debugRegisterWrite c reg value => exact execDebugRegisterWrite_good c reg value hg s' e
  | flashProgram who offset => exact execFlashProgram_good who offset hg s' e
  | flashErase who offset => exact execFlashErase_good who offset hg s' e
  | flashSuspend who => exact execFlashSuspend_good who hg s' e
  | flashResume who => exact execFlashResume_good who hg s' e
  | flashUnlock who => exact execFlashUnlock_good who hg s' e
  | flashLock who => exact execFlashLock_good who hg s' e
  | flashSetPwd who => exact execFlashSetPwd_good who hg s' e
  | flashSetProt who => exact execFlashSetProt_good who hg s' e
  | commandEnd report => exact execCommandEnd_good report hg s' e
  | flashLockoutExpiry => exact execFlashLockoutExpiry_good hg s' e
  | interruptedClear => exact execInterruptedClear_good hg s' e
  | idleFlit p flit => exact execIdleFlit_good p flit hg s' e
  | tokenFlit p flit => exact execTokenFlit_good p flit hg s' e
  | linkFlit p flit => exact execLinkFlit_good p flit hg s' e
  | timeReq p flit arrived answered => exact execTimeReq_good p flit arrived answered hg s' e
  | timeResp p flit arrived => exact execTimeResp_good p flit arrived hg s' e
  | heatFlit p flit => exact execHeatFlit_good p flit hg s' e
  | auditFlit p flit => exact execAuditFlit_good p flit hg s' e
  | initFlit p flit => exact execInitFlit_good p flit hg s' e
  | alignFlit p flit => exact execAlignFlit_good p flit hg s' e
  | flitTransmit p due => exact execFlitTransmit_good p due hg s' e
  | retryTimeout p => exact execRetryTimeout_good p hg s' e
  | lanesAdapted p => exact execLanesAdapted_good p hg s' e
  | blockLock p => exact execBlockLock_good p hg s' e
  | bringUpTimeout p => exact execBringUpTimeout_good p hg s' e
  | linkLoss p => exact execLinkLoss_good p hg s' e
  | downTimerEnd p => exact execDownTimerEnd_good p hg s' e
  | timeExchange sent => exact execTimeExchange_good sent hg s' e
  | timeLost => exact execTimeLost_good hg s' e
  | heatIssue who => exact execHeatIssue_good who hg s' e
  | heatRepeat => exact execHeatRepeat_good hg s' e
  | heatForget who => exact execHeatForget_good who hg s' e
  | portEnable p => exact execPortEnable_good p hg s' e
  | portDisable p => exact execPortDisable_good p hg s' e
  | portDisabled p => exact execPortDisabled_good p hg s' e
  | deadClear p => exact execDeadClear_good p hg s' e
  | twAuditSnap p => exact execTwAuditSnap_good p hg s' e
  | mgmtOpen port req => exact execMgmtOpen_good port req hg s' e
  | mgmtClose port req => exact execMgmtClose_good port req hg s' e
  | mgmtStatus port req => exact execMgmtStatus_good port req hg s' e
  | mgmtRead port req => exact execMgmtRead_good port req hg s' e
  | mgmtWrite port req => exact execMgmtWrite_good port req hg s' e
  | mgmtReset port req => exact execMgmtReset_good port req hg s' e
  | mgmtSetKey port req => exact execMgmtSetKey_good port req hg s' e
  | mgmtForward port req => exact execMgmtForward_good port req hg s' e
  | replyGo who len => exact execReplyGo_good who len hg s' e
  | noHandler => exact execNoHandler_good hg s' e
  | sessionTimeout port => exact execSessionTimeout_good port hg s' e
  | sessionLockoutExpiry port => exact execSessionLockoutExpiry_good port hg s' e
  | ethUp who n => exact execEthUp_good who n hg s' e
  | pcieUp who => exact execPcieUp_good who hg s' e
  | hostLinkLoss loss => exact execHostLinkLoss_good loss hg s' e
  | mgmtAddressWrite who n reg value => exact execMgmtAddressWrite_good who n reg value hg s' e
  | ppsRise n => exact execPpsRise_good n hg s' e
  | ppsFall n => exact execPpsFall_good n hg s' e
  | tapBypass => exact execTapBypass_good hg s' e
  | tapIdcode => exact execTapIdcode_good hg s' e
  | tapSamplePreload balls => exact execTapSamplePreload_good balls hg s' e
  | tapExtest => exact execTapExtest_good hg s' e
  | tapExtestPulse => exact execTapExtestPulse_good hg s' e
  | tapExtestTrain => exact execTapExtestTrain_good hg s' e
  | assayRequest who k bits => exact execAssayRequest_good who k bits hg s' e
  | assayCancel who k bits => exact execAssayCancel_good who k bits hg s' e
  | assayRegionStart => exact execAssayRegionStart_good hg s' e
  | assayRegionEnd lane result => exact execAssayRegionEnd_good lane result hg s' e
  | vinOvervoltageEnd => exact execVinOvervoltageEnd_good hg s' e
  | currentLimitChange ball limited elapsed => exact execCurrentLimitChange_good ball limited elapsed hg s' e
  | gpioLevelChange n change => exact execGpioLevelChange_good n change hg s' e
  | undefinedOpcode c op => exact execUndefinedOpcode_good c op hg s' e
  | mgmtBadCode port code req => exact execMgmtBadCode_good port code req hg s' e
  | arp n query => exact execArp_good n query hg s' e
  | hostLinkUp link => exact execHostLinkUp_good link hg s' e
  | debugResume c => exact execDebugResume_good c hg s' e

/-- The front command is taken off the queue before it runs. -/
theorem Good.dequeue {pq rest : List Instr} {s : State} (hg : Good pq s) : Good rest { s with pending := rest } := by
  obtain ⟨hmem, hjournal, hflash, hregs, -⟩ := hg.parts
  exact ⟨hmem, hjournal, hflash, hregs, rfl⟩

/-- A step keeps the memories canonical and the reserved bits zero, and takes at most the front of the queue. -/
theorem step_good {pq : List Instr} {s s' : State} (hg : Good pq s) (e : step s = .next s') : Good pq.tail s' := by
  unfold step at e
  split at e
  next c rest hq =>
    obtain rfl : pq = c :: rest := hg.queue.symm.trans hq
    exact exec_good hg.dequeue e
  next hq =>
    obtain rfl : pq = [] := hg.queue.symm.trans hq
    cases e
    exact State.doIf_good _ _ hg (fun _ hu => drainDelays_good (State.passTo_good _ hu))

/-- Settles O4: `Good`, which every command and every idle rc keep, says that the reserved bits are zero (R15). -/
theorem stepsKeepReservedFieldsZero : Obligations.StepsKeepReservedFieldsZero := by
  unfold Obligations.StepsKeepReservedFieldsZero
  intro s t hmem hres hstep
  exact (step_good (Good.intro hmem hres rfl) hstep).reserved

/-! ### The state after reset -/

/-- After reset no register is listed, so each reads as its table says. -/
theorem reg_reset (a : Nat) : State.reset.reg a = resetWord a := rfl

/-- After reset no core is listed, so each is as R283 says. -/
theorem core_reset (c : Nat) : State.reset.core c = Core.reset := rfl

/-- Settles O5: nothing is listed after reset, so every register, core and memory byte reads as an unlisted one. -/
theorem resetLeavesTheTableValues : Obligations.ResetLeavesTheTableValues := by
  unfold Obligations.ResetLeavesTheTableValues
  refine ⟨?wf, ?reserved, ?queue, reg_reset, ?riser, ?cores⟩
  case wf => rfl
  case reserved => exact resetWord_reserved
  case queue => rfl
  case riser => rfl
  case cores =>
    intro c
    simp only [core_reset]
    decide

/-! ### Bits of a field -/

/-- Field `f` holds bit `i`. -/
def Fld.covers (f : Fld) (i : Nat) : Bool := decide (f.lo ≤ i) && decide (i ≤ f.hi)

/-- A field has its bits in the right order, in a word of 32 bits. -/
def Fld.fits (f : Fld) : Bool := decide (f.lo ≤ f.hi) && decide (f.hi < 32)

theorem Fld.fits_iff {f : Fld} : f.fits = true ↔ f.lo ≤ f.hi ∧ f.hi < 32 := by simp [Fld.fits]

theorem Fld.covers_iff {f : Fld} {i : Nat} : f.covers i = true ↔ f.lo ≤ i ∧ i ≤ f.hi := by simp [Fld.covers]

theorem getLsbD_fieldMask {f : Fld} (hf : f.fits = true) (i : Nat) : (fieldMask f).getLsbD i = f.covers i := by
  obtain ⟨horder, hword⟩ := Fld.fits_iff.mp hf
  rw [Bool.eq_iff_iff, Fld.covers_iff]
  simp only [fieldMask, BitVec.getLsbD_ofNat, Nat.testBit_shiftLeft, Nat.testBit_two_pow_sub_one, Bool.and_eq_true,
    decide_eq_true_eq]
  omega

/-- A field that carries the value it has in `x` carries the bits of `x`. -/
theorem fieldBits_fieldOf {f : Fld} (hf : f.fits = true) (x : Word) : fieldBits f (fieldOf x f) = x &&& fieldMask f := by
  apply BitVec.eq_of_getLsbD_eq
  intro i hi
  obtain ⟨horder, hword⟩ := Fld.fits_iff.mp hf
  rw [BitVec.getLsbD_and, getLsbD_fieldMask hf, Bool.eq_iff_iff]
  simp only [fieldBits, fieldOf, Nat.mod_mod, BitVec.getLsbD_ofNat, Nat.testBit_shiftLeft, Nat.testBit_mod_two_pow,
    Nat.testBit_shiftRight, Bool.and_eq_true, decide_eq_true_eq, Fld.covers_iff, BitVec.testBit_toNat]
  constructor
  · rintro ⟨-, hlo, hlen, hx⟩
    exact ⟨by rwa [Nat.add_sub_cancel' hlo] at hx, hlo, by omega⟩
  · rintro ⟨hx, hlo, hhi⟩
    exact ⟨hi, hlo, by omega, by rwa [Nat.add_sub_cancel' hlo]⟩

theorem getLsbD_putField_fieldOf {f : Fld} (hf : f.fits = true) (v x : Word) (i : Nat) :
    (putField v f (fieldOf x f)).getLsbD i = if f.covers i then x.getLsbD i else v.getLsbD i := by
  rw [putField, fieldBits_fieldOf hf, BitVec.getLsbD_or, BitVec.getLsbD_and, BitVec.getLsbD_and, BitVec.getLsbD_not,
    getLsbD_fieldMask hf]
  rcases Nat.lt_or_ge i 32 with hi | hi
  · cases f.covers i <;> simp [hi]
  · simp [BitVec.getLsbD_of_ge _ _ hi]

/-- Words with the same value in a field have the same bits there. -/
theorem getLsbD_eq_of_fieldOf_eq {f : Fld} (hf : f.fits = true) {v w : Word} (e : fieldOf v f = fieldOf w f) {i : Nat}
    (hi : f.covers i = true) : v.getLsbD i = w.getLsbD i := by
  have h : v &&& fieldMask f = w &&& fieldMask f := by rw [← fieldBits_fieldOf hf, ← fieldBits_fieldOf hf, e]
  simpa [getLsbD_fieldMask hf, hi] using congrArg (·.getLsbD i) h

/-! ### Rows of the register table -/

/-- The place of a field. -/
def FieldDef.fld (f : FieldDef) : Fld := ⟨f.hi, f.lo⟩

/-- The fields of a row lie in its word, from the high bits down, and none shares a bit with another. -/
def RegDef.fieldsFit (d : RegDef) : Bool :=
  d.fields.all (fun f => f.fld.fits) && decide (d.fields.Pairwise (fun f g => g.hi < f.lo))

/-- The registers of a row are aligned words. -/
def RegDef.aligned (d : RegDef) : Bool := decide (d.base % 4 = 0) && d.dims.all (fun p => decide (p.1 % 4 = 0))

theorem blocks_rowsFit : RegTable.blocks.all (fun b => b.regs.all (fun d => d.fieldsFit && d.aligned)) = true := by decide

/-- A register stands in a block of the map, in a row whose fields fit. -/
theorem regDefAt_eq_some {a : Nat} {d : RegDef} (h : regDefAt a = some d) :
    ∃ b ∈ RegTable.blocks, b.base ≤ a ∧ a < b.base + b.size ∧ d.has a = true ∧ d.fieldsFit = true ∧ d.aligned = true := by
  unfold regDefAt blockAt at h
  split at h
  · cases h
  · rename_i b hb
    have hspan := List.find?_some hb
    have hrow := List.all_eq_true.mp (List.all_eq_true.mp blocks_rowsFit b (List.mem_of_find?_eq_some hb)) d
      (List.mem_of_find?_eq_some h)
    simp only [Bool.and_eq_true, decide_eq_true_eq] at hspan hrow
    exact ⟨b, List.mem_of_find?_eq_some hb, hspan.1, hspan.2, by simpa using List.find?_some h, hrow⟩

theorem dimsMatch_aligned {l : List (Nat × Nat)} {off : Nat} (h : dimsMatch off l = true)
    (hl : l.all (fun p => decide (p.1 % 4 = 0)) = true) : off % 4 = 0 := by
  induction l generalizing off with
  | nil =>
    rw [dimsMatch, decide_eq_true_eq] at h
    omega
  | cons p rest ih =>
    simp only [List.all_cons, Bool.and_eq_true, decide_eq_true_eq] at hl
    obtain ⟨hp, hrest⟩ := hl
    have hdvd : 4 ∣ p.1 := Nat.dvd_of_mod_eq_zero hp
    cases rest with
    | nil =>
      simp only [dimsMatch, Bool.and_eq_true, decide_eq_true_eq] at h
      exact Nat.mod_eq_zero_of_dvd (hdvd.trans (Nat.dvd_of_mod_eq_zero h.1))
    | cons q rest =>
      simp only [dimsMatch, Bool.and_eq_true, decide_eq_true_eq] at h
      rw [← Nat.mod_mod_of_dvd off hdvd]
      exact ih h.2 hrest

theorem regDefAt_aligned {a : Nat} {d : RegDef} (h : regDefAt a = some d) : a % 4 = 0 := by
  obtain ⟨b, -, -, -, hhas, -, halign⟩ := regDefAt_eq_some h
  simp only [RegDef.has, RegDef.aligned, Bool.and_eq_true, decide_eq_true_eq] at hhas halign
  have := dimsMatch_aligned hhas.2 halign.2
  omega

section
variable {d : RegDef} (hd : d.fieldsFit = true)
include hd

theorem RegDef.fits_of_mem {f : FieldDef} (hf : f ∈ d.fields) : f.fld.fits = true := by
  simp only [RegDef.fieldsFit, Bool.and_eq_true] at hd
  exact List.all_eq_true.mp hd.1 f hf

/-- At most one field of a row holds a bit. -/
theorem RegDef.eq_of_covers {f g : FieldDef} {i : Nat} (hf : f ∈ d.fields) (hg : g ∈ d.fields) (cf : f.fld.covers i = true)
    (cg : g.fld.covers i = true) : f = g := by
  simp only [RegDef.fieldsFit, Bool.and_eq_true, decide_eq_true_eq] at hd
  have apart : ∀ {x y : FieldDef}, y.hi < x.lo → x.fld.covers i = true → y.fld.covers i = true → x = y := by
    intro x y h hx hy
    simp only [Fld.covers_iff, FieldDef.fld] at hx hy
    omega
  exact List.Pairwise.forall_of_forall_of_flip (R := fun x y => x.fld.covers i = true → y.fld.covers i = true → x = y)
    (fun _ _ _ _ => rfl) (hd.2.imp apart) (hd.2.imp fun h hy hx => (apart h hx hy).symm) hf hg cf cg

/-- What some field that holds bit `i` meets, the one field that holds it meets. -/
theorem RegDef.any_covers {f : FieldDef} {i : Nat} (hf : f ∈ d.fields) (cf : f.fld.covers i = true) (q : FieldDef → Bool) :
    d.fields.any (fun g => q g && g.fld.covers i) = q f := by
  rw [Bool.eq_iff_iff, List.any_eq_true]
  constructor
  · rintro ⟨g, hg, h⟩
    rw [Bool.and_eq_true] at h
    rw [RegDef.eq_of_covers hd hf hg cf h.2]
    exact h.1
  · intro h
    exact ⟨f, hf, by rw [h, cf]; rfl⟩

end

/-! ### The word that a write stores -/

theorem RegDef.getLsbD_mask {d : RegDef} (hd : d.fieldsFit = true) (p : Access) (i : Nat) :
    (d.mask p).getLsbD i = d.fields.any (fun f => decide (f.acc = p) && f.fld.covers i) := by
  have fold : ∀ (l : List FieldDef) (m : Word), (∀ f ∈ l, f.fld.fits = true) →
      (l.foldl (fun m f => if f.acc = p then m ||| fieldMask ⟨f.hi, f.lo⟩ else m) m).getLsbD i =
        (m.getLsbD i || l.any (fun f => decide (f.acc = p) && f.fld.covers i)) := by
    intro l
    induction l with
    | nil => simp
    | cons f fs ih =>
      intro m hl
      have hmask : (fieldMask ⟨f.hi, f.lo⟩).getLsbD i = f.fld.covers i := getLsbD_fieldMask (hl f (by simp)) i
      rw [List.foldl_cons, ih _ (fun g hg => hl g (by simp [hg])), List.any_cons]
      by_cases h : f.acc = p <;> simp [h, hmask, Bool.or_assoc]
  simpa [RegDef.mask] using fold d.fields 0 (fun f hf => RegDef.fits_of_mem hd hf)

/-- A word that takes effect carries the stored bits in each refused field, and otherwise what was written. -/
theorem State.getLsbD_taken (s : State) (a : Nat) {d : RegDef} (hd : d.fieldsFit = true) (guard w : Word) (i : Nat) :
    (s.taken a d guard w).getLsbD i =
      if d.fields.any (fun f => s.fieldRefused a guard w f && f.fld.covers i) then (s.reg a).getLsbD i else w.getLsbD i := by
  have fold : ∀ (l : List FieldDef) (v : Word), (∀ f ∈ l, f.fld.fits = true) →
      (l.foldl (fun v f => if s.fieldRefused a guard w f then putField v ⟨f.hi, f.lo⟩ (s.fld a ⟨f.hi, f.lo⟩) else v) v).getLsbD i =
        if l.any (fun f => s.fieldRefused a guard w f && f.fld.covers i) then (s.reg a).getLsbD i else v.getLsbD i := by
    intro l
    induction l with
    | nil => simp
    | cons f fs ih =>
      intro v hl
      have hput : (putField v ⟨f.hi, f.lo⟩ (s.fld a ⟨f.hi, f.lo⟩)).getLsbD i =
          if f.fld.covers i then (s.reg a).getLsbD i else v.getLsbD i := getLsbD_putField_fieldOf (hl f (by simp)) v _ i
      rw [List.foldl_cons, ih _ (fun g hg => hl g (by simp [hg])), List.any_cons]
      cases hr : s.fieldRefused a guard w f <;> cases hc : f.fld.covers i <;> simp [hput, hc]
  exact fold d.fields w (fun f hf => RegDef.fits_of_mem hd hf)

/-- What a register that holds `old` holds after a write of `v`: RW fields take their value, W1C bits clear, W1S bits set. -/
def RegDef.merge (d : RegDef) (old v : Word) : Word :=
  (old &&& ~~~(d.mask .rw) &&& ~~~(v &&& d.mask .w1c)) ||| (v &&& d.mask .rw) ||| (v &&& d.mask .w1s)

theorem State.storeFields_eq (s : State) (a : Nat) (d : RegDef) (v : Word) :
    s.storeFields a d v = s.setReg a (d.merge (s.reg a) v) := rfl

/-- One bit after a write, by the access code of its field. -/
def Access.merge (p : Access) (old v : Bool) : Bool :=
  match p with
  | .rw => v
  | .w1c => old && !v
  | .w1s => old || v
  | _ => old

theorem Access.merge_of_not_written {p : Access} (h : p ∉ [.rw, .w1c, .w1s]) (old v : Bool) : p.merge old v = old := by
  cases p <;> simp_all [Access.merge]

theorem RegDef.getLsbD_merge {d : RegDef} (hd : d.fieldsFit = true) {f : FieldDef} (hf : f ∈ d.fields) {i : Nat}
    (hi : f.fld.covers i = true) (old v : Word) :
    (d.merge old v).getLsbD i = f.acc.merge (old.getLsbD i) (v.getLsbD i) := by
  have hmask : ∀ p, (d.mask p).getLsbD i = decide (f.acc = p) := fun p =>
    (RegDef.getLsbD_mask hd p i).trans (RegDef.any_covers hd hf hi _)
  have hword : i < 32 := by
    have hfit := Fld.fits_iff.mp (RegDef.fits_of_mem hd hf)
    have hbit := Fld.covers_iff.mp hi
    omega
  simp only [RegDef.merge, BitVec.getLsbD_or, BitVec.getLsbD_and, BitVec.getLsbD_not, hmask, hword, decide_true, Bool.true_and]
  cases f.acc <;> simp [Access.merge]

/-- The word that a write of `w` stores at `a`: nothing moves where R28 fixes the register as a whole. -/
def State.storedWord (s : State) (a : Nat) (d : RegDef) (w : Word) : Word :=
  if s.fixedReg a then s.reg a else d.merge (s.reg a) (s.taken a d (s.guarded a w) w)

theorem State.acc_of_fixedField {s : State} {a : Nat} {f : FieldDef} (h : s.fixedField a f = true) :
    f.acc = .pt ∨ f.acc = .rw := by
  simp only [State.fixedField, Bool.or_eq_true, Bool.and_eq_true, decide_eq_true_eq] at h
  exact h.imp_right (fun h => h.1.1)

theorem State.heldAt_of_register {s : State} {a : Nat} (h : stateWordAt a = none) : s.heldAt a = s.reg a := by
  simp [State.heldAt, h]

/-- A field that R28 fixes and that is not refused carries its present value. -/
theorem State.getLsbD_of_fixedField {s : State} {a : Nat} {f : FieldDef} (hfit : f.fld.fits = true) {guard w : Word}
    (hword : stateWordAt a = none) (hfix : s.fixedField a f = true) (hok : s.fieldRefused a guard w f = false) {i : Nat}
    (hi : f.fld.covers i = true) : w.getLsbD i = (s.reg a).getLsbD i := by
  refine getLsbD_eq_of_fieldOf_eq hfit ?_ hi
  rcases State.acc_of_fixedField hfix with h | h <;>
    simpa [State.fieldRefused, FieldDef.fld, hfix, h, State.heldAt_of_register hword] using hok

/-- Each bit that a write stores, by the access code of its field and by whether the field is refused. -/
theorem State.getLsbD_storedWord {s : State} {a : Nat} {d : RegDef} (h : regDefAt a = some d) (hd : d.fieldsFit = true)
    (hword : stateWordAt a = none) (w : Word) {f : FieldDef} (hf : f ∈ d.fields) {i : Nat} (hi : f.fld.covers i = true) :
    (s.storedWord a d w).getLsbD i = f.acc.merge ((s.reg a).getLsbD i)
      (if s.fieldRefused a (s.guarded a w) w f then (s.reg a).getLsbD i else w.getLsbD i) := by
  unfold State.storedWord
  split
  next hall =>
    have hfield : f.acc = .ro ∨ s.fixedField a f = true := by
      simp only [State.fixedReg, h, List.all_eq_true, Bool.or_eq_true, decide_eq_true_eq] at hall
      exact hall f hf
    rcases hfield with hro | hfix
    · rw [hro]
      rfl
    · have hbit : (if s.fieldRefused a (s.guarded a w) w f then (s.reg a).getLsbD i else w.getLsbD i) = (s.reg a).getLsbD i := by
        split
        next => rfl
        next hok => exact State.getLsbD_of_fixedField (RegDef.fits_of_mem hd hf) hword hfix (by simpa using hok) hi
      rw [hbit]
      rcases State.acc_of_fixedField hfix with e | e <;> rw [e] <;> rfl
  next => rw [RegDef.getLsbD_merge hd hf hi, State.getLsbD_taken s a hd, RegDef.any_covers hd hf hi]

/-! ### Registers whose writes start nothing else -/

section
variable {a : Nat} (h : commandRegister a = false)
include h

theorem not_command_address : a ∉ [A.RST_CTRL, A.RST_WDOG, A.RST_WDOG_KICK, A.BOOT_CTRL, A.SUP_IO_FAULT, A.WC_RB_SEL,
    A.QUENCH_CTRL, A.QUENCH_RELEASE, A.RUN_AUDIT_CTRL, A.FLASH_CMD, A.FLASH_INTERRUPTED, A.TW_SYS_CTRL, A.HOST_LINK,
    A.SESSION_REPLY_CTRL] := by
  simp only [commandRegister, Bool.or_eq_false_iff, decide_eq_false_iff_not] at h
  exact h.1.1.1

theorem stateWordAt_of_not_command : stateWordAt a = none := by
  simp only [commandRegister, Bool.or_eq_false_iff] at h
  simpa using h.1.1.2

theorem place_of_not_command : ∀ q ∈ ([(A.MD_CTRL 0, 0x10, 96), (A.XB_CTRL 0, 0x10, 64), (A.DEC_CTRL 0, 0x80, 160),
    (A.WC_THR 0, 0x10, 96), (A.SV_CTRL 0, 0x400, 8), (A.SV_URGENT 0, 0x400, 8), (A.TC_CTRL 0, 0x20, 256), (A.RUN_PUSH_LO, 4, 6),
    (A.LE_CTRL 0, 0x4000, 32), (A.LE_STATUS 0, 0x4000, 32), (A.PG_CTRL 0, 0x80, 48), (A.PG_ACC_CTRL 0, 0x80, 48),
    (A.IC_SWI_SET 0, 4, 8), (A.LD_CTRL 0, 0x100, 8), (A.LD_STATUS 0, 0x100, 8), (A.FLASH_PWD 0, 4, 4), (A.TW_CTRL 0, 0x400, 4),
    (A.TW_AUDIT_CTRL 0, 0x400, 4), (A.TW_DEAD_INFO 0, 0x400, 4), (A.ASSAY_REQ 0, 4, 3), (A.ASSAY_CANCEL 0, 4, 3)] :
      List (Nat × Nat × Nat)), place q.1 q.2.1 q.2.2 a = none := by
  simp only [commandRegister, Bool.or_eq_false_iff] at h
  intro q hq
  simpa using List.any_eq_false.mp h.1.2 q hq

theorem not_management_address : ¬ (A.ETH_MGMT_CTRL 0 ≤ a ∧ a < A.SESSION_CTRL) := by
  simp only [commandRegister, Bool.or_eq_false_iff, Bool.and_eq_false_iff, decide_eq_false_iff_not] at h
  omega

end

/-- Registers are aligned words, so one within a run of words is one of the run. -/
theorem place_words_ne_none {base n a : Nat} {d : RegDef} (h : regDefAt a = some d) (hbase : base % 4 = 0) (hlo : base ≤ a)
    (hhi : a < base + 4 * n) : place base 4 n a ≠ none := by
  have halign := regDefAt_aligned h
  rw [place, if_pos (by omega)]
  exact Option.some_ne_none _

theorem blocks_aside_push : RegTable.blocks.all (fun b => decide (b.base + b.size ≤ 0x80049020) ||
    decide (0x80050000 ≤ b.base)) = true := by decide

theorem regDefAt_after_push : regDefAt 0x80049018 = none ∧ regDefAt 0x8004901C = none := by decide

/-- Up to the law engines, the registers from RUN.PUSH_LO on are the six words of R198. -/
theorem place_push_ne_none {a : Nat} {d : RegDef} (h : regDefAt a = some d) (hlo : A.RUN_PUSH_LO ≤ a) (hhi : a < 0x80050000) :
    place A.RUN_PUSH_LO 4 6 a ≠ none := by
  have halign := regDefAt_aligned h
  obtain ⟨b, hb, hbase, hend, -⟩ := regDefAt_eq_some h
  have haside := List.all_eq_true.mp blocks_aside_push b hb
  simp only [Bool.or_eq_true, decide_eq_true_eq] at haside
  have hseventh : a ≠ 0x80049018 := fun e => by simp [e, regDefAt_after_push.1] at h
  have heighth : a ≠ 0x8004901C := fun e => by simp [e, regDefAt_after_push.2] at h
  have hpush : A.RUN_PUSH_LO = 0x80049000 := rfl
  exact place_words_ne_none h rfl hlo (by omega)

/-- A write of a register that starts nothing stores its fields. -/
theorem writeEffect_eq {a : Nat} {d : RegDef} (h : commandRegister a = false) (hd : regDefAt a = some d) (who : Requester)
    (v : Word) (s : State) : writeEffect who a d v s = s.storeFields a d v := by
  have ha := not_command_address h
  have hp := place_of_not_command h
  have hword := stateWordAt_of_not_command h
  have hmgmt := not_management_address h
  simp only [List.mem_cons, not_or] at ha
  simp only [List.forall_mem_cons] at hp
  have supply : writeSupply who a d v s = s.storeFields a d v := by simp only [writeSupply, ha, if_false]
  have converters : writeConverters a d v s = s.storeFields a d v := by simp only [writeConverters, ha, hp, if_false]
  have quench : writeQuench a d v s = s.storeFields a d v := by simp only [writeQuench, ha, if_false]
  have runner (hhi : a < 0x80050000) : writeRunner who a d v s = s.storeFields a d v := by
    have hpush : ¬ A.RUN_PUSH_LO ≤ a := fun hlo => place_push_ne_none hd hlo hhi (by simp only [hp])
    simp only [writeRunner, ha, hp, hpush, if_false]
  have law : writeLaw who a d v s = s.storeFields a d v := by simp only [writeLaw, hp, hword]
  have pg : writePg a d v s = s.storeFields a d v := by simp only [writePg, hp]
  have system : writeSystem who a d v s = s.storeFields a d v := by
    have hswi : ¬ (A.IC_SWI_SET 0 ≤ a ∧ a < A.IC_SWI_SET 0 + 0x20) := fun hin =>
      place_words_ne_none (n := 8) hd rfl hin.1 hin.2 (by simp only [hp])
    simp only [writeSystem, hp, hswi, if_false]
  have flash : writeFlash who a d v s = s.storeFields a d v := by
    have hpwd : ¬ (A.FLASH_PWD 0 ≤ a ∧ a ≤ A.FLASH_PWD 3) := fun hin =>
      place_words_ne_none (n := 4) hd rfl hin.1 (hin.2.trans_lt (by decide)) (by simp only [hp])
    simp only [writeFlash, ha, hpwd, if_false]
  have twiast : writeTwiast a d v s = s.storeFields a d v := by simp only [writeTwiast, ha, hp, if_false]
  have host : writeHost a d v s = s.storeFields a d v := by simp only [writeHost, ha, hp, hmgmt, if_false]
  by_cases hhi : a < 0x80050000
  · simp only [writeEffect, supply, converters, quench, runner hhi, law, pg, system, flash, twiast, host, ite_self]
  · simp only [writeEffect, supply, converters, quench, hhi, law, pg, system, flash, twiast, host, if_false, ite_self]

/-! ### States that show the same registers -/

theorem State.like_refl (s : State) : s.like s := ⟨rfl, fun _ => rfl⟩

theorem State.like_setReg {t u : State} (h : t.like u) (a : Nat) (w : Word) : (t.setReg a w).like (u.setReg a w) := by
  obtain ⟨hrest, hreg⟩ := h
  refine ⟨by rw [hrest]; rfl, fun b => ?_⟩
  by_cases e : b = a
  · subst e
    simp [State.setReg, State.reg]
  · rw [State.reg_setReg_of_ne _ _ e, State.reg_setReg_of_ne _ _ e, hreg]

theorem reg_and_definedMask {s : State} (hs : Regs.reserved s) (a : Nat) : s.reg a &&& definedMask a = s.reg a := by
  apply BitVec.eq_of_getLsbD_eq
  intro i hi
  have h := congrArg (·.getLsbD i) (hs a)
  simp only [BitVec.getLsbD_and, BitVec.getLsbD_not, hi, decide_true, Bool.true_and] at h
  rw [BitVec.getLsbD_and]
  revert h
  cases (definedMask a).getLsbD i <;> simp

/-- A store of the word that stands leaves what the registers show. -/
theorem State.like_setReg_self {s : State} (hs : Regs.reserved s) (a : Nat) : s.like (s.setReg a (s.reg a)) := by
  refine ⟨rfl, fun b => ?_⟩
  by_cases e : b = a
  · subst e
    simp [reg_and_definedMask hs]
  · rw [State.reg_setReg_of_ne _ _ e]

theorem State.like_refuse {t u : State} (h : t.like u) (a : Nat) : (t.refuse a).like (u.refuse a) := by
  have hfld (x : Nat) (f : Fld) (v : Nat) : (t.setFld x f v).like (u.setFld x f v) := by
    rw [State.setFld, State.setFld, h.2]
    exact State.like_setReg h _ _
  unfold State.refuse
  split
  · exact h
  · split
    · exact h
    · exact hfld _ _ _
    · exact hfld _ _ _
    · obtain ⟨hrest, hreg⟩ := h
      rw [hrest]
      exact ⟨rfl, hreg⟩

/-- The sources read the registers, not their listing. -/
theorem State.source_of_like {t u : State} (h : t.like u) (i : Nat) : t.source i = u.source i := by
  obtain ⟨hrest, hreg⟩ := h
  have hfld (a : Nat) (f : Fld) : t.fld a f = u.fld a f := congrArg (fieldOf · f) (hreg a)
  have hbit (a : Nat) (f : Fld) : t.bit a f = u.bit a f := by rw [State.bit, hfld]; rfl
  have hflags (a : Nat) (m : Word) : t.flags a m = u.flags a m := by rw [State.flags, hreg]; rfl
  have hgroup (first n : Nat) (ctrl : Nat → Nat) (en : Fld) (status : Nat → Nat) (m : Word) :
      t.groupFlags first n ctrl en status m = u.groupFlags first n ctrl en status m := by
    simp only [State.groupFlags, hbit, hflags]
  have hcore (c : Nat) : t.core c = u.core c := by rw [hrest]; rfl
  have hhost : t.host = u.host := by rw [hrest]
  have hswi : t.swi = u.swi := by rw [hrest]
  have hgpio : t.gpio = u.gpio := by rw [hrest]
  have halarm : t.alarm = u.alarm := by rw [hrest]
  have hsurvey (n : Nat) : t.srcSurvey n = u.srcSurvey n := by simp only [State.srcSurvey, hfld, hflags, hreg]
  have hmaster : t.grandMaster = u.grandMaster := by rw [State.grandMaster, State.timeSrc, hfld]; rfl
  have hstatus : t.sysStatus = u.sysStatus := by rw [State.sysStatus, hmaster, hreg]; rfl
  have htwSys : t.srcTwSys = u.srcTwSys := by rw [State.srcTwSys, hstatus, hfld]; rfl
  have hhosts (n : Nat) : t.srcHost n = u.srcHost n := by simp only [State.srcHost, hhost, hreg]
  have hballs (n : Nat) : t.srcGpio n = u.srcGpio n := by simp only [State.srcGpio, hfld, hbit, hgpio]
  simp only [State.source, State.srcSupply, State.srcQuench, State.srcCmp, State.srcMd, State.srcXb, State.srcDec,
    State.srcRunner, State.srcRunnerG, State.srcLaw, State.srcTable, State.srcPg, State.srcCal, State.srcPair,
    State.srcLadle, State.srcMem, State.srcTw, State.srcFlash, State.srcJournal, State.srcAssay, State.srcSession,
    State.srcDebug, hreg, hfld, hbit, hflags, hgroup, hcore, hswi, halarm, hsurvey, htwSys, hhosts, hballs]

theorem State.like_setSupply {t u : State} (h : t.like u) (x : SupplyState) :
    ({ t with supply := x } : State).like { u with supply := x } :=
  ⟨congrArg (fun s : State => { s with supply := x }) h.1, h.2⟩

theorem State.like_stillHigh {t u : State} (h : t.like u) : t.stillHigh.like u.stillHigh := by
  have hsource : t.source = u.source := funext (State.source_of_like h)
  have hsupply : t.supply = u.supply := by rw [h.1]
  have hclocks : t.clocksStand = u.clocksStand := by rw [State.clocksStand, hsupply]; rfl
  have hnew : t.newlyHigh = u.newlyHigh := by rw [State.newlyHigh, hsource, hsupply]; rfl
  unfold State.stillHigh
  rw [hclocks, hsource, hsupply, hnew]
  by_cases hc : u.clocksStand = true
  · rw [if_pos hc, if_pos hc]
    exact State.like_setSupply h _
  · rw [if_neg hc, if_neg hc]
    exact h

/-- The wake latches see no listing of registers either. -/
theorem State.like_latching {s : State} {f g : State → State} (h : (f s.stillHigh).like (g s.stillHigh)) :
    (s.latching f).like (s.latching g) := by
  unfold State.latching
  split
  next => exact State.like_stillHigh h
  next hclocks =>
    rwa [State.stillHigh, if_neg hclocks] at h

/-! ### A write of a register -/

/-- The state with other sights of the wake latches. -/
def State.watching (s : State) (high risen : List Nat) : State :=
  { s with supply := { s.supply with highAtStop := high, risen := risen } }

theorem State.stillHigh_eq (s : State) : ∃ high risen, s.stillHigh = s.watching high risen := by
  unfold State.stillHigh
  split
  · exact ⟨_, _, rfl⟩
  · exact ⟨s.supply.highAtStop, s.supply.risen, rfl⟩

/-- Nothing that judges a write looks at the wake latches. -/
@[simp] theorem State.stillHigh_judges (s : State) :
    (∀ who, s.stillHigh.mayWrite who = s.mayWrite who) ∧ (∀ a, s.stillHigh.reg a = s.reg a) ∧
      (∀ who a w, s.stillHigh.refusedWhole who a w = s.refusedWhole who a w) ∧
      (∀ a w, s.stillHigh.guarded a w = s.guarded a w) ∧
      (∀ a guard w, s.stillHigh.fieldRefused a guard w = s.fieldRefused a guard w) ∧
      (∀ a d w, s.stillHigh.storedWord a d w = s.storedWord a d w) := by
  obtain ⟨high, risen, e⟩ := s.stillHigh_eq
  rw [e]
  exact ⟨fun who => by cases who <;> rfl, fun _ => rfl, fun _ _ _ => rfl, fun _ _ => rfl, fun _ _ _ => rfl, fun _ _ _ => rfl⟩

/-- A field is refused where it may not change and another value is written for it, and where it may, for a reserved encoding, for a
change that the block guards, or for a value that it forbids (R16, R28, R464). -/
theorem State.fieldRefused_iff {s : State} {a : Nat} {w : Word} {f : FieldDef} (hword : stateWordAt a = none) :
    s.fieldRefused a (s.guarded a w) w f = true ↔
      (f.acc = .pt ∧ fieldOf w ⟨f.hi, f.lo⟩ ≠ fieldOf (s.reg a) ⟨f.hi, f.lo⟩) ∨ (f.acc = .rw ∧
        (if s.basicAt a = true ∧ s.exposedField a f = false then fieldOf w ⟨f.hi, f.lo⟩ ≠ fieldOf (s.reg a) ⟨f.hi, f.lo⟩
         else f.legal w = false ∨
          (s.guarded a w &&& fieldMask ⟨f.hi, f.lo⟩ ≠ 0 ∧ fieldOf w ⟨f.hi, f.lo⟩ ≠ fieldOf (s.reg a) ⟨f.hi, f.lo⟩) ∨
          s.forbidden a w &&& fieldMask ⟨f.hi, f.lo⟩ ≠ 0)) := by
  cases hacc : f.acc
  case rw =>
    by_cases hfix : s.basicAt a = true ∧ s.exposedField a f = false
    · simp [State.fieldRefused, State.fixedField, State.heldAt_of_register hword, hacc, hfix]
    · have hfree : s.fixedField a f = false := by simpa [State.fixedField, hacc] using hfix
      simp only [State.fieldRefused, State.heldAt_of_register hword, hacc, hfree, hfix, Bool.false_eq_true, if_false,
        Bool.or_eq_true, Bool.and_eq_true, decide_eq_true_eq, Bool.not_eq_true']
      tauto
  case pt => simp [State.fieldRefused, State.heldAt_of_register hword, hacc]
  all_goals simp [State.fieldRefused, hacc]

theorem writeReg_of_unlisted {a : Nat} (h : regDefAt a = none) (who : Requester) (w : Word) (s : State) :
    writeReg who a w s = s := by
  simp [writeReg, h]

section
variable {s : State} {who : Requester} {a : Nat} {d : RegDef} {w : Word} (hd : regDefAt a = some d)
include hd

theorem writeReg_of_refusedWhole (h : s.refusedWhole who a w = true) : writeReg who a w s = s.refuse a := by
  simp [writeReg, hd, h]

/-- A write of a register that starts nothing stores its word, and sets CFG_REJECT where a field is refused. -/
theorem writeReg_like (hs : Regs.reserved s) (hcmd : commandRegister a = false) (h : s.refusedWhole who a w = false) :
    (writeReg who a w s).like (if d.fields.any (s.fieldRefused a (s.guarded a w) w) then
      (s.setReg a (s.storedWord a d w)).refuse a else s.setReg a (s.storedWord a d w)) := by
  have hstore : (if s.fixedReg a then s else writeEffect who a d (s.taken a d (s.guarded a w) w) s).like
      (s.setReg a (s.storedWord a d w)) := by
    unfold State.storedWord
    split
    next => exact State.like_setReg_self hs a
    next =>
      rw [writeEffect_eq hcmd hd, State.storeFields_eq]
      exact State.like_refl _
  simp only [writeReg, hd, h, stateWordAt_of_not_command hcmd, Bool.false_eq_true, if_false]
  split
  next => exact State.like_refuse hstore a
  next => exact hstore

end

/-- The answer to a write, from what the write leaves where the wake latches have seen the levels before it. -/
theorem answers_registerWrite {s : State} {who : Requester} {a : Nat} {w : Word} {f : State → State}
    (hmay : s.mayWrite who = true) (h : (writeReg who a w s.stillHigh).like (f s.stillHigh)) :
    Answers (.registerWrite who a w) s (s.latching f) := by
  refine ⟨_, rfl, State.like_latching ?_⟩
  rwa [commandWrite, if_pos (by simpa using hmay)]

/-- Settles O6: a write stores `storedWord`, whose bits follow the access codes, and sets CFG_REJECT where a field is refused. -/
theorem registerWritesActByAccessCode : Obligations.RegisterWritesActByAccessCode := by
  unfold Obligations.RegisterWritesActByAccessCode
  intro s who a w hmay hs hcmd answers
  have hs' : Regs.reserved s.stillHigh := fun b => by simpa using hs b
  have hword := stateWordAt_of_not_command hcmd
  refine ⟨fun hd => ?unlisted, fun d hd hwhole => ?whole, fun d hd hwhole => ⟨s.storedWord a d w, ?fields⟩⟩
  case unlisted =>
    refine answers_registerWrite hmay ?_
    rw [writeReg_of_unlisted hd]
    exact State.like_refl _
  case whole =>
    refine answers_registerWrite hmay ?_
    rw [writeReg_of_refusedWhole hd (by simpa using hwhole)]
    exact State.like_refl _
  case fields =>
    intro differs holds refused
    have hrefused (f : FieldDef) : s.fieldRefused a (s.guarded a w) w f = true ↔ refused f := State.fieldRefused_iff hword
    have hlike := writeReg_like (who := who) (w := w) hd hs' hcmd (by simpa using hwhole)
    simp only [State.stillHigh_judges] at hlike
    refine ⟨fun hsome => ?rejected, fun hnone => ?taken, fun f hf i hlo hhi => ?bits⟩
    case rejected =>
      obtain ⟨f, hf, hr⟩ := hsome
      rw [if_pos (List.any_eq_true.mpr ⟨f, hf, (hrefused f).mpr hr⟩)] at hlike
      exact answers_registerWrite hmay hlike
    case taken =>
      have hany : ¬ d.fields.any (s.fieldRefused a (s.guarded a w) w) = true := fun h => by
        obtain ⟨f, hf, hr⟩ := List.any_eq_true.mp h
        exact hnone f hf ((hrefused f).mp hr)
      rw [if_neg hany] at hlike
      exact answers_registerWrite hmay hlike
    case bits =>
      obtain ⟨-, -, -, -, -, hfit, -⟩ := regDefAt_eq_some hd
      rw [State.getLsbD_storedWord hd hfit hword w hf (Fld.covers_iff.mpr ⟨hlo, hhi⟩), ← hrefused f]
      refine ⟨fun hacc hr => ?rwRefused, fun hacc hr => ?rwTaken, fun hacc => ?w1c, fun hacc => ?w1s, fun hacc => ?kept⟩
      case rwRefused => rw [hacc, if_pos hr, Access.merge]
      case rwTaken => rw [hacc, if_neg hr, Access.merge]
      case w1c => simp [hacc, Access.merge, State.fieldRefused]
      case w1s => simp [hacc, Access.merge, State.fieldRefused]
      case kept => exact Access.merge_of_not_written hacc _ _

end Sys2Proof.Machine

/-! The proof of the statement about the software sources, the balls, the memories and the scrubber. -/

namespace Sys2Proof.Machine

/-! ### A flag after it is set -/

/-- A field of all ones. -/
theorem fieldBits_ones (f : Fld) : fieldBits f (2 ^ (f.hi - f.lo + 1) - 1) = fieldMask f := by
  rw [fieldBits, fieldMask, Nat.mod_eq_of_lt (Nat.sub_lt (Nat.two_pow_pos _) one_pos)]

/-- A flag that is set reads 1, where its register defines it. -/
theorem State.bit_setBit {a : Nat} {f : Fld} (hf : f.fits = true) (hdef : (definedMask a).getLsbD f.lo = true) (s : State) :
    (s.setBit a f).bit a f = true := by
  obtain ⟨horder, -⟩ := Fld.fits_iff.mp hf
  have hcover : f.covers f.lo = true := Fld.covers_iff.mpr ⟨le_rfl, horder⟩
  have hset : ((s.setBit a f).reg a).getLsbD f.lo = true := by
    simp [State.setBit, State.setFld, putField, fieldBits_ones, getLsbD_fieldMask hf, hcover, hdef]
  rw [State.bit, decide_eq_true_eq]
  intro hzero
  have hclear : ((s.setBit a f).reg a).getLsbD f.lo = (0 : Word).getLsbD f.lo :=
    getLsbD_eq_of_fieldOf_eq hf (hzero.trans (by simp [fieldOf])) hcover
  simp [hset] at hclear

/-! ### Registers that only take commands -/

section
variable {s : State} {who : Requester} {a : Nat} {d : RegDef} {w : Word} (hd : regDefAt a = some d)
  (hacc : ∀ f ∈ d.fields, f.acc = .w1s ∨ f.acc = .w1c)
include hacc

/-- A field that a written 1 sets or clears refuses nothing (R464). -/
theorem State.fieldRefused_of_flags {f : FieldDef} (hf : f ∈ d.fields) (guard : Word) : s.fieldRefused a guard w f = false := by
  rcases hacc f hf with e | e <;> simp [State.fieldRefused, e]

include hd

theorem State.taken_of_flags (guard : Word) : s.taken a d guard w = w := by
  obtain ⟨-, -, -, -, -, hfit, -⟩ := regDefAt_eq_some hd
  apply BitVec.eq_of_getLsbD_eq
  intro i _
  have hany : ¬ d.fields.any (fun f => s.fieldRefused a guard w f && f.fld.covers i) = true := by
    simp +contextual [State.fieldRefused_of_flags hacc]
  rw [State.getLsbD_taken s a hfit, if_neg hany]

theorem State.fixedReg_of_flags (hne : d.fields ≠ []) : s.fixedReg a = false := by
  obtain ⟨f, hf⟩ := List.exists_mem_of_ne_nil _ hne
  simp only [State.fixedReg, hd, List.all_eq_false]
  exact ⟨f, hf, by rcases hacc f hf with e | e <;> simp [State.fixedField, e]⟩

/-- A write of a register whose fields are flags takes effect with the word as written. -/
theorem writeReg_of_flags (hne : d.fields ≠ []) (hwhole : s.refusedWhole who a w = false) (hword : stateWordAt a = none) :
    writeReg who a w s = writeEffect who a d w s := by
  have hany : d.fields.any (s.fieldRefused a (s.guarded a w) w) = false := by
    simp +contextual [State.fieldRefused_of_flags hacc]
  simp [writeReg, hd, hwhole, hword, hany, State.taken_of_flags hd hacc, State.fixedReg_of_flags hd hacc hne]

end

/-! ### Software sources (R325) -/

/-- A row of IC.SWI: one field of 32 flags. -/
def swiRow (base : Nat) (p : Access) : RegDef := ⟨base, [(0x4, 4)], 0x0, [⟨31, 0, p, 0, 0xFFFFFFFF, none⟩]⟩

theorem regDefAt_swi : ∀ k : Fin 4, regDefAt (A.IC_SWI_SET k) = some (swiRow (A.IC_SWI_SET 0) .w1s) ∧
    regDefAt (A.IC_SWI_CLR k) = some (swiRow (A.IC_SWI_CLR 0) .w1c) := by decide

section
variable {a : Nat} (hlo : A.IC_SWI_SET 0 ≤ a) (hhi : a < A.IC_SWI_SET 0 + 0x20)
include hlo hhi

theorem refusedWhole_swi (s : State) (who : Requester) (w : Word) : s.refusedWhole who a w = false := by
  simp only [A.IC_SWI_SET] at hlo hhi
  have hquench : ¬ (a = A.QUENCH_CTRL ∨ a = A.QUENCH_RELEASE) := by simp only [A.QUENCH_CTRL, A.QUENCH_RELEASE]; omega
  have hassay : ¬ A.ASSAY_CTRL ≤ a := by simp only [A.ASSAY_CTRL]; omega
  have hnode : a ≠ A.TW_NODE := by simp only [A.TW_NODE]; omega
  have hlock : ¬ (A.LOCK_CTRL 0 ≤ a ∧ a < A.LOCK_CTRL 8) := by simp only [A.LOCK_CTRL]; omega
  have hladle : ¬ (A.LD_CTRL 0 ≤ a ∧ a < A.LD_CTRL 8) := by simp only [A.LD_CTRL]; omega
  have hpg : ¬ (A.PG_CTRL 0 ≤ a ∧ a < A.PG_CTRL 48) := by simp only [A.PG_CTRL]; omega
  have hsurvey : ¬ (A.SV_CTRL 0 ≤ a ∧ a < A.SV_CTRL 8) := by simp only [A.SV_CTRL]; omega
  simp only [State.refusedWhole, hquench, hassay, hnode, hlock, hladle, hpg, hsurvey, if_false]

theorem writeReg_swi {d : RegDef} (hd : regDefAt a = some d) (hacc : ∀ f ∈ d.fields, f.acc = .w1s ∨ f.acc = .w1c)
    (hne : d.fields ≠ []) (who : Requester) (w : Word) (s : State) :
    writeReg who a w s = swiWrite (decide (a < A.IC_SWI_CLR 0)) ((a - A.IC_SWI_SET 0) / 4 % 4) w s := by
  have hword : stateWordAt a = none := by
    rw [stateWordAt, if_neg]
    simp only [A.IC_SWI_SET] at hlo
    omega
  rw [writeReg_of_flags hd hacc hne (refusedWhole_swi hlo hhi s who w) hword]
  have hsystem : writeSystem who a d w s = swiWrite (decide (a < A.IC_SWI_CLR 0)) ((a - A.IC_SWI_SET 0) / 4 % 4) w s := by
    rw [writeSystem, if_pos ⟨hlo, hhi⟩]
  simp only [A.IC_SWI_SET] at hlo hhi
  rw [writeEffect, if_neg (by omega), if_neg (by omega), if_neg (by omega), if_neg (by omega), if_neg (by omega),
    if_neg (by omega), if_neg (by omega), if_pos (by omega), hsystem]

end

theorem commandWrite_swiSet {s : State} {who : Requester} (hmay : s.mayWrite who = true) (k : Fin 4) (bits : Word) :
    commandWrite who (A.IC_SWI_SET k) bits s = swiWrite true k bits s := by
  have hset : decide (A.IC_SWI_SET k < A.IC_SWI_CLR 0) = true := decide_eq_true (by simp only [A.IC_SWI_SET, A.IC_SWI_CLR]; omega)
  have hindex : (A.IC_SWI_SET k - A.IC_SWI_SET 0) / 4 % 4 = k := by simp only [A.IC_SWI_SET]; omega
  rw [commandWrite, if_pos hmay, writeReg_swi (by simp only [A.IC_SWI_SET]; omega) (by simp only [A.IC_SWI_SET]; omega)
    (regDefAt_swi k).1 (by simp [swiRow]) (by simp [swiRow]), hset, hindex]

theorem commandWrite_swiClr {s : State} {who : Requester} (hmay : s.mayWrite who = true) (k : Fin 4) (bits : Word) :
    commandWrite who (A.IC_SWI_CLR k) bits s = swiWrite false k bits s := by
  have hclr : decide (A.IC_SWI_CLR k < A.IC_SWI_CLR 0) = false := by simp [A.IC_SWI_CLR]
  have hindex : (A.IC_SWI_CLR k - A.IC_SWI_SET 0) / 4 % 4 = k := by simp only [A.IC_SWI_SET, A.IC_SWI_CLR]; omega
  rw [commandWrite, if_pos hmay, writeReg_swi (by simp only [A.IC_SWI_SET, A.IC_SWI_CLR]; omega)
    (by simp only [A.IC_SWI_SET, A.IC_SWI_CLR]; omega) (regDefAt_swi k).2 (by simp [swiRow]) (by simp [swiRow]), hclr, hindex]

/-- What the wake latches see of a command follows from the command on a state with any sights of them. -/
theorem State.latching_congr {s : State} {f g : State → State}
    (h : ∀ high risen, f (s.watching high risen) = g (s.watching high risen)) :
    s.latching f = s.latching g := by
  unfold State.latching
  split
  next =>
    obtain ⟨high, risen, e⟩ := s.stillHigh_eq
    rw [e, h]
  next => exact h s.supply.highAtStop s.supply.risen

theorem latching_swiClr {s : State} {who : Requester} (hmay : s.mayWrite who = true) (k : Fin 4) (bits : Word) :
    s.latching (commandWrite who (A.IC_SWI_CLR k) bits) = s.latching (swiWrite false k bits) := by
  refine State.latching_congr fun high risen => commandWrite_swiClr ?_ k bits
  cases who <;> exact hmay

/-! ### Balls (R64, R326, R432) -/

/-- The counter of a quadrature interface moves only where the interface is on and its ball's level changes. -/
theorem gpioLevel_pos {s : State} {n : Nat} {up : Bool} (h : s.posOn n = false ∨ s.gpio.getLsbD n = up) (events : BitVec 41) :
    (gpioLevel n up events s).host.pos = s.host.pos := by
  refine if_neg ?_
  rcases h with h | h <;> simp [h]

/-- The ball takes its level, and no other ball does. -/
theorem getLsbD_gpioLevel (s : State) (n : Nat) (up : Bool) (events : BitVec 41) {i : Nat} (hi : i < 114) :
    (gpioLevel n up events s).gpio.getLsbD i = if i = n then up else s.gpio.getLsbD i := by
  have hmask : (BitVec.ofNat 114 (2 ^ n)).getLsbD i = decide (n = i) := by
    rw [BitVec.getLsbD_ofNat, Nat.testBit_two_pow, decide_eq_true hi, Bool.true_and]
  have hgpio : (gpioLevel n up events s).gpio =
      if up then s.gpio ||| BitVec.ofNat 114 (2 ^ n) else s.gpio &&& ~~~BitVec.ofNat 114 (2 ^ n) := rfl
  rw [hgpio]
  cases up
  case true =>
    rw [if_pos rfl, BitVec.getLsbD_or, hmask]
    rcases eq_or_ne i n with rfl | e
    · simp
    · simp [e, e.symm]
  case false =>
    rw [if_neg Bool.false_ne_true, BitVec.getLsbD_and, BitVec.getLsbD_not, hmask]
    rcases eq_or_ne i n with rfl | e
    · simp
    · simp [hi, e, e.symm]

/-- UART_n_RX is ball 57 + 2n: a character joins its FIFO, and meets a full one in vain (log entry 41). -/
theorem receiveAt_uart {s : State} {n : Nat} (hn : n < 8) (hmux : s.muxPrimary (57 + 2 * n) = true)
    (hen : (s.fld A.HOST_EN F.HOST_EN_UART).testBit n = true) (w : Word) :
    mapGet (fun _ => []) (receiveAt (57 + 2 * n) w s).host.uart n =
      (mapGet (fun _ => []) s.host.uart n ++ [w.setWidth 8]).take (max 64 (mapGet (fun _ => []) s.host.uart n).length) := by
  have hindex : (57 + 2 * n - 56) / 2 = n := by omega
  have hpos : ¬ 57 + 2 * n < 48 := by omega
  have huart : 56 ≤ 57 + 2 * n ∧ 57 + 2 * n < 72 ∧ (57 + 2 * n) % 2 = 1 := by omega
  simp only [receiveAt, hindex, hmux, hpos, huart, hen, decide_true, decide_false, Bool.not_true, Bool.false_and,
    Bool.and_self, Bool.false_eq_true, if_false, if_true, State.setHost_self, mapGet_mapSet_self]
  split
  next hroom =>
    refine (List.take_of_length_le ?_).symm
    rw [List.length_append, List.length_singleton]
    omega
  next hfull => rw [max_eq_right (by omega), List.take_left]

/-! ### Memories (R335, R337) -/

/-- An engine with nothing to do has nothing to go on to. -/
theorem engineGoesOn_of_idle {s : State} (h : s.engineBusy = false) : engineGoesOn s = s := by
  simp only [State.engineBusy, Bool.or_eq_false_iff, Option.isSome_eq_false_iff, Option.isNone_iff_eq_none, List.any_eq_false,
    decide_eq_true_eq, not_not] at h
  obtain ⟨hkey, hwaiting⟩ := h
  have hsum : (s.host.waiting.map (fun p => p.2.length)).sum = 0 := by
    rw [List.sum_eq_zero_iff, List.forall_mem_map]
    intro p hp
    rw [hwaiting p hp, List.length_nil]
  rw [engineGoesOn, hsum, serveQueued, keyReplyEnd, hkey]

theorem memoryFillDone_of_idle {s : State} (hgood : s.supply.phase = .good) (hwake : s.supply.power ≠ .dormant)
    (hidle : s.engineBusy = false) (dram : Bool) : memoryFillDone dram s =
      s.setBit A.MEM_STATUS (if dram then F.MEM_STATUS_DRAM_READY else F.MEM_STATUS_SRAM_READY) := by
  rw [memoryFillDone, if_pos ⟨hgood, hwake⟩]
  exact engineGoesOn_of_idle hidle

/-! ### ECC of the shared SRAM (R335) -/

theorem eccUnit_sram {a : Nat} (h : regionOf a = .sram) : eccUnit a = a / 8 * 8 := by simp [eccUnit, h]

/-- Only the flash has blank lines. -/
theorem blankAt_sram (s : State) {a : Nat} (h : regionOf a = .sram) : s.blankAt a = false := by simp [State.blankAt, h]

theorem strike_none_sram (s : State) {a : Nat} (h : regionOf a = .sram) :
    s.strike a .none = { s with upsets := mapErase s.upsets (a / 8 * 8) } := by
  rw [State.strike, eccUnit_sram h, mapSet, if_pos rfl]

/-- A corrected error is counted, up to a count of all ones. -/
theorem correctedEcc_sram (s : State) {a : Nat} (h : regionOf a = .sram) :
    s.correctedEcc a = (if s.reg A.MEM_SRAM_CORR = 0xFFFFFFFF then s
      else s.setReg A.MEM_SRAM_CORR (s.reg A.MEM_SRAM_CORR + 1)).setBit A.MEM_STATUS F.MEM_STATUS_CORR := by
  have hfull : (s.reg A.MEM_SRAM_CORR).toNat < 0xFFFFFFFF ↔ ¬ s.reg A.MEM_SRAM_CORR = 0xFFFFFFFF := by bv_omega
  simp only [State.correctedEcc, h, State.countCorr, hfull, ite_not]

/-- The state that has noted an uncorrectable error at `a` and has not yet recorded it in MEM. -/
def State.noted (s : State) (a : Nat) : State := { s with eccReported := true, poison := noteUnit (eccUnit a) s.poison }

theorem State.poisoned_noted (s : State) (a : Nat) : (s.noted a).poisoned a = true := by
  simp [State.noted, State.poisoned, noteUnit]

theorem fatalEcc_sram (s : State) {a : Nat} (h : regionOf a = .sram) :
    s.fatalEcc a = (if s.bit A.MEM_STATUS F.MEM_STATUS_FATAL then s.noted a
      else (s.noted a).setReg A.MEM_FATAL_ADDR (BitVec.ofNat 32 (a / 8))).setBit A.MEM_STATUS F.MEM_STATUS_FATAL := by
  simp only [State.fatalEcc, h]
  rfl

/-- What MEM and the ECC record of an uncorrectable error, and that the memory's bytes stay. -/
theorem fatalEcc_sram_records (s : State) {a : Nat} (h : regionOf a = .sram) :
    (s.fatalEcc a).poisoned a = true ∧ (s.fatalEcc a).eccReported = true ∧ (s.fatalEcc a).mem = s.mem ∧
      (s.fatalEcc a).bit A.MEM_STATUS F.MEM_STATUS_FATAL = true ∧ (s.bit A.MEM_STATUS F.MEM_STATUS_FATAL = false →
        (s.fatalEcc a).reg A.MEM_FATAL_ADDR = BitVec.ofNat 32 (a / 8) &&& definedMask A.MEM_FATAL_ADDR) := by
  have hfatal (t : State) : (t.setBit A.MEM_STATUS F.MEM_STATUS_FATAL).bit A.MEM_STATUS F.MEM_STATUS_FATAL = true :=
    State.bit_setBit (by decide) (by decide) t
  rw [fatalEcc_sram s h]
  split
  next hold => exact ⟨s.poisoned_noted a, rfl, rfl, hfatal _, fun hfirst => by simp [hold] at hfirst⟩
  next =>
    refine ⟨s.poisoned_noted a, rfl, rfl, hfatal _, fun _ => ?_⟩
    rw [State.setBit, State.setFld, State.reg_setReg_of_ne _ _ (by decide), State.reg_setReg]

/-! ### A read under ECC -/

section
variable {s : State} {a : Nat} {ecc : WordEcc} (hblank : s.blankAt a = false) (hpoison : s.poisoned a = false)
include hblank hpoison

theorem eccRead_of_none (h : s.meets a ecc = .none) : s.eccRead a ecc = (s, true) := by
  simp [State.eccRead, hblank, hpoison, h]

theorem eccRead_of_corrected (h : s.meets a ecc = .corrected) :
    s.eccRead a ecc = ((s.strike a .none).correctedEcc a, true) := by
  simp [State.eccRead, hblank, hpoison, h]

theorem eccRead_of_uncorrectable (h : s.meets a ecc = .uncorrectable) :
    s.eccRead a ecc = ((s.strike a .none).fatalEcc a, false) := by
  simp [State.eccRead, hblank, hpoison, h]

end

/-! ### The scrubber (R335) -/

theorem scrub_struck {s : State} (h : s.powered = true) (a : Nat) (e : WordEcc) : scrub a (.struck e) s = s.strike a e := by
  simp [scrub, h]

theorem scrubWord_sram {s : State} {a : Nat} (hon : s.runnerOn = true) (hsram : regionOf a = .sram)
    (hwait : s.memoryWaits a = false) (ecc : WordEcc) : scrubWord a ecc s = (s.eccRead (a / 8 * 8) ecc).1 := by
  simp [scrubWord, hon, hsram, hwait]

section
variable {s : State} {a : Nat} (hon : s.runnerOn = true) (hsram : regionOf a = .sram) (hword : regionOf (a / 8 * 8) = .sram)
  (hwait : s.memoryWaits a = false) (hpoison : s.poisoned (a / 8 * 8) = false)
include hsram hword

/-- An address of the SRAM and the first address of its word lie in one ECC unit. -/
theorem eccUnit_word : eccUnit (a / 8 * 8) = eccUnit a := by
  rw [eccUnit_sram hword, eccUnit_sram hsram, Nat.mul_div_cancel _ (by decide)]

theorem meets_word : s.meets (a / 8 * 8) .none = s.upset a := by
  rw [State.meets, if_pos rfl, State.upset, eccUnit_word hsram hword, State.upset]

include hon hwait hpoison

theorem scrubWord_of_sound (h : s.upset a = .none) : scrubWord a .none s = s := by
  rw [scrubWord_sram hon hsram hwait, eccRead_of_none (blankAt_sram s hword) hpoison ((meets_word hsram hword).trans h)]

/-- The scrubber meets a corrected error, be it reported or struck before: it is repaired in place and counted. -/
theorem scrubWord_of_corrected {ecc : WordEcc} (h : s.meets (a / 8 * 8) ecc = .corrected) :
    scrubWord a ecc s = (s.strike a .none).correctedEcc a := by
  rw [scrubWord_sram hon hsram hwait, eccRead_of_corrected (blankAt_sram s hword) hpoison h, correctedEcc_sram _ hword,
    correctedEcc_sram _ hsram, State.strike, eccUnit_word hsram hword, State.strike]

theorem scrubWord_of_uncorrectable : scrubWord a .uncorrectable s = (s.strike a .none).fatalEcc (a / 8 * 8) := by
  rw [scrubWord_sram hon hsram hwait, eccRead_of_uncorrectable (blankAt_sram s hword) hpoison rfl, State.strike,
    eccUnit_word hsram hword, State.strike]

end

/-- Settles O28, one clause after another, by what each command does to the state. -/
theorem sourcesBallsAndScrub : Obligations.SourcesBallsAndScrub := by
  unfold Obligations.SourcesBallsAndScrub
  intro s who k bits a mask
  refine ⟨fun hmay => ⟨?set, ?clear⟩, fun n up events => ⟨rfl, rfl, fun h => gpioLevel_pos h events,
    fun i hi => getLsbD_gpioLevel s n up events hi, fun w => rfl⟩, fun n w hmux hen => receiveAt_uart n.isLt hmux hen w,
    fun e hpowered => ?struck, fun dram hgood hwake hidle => ?fill, fun hon hsram hword hwait hpoison => ?scrub⟩
  case set => exact congrArg Host.Outcome.next (commandWrite_swiSet hmay k bits)
  case clear => exact congrArg Host.Outcome.next (latching_swiClr hmay k bits)
  case struck => exact congrArg Host.Outcome.next (scrub_struck hpowered a e)
  case fill => exact congrArg Host.Outcome.next (memoryFillDone_of_idle hgood hwake hidle dram)
  case scrub =>
    have hcorrected : scrubWord a .corrected s = (s.strike a .none).correctedEcc a :=
      scrubWord_of_corrected hon hsram hword hwait hpoison rfl
    refine ⟨fun hnone => ?sound, fun hcorr => ?met, ?corrected, ?uncorrectable⟩
    case sound => exact congrArg Host.Outcome.next (scrubWord_of_sound hon hsram hword hwait hpoison hnone)
    case met =>
      have hmet := scrubWord_of_corrected hon hsram hword hwait hpoison ((meets_word hsram hword).trans hcorr)
      exact congrArg Host.Outcome.next (hmet.trans hcorrected.symm)
    case corrected =>
      rw [correctedEcc_sram _ hsram, strike_none_sram s hsram] at hcorrected
      exact congrArg Host.Outcome.next hcorrected
    case uncorrectable =>
      have h := scrubWord_of_uncorrectable hon hsram hword hwait hpoison
      obtain ⟨hpoisoned, hreported, hmem, hfatal, haddr⟩ := fatalEcc_sram_records (s.strike a .none) hword
      rw [State.poisoned, eccUnit_word hsram hword] at hpoisoned
      rw [Nat.mul_div_cancel _ (by decide)] at haddr
      exact ⟨_, congrArg Host.Outcome.next h, hpoisoned, hreported, hmem, hfatal, haddr⟩

end Sys2Proof.Machine

/-! The proof of the statement about resets and releases: full resets, the watchdog, output release and the start of cores. -/

namespace Sys2Proof.Machine

/-! ### A field after a write of its register -/

theorem testBit_fieldOf (w : Word) (f : Fld) (i : Nat) :
    (fieldOf w f).testBit i = (decide (i < f.hi - f.lo + 1) && w.getLsbD (f.lo + i)) := by
  rw [fieldOf, Nat.testBit_mod_two_pow, Nat.testBit_shiftRight, BitVec.testBit_toNat]

/-- A value in a field at the low end of a word. -/
theorem fieldBits_low {m : Nat} (x : BitVec (m + 1)) : fieldBits ⟨m, 0⟩ x.toNat = x.setWidth 32 := by
  rw [fieldBits, Nat.sub_zero, Nat.mod_eq_of_lt x.isLt, Nat.shiftLeft_zero, BitVec.ofNat_toNat]

theorem getLsbD_putField {f : Fld} (hf : f.fits = true) (w : Word) (v : Nat) {i : Nat} (hi : i < 32) :
    (putField w f v).getLsbD i = if f.covers i then v.testBit (i - f.lo) else w.getLsbD i := by
  have hbits : (fieldBits f v).getLsbD i = (f.covers i && v.testBit (i - f.lo)) := by
    obtain ⟨horder, -⟩ := Iff.mp Fld.fits_iff hf
    rw [Bool.eq_iff_iff, Bool.and_eq_true, Fld.covers_iff]
    simp only [fieldBits, BitVec.getLsbD_ofNat, Nat.testBit_shiftLeft, Nat.testBit_mod_two_pow, Bool.and_eq_true,
      decide_eq_true_eq]
    constructor
    · rintro ⟨-, hlo, hlen, hv⟩
      exact ⟨⟨hlo, by omega⟩, hv⟩
    · rintro ⟨⟨hlo, hhi⟩, hv⟩
      exact ⟨hi, hlo, by omega, hv⟩
  rw [putField, BitVec.getLsbD_or, BitVec.getLsbD_and, BitVec.getLsbD_not, getLsbD_fieldMask hf, hbits]
  cases f.covers i <;> simp [hi]

/-- A field that is set to ones takes the bits of its mask. -/
theorem putField_ones (w : Word) (f : Fld) : putField w f (2 ^ (f.hi - f.lo + 1) - 1) = w ||| fieldMask f := by
  rw [putField, fieldBits_ones]
  apply BitVec.eq_of_getLsbD_eq
  intro i hi
  simp only [BitVec.getLsbD_or, BitVec.getLsbD_and, BitVec.getLsbD_not, hi, decide_true, Bool.true_and]
  cases (fieldMask f).getLsbD i <;> simp

/-- A register defines every bit of a field. -/
def Fld.definedAt (f : Fld) (a : Nat) : Bool := f.fits && decide (fieldMask f &&& definedMask a = fieldMask f)

theorem Fld.definedAt_iff {f : Fld} {a : Nat} :
    f.definedAt a = true ↔ f.fits = true ∧ ∀ i, f.covers i = true → (definedMask a).getLsbD i = true := by
  rw [Fld.definedAt, Bool.and_eq_true, decide_eq_true_eq]
  refine and_congr_right fun hf => ⟨fun h i hi => ?bit, fun h => ?mask⟩
  case bit =>
    have := congrArg (·.getLsbD i) h
    simpa [getLsbD_fieldMask hf, hi] using this
  case mask =>
    apply BitVec.eq_of_getLsbD_eq
    intro i _
    rw [BitVec.getLsbD_and, getLsbD_fieldMask hf]
    cases hc : f.covers i
    · rfl
    · rw [h i hc]; rfl

/-- A field after another of the same register is stored. -/
theorem State.fld_setFld_eq (s : State) (a : Nat) (f g : Fld) (v : Nat) :
    (s.setFld a f v).fld a g = fieldOf (putField (s.reg a) f v &&& definedMask a) g :=
  congrArg (fieldOf · g) (State.reg_setReg s a (putField (s.reg a) f v))

/-- A field takes the value that is stored in it. -/
theorem State.fld_setFld {a : Nat} {f : Fld} (hf : f.definedAt a = true) {v : Nat} (hv : v < 2 ^ (f.hi - f.lo + 1)) (s : State) :
    (s.setFld a f v).fld a f = v := by
  obtain ⟨hfit, hdef⟩ := Iff.mp Fld.definedAt_iff hf
  obtain ⟨horder, hword⟩ := Iff.mp Fld.fits_iff hfit
  rw [State.fld_setFld_eq]
  refine Nat.eq_of_testBit_eq fun i => ?_
  rw [testBit_fieldOf]
  by_cases hi : i < f.hi - f.lo + 1
  · have hcover : f.covers (f.lo + i) = true := Iff.mpr Fld.covers_iff ⟨by omega, by omega⟩
    rw [BitVec.getLsbD_and, getLsbD_putField hfit _ _ (by omega), hdef _ hcover]
    simp [hi, hcover]
  · rw [Nat.testBit_lt_two_pow (lt_of_lt_of_le hv (Nat.pow_le_pow_right two_pos (by omega)))]
    simp [hi]

theorem fieldOf_lt (w : Word) (f : Fld) : fieldOf w f < 2 ^ (f.hi - f.lo + 1) := Nat.mod_lt _ (Nat.two_pow_pos _)

/-- A field stays when one that shares no bit with it is stored. -/
theorem State.fld_setFld_of_apart {a : Nat} {f g : Fld} (hf : f.fits = true) (hg : g.definedAt a = true)
    (hapart : f.hi < g.lo ∨ g.hi < f.lo) (s : State) (v : Nat) : (s.setFld a f v).fld a g = s.fld a g := by
  obtain ⟨hfit, hdef⟩ := Iff.mp Fld.definedAt_iff hg
  obtain ⟨horder, hword⟩ := Iff.mp Fld.fits_iff hfit
  rw [State.fld_setFld_eq]
  refine Nat.eq_of_testBit_eq fun i => ?_
  change _ = (fieldOf (s.reg a) g).testBit i
  rw [testBit_fieldOf, testBit_fieldOf]
  by_cases hi : i < g.hi - g.lo + 1
  · have hout : ¬ f.covers (g.lo + i) = true := fun h => by
      have := Iff.mp Fld.covers_iff h
      omega
    rw [BitVec.getLsbD_and, getLsbD_putField hf _ _ (by omega), if_neg hout,
      hdef _ (Iff.mpr Fld.covers_iff ⟨by omega, by omega⟩), Bool.and_true]
  · simp [hi]

theorem State.reg_setBit (s : State) (a : Nat) (f : Fld) : (s.setBit a f).reg a = (s.reg a ||| fieldMask f) &&& definedMask a := by
  rw [State.setBit, State.setFld, State.reg_setReg, putField_ones]

/-- A flag that stands is not changed by being set again. -/
theorem State.like_setBit_setBit (s : State) (a : Nat) (f : Fld) : ((s.setBit a f).setBit a f).like (s.setBit a f) := by
  refine ⟨rfl, fun b => ?_⟩
  by_cases e : b = a
  · subst e
    rw [State.reg_setBit, State.reg_setBit]
    apply BitVec.eq_of_getLsbD_eq
    intro i _
    simp only [BitVec.getLsbD_and, BitVec.getLsbD_or]
    cases (fieldMask f).getLsbD i <;> cases (definedMask b).getLsbD i <;> simp
  · exact State.reg_setReg_of_ne _ _ e

theorem State.like.trans {t u v : State} (h : t.like u) (h' : u.like v) : t.like v := by
  obtain ⟨hrest, hreg⟩ := h
  obtain ⟨hrest', hreg'⟩ := h'
  exact ⟨by rw [hrest, hrest'], fun a => (hreg a).trans (hreg' a)⟩

theorem Answers.of_exec {i : Instr} {s t : State} (h : exec i s = .next t) : Answers i s t := ⟨t, h, State.like_refl t⟩

/-- A bit that stands at 0 is added as it is set. -/
theorem add_two_pow_eq_or {x i : Nat} (h : x.testBit i = false) : x + 2 ^ i = x ||| 2 ^ i := by
  have hw : x + 2 ^ i < 2 ^ (x + 2 ^ i) := Nat.lt_two_pow_self
  have hx : x < 2 ^ (x + 2 ^ i) := (Nat.le_add_right ..).trans_lt hw
  have hi : 2 ^ i < 2 ^ (x + 2 ^ i) := (Nat.le_add_left ..).trans_lt hw
  have hapart : BitVec.ofNat (x + 2 ^ i) x &&& BitVec.ofNat (x + 2 ^ i) (2 ^ i) = 0#(x + 2 ^ i) := by
    apply BitVec.eq_of_toNat_eq
    rw [BitVec.toNat_and, BitVec.toNat_ofNat, BitVec.toNat_ofNat, Nat.mod_eq_of_lt hx, Nat.mod_eq_of_lt hi, Nat.and_two_pow, h]
    simp
  have hsum := congrArg BitVec.toNat (BitVec.add_eq_or_of_and_eq_zero _ _ hapart)
  rwa [BitVec.toNat_add, BitVec.toNat_or, BitVec.toNat_ofNat, BitVec.toNat_ofNat, Nat.mod_eq_of_lt hx, Nat.mod_eq_of_lt hi,
    Nat.mod_eq_of_lt hw] at hsum

theorem State.putFieldBit_true (s : State) (a : Nat) (f : Fld) (i : Nat) :
    s.putFieldBit a f i true = s.setFld a f (s.fld a f ||| 2 ^ i) := by
  unfold State.putFieldBit
  cases h : (s.fld a f).testBit i with
  | true =>
    have hor : s.fld a f ||| 2 ^ i = s.fld a f := by
      refine Nat.eq_of_testBit_eq fun j => ?_
      rw [Nat.testBit_or, Nat.testBit_two_pow]
      by_cases e : i = j
      · subst e; simp [h]
      · simp [e]
    simp [h, hor]
  | false => simp [h, add_two_pow_eq_or h]

/-! ### Writes of the registers of chapters 2 to 5 -/

section
variable {a : Nat} (ha : a < 0x80010000)
include ha

theorem place_of_low {base : Nat} (h : 0x80010000 ≤ base) (stride count : Nat) : place base stride count a = none :=
  if_neg fun hin => by omega

theorem stateWordAt_of_low : stateWordAt a = none := if_neg fun hin => by omega

theorem refusedWhole_of_low (s : State) (who : Requester) (w : Word) : s.refusedWhole who a w = false := by
  have hquench : ¬ (a = A.QUENCH_CTRL ∨ a = A.QUENCH_RELEASE) := by simp only [A.QUENCH_CTRL, A.QUENCH_RELEASE]; omega
  have hassay : ¬ A.ASSAY_CTRL ≤ a := by simp only [A.ASSAY_CTRL]; omega
  have hnode : a ≠ A.TW_NODE := by simp only [A.TW_NODE]; omega
  have hlock : ¬ (A.LOCK_CTRL 0 ≤ a ∧ a < A.LOCK_CTRL 8) := by simp only [A.LOCK_CTRL]; omega
  have hladle : ¬ (A.LD_CTRL 0 ≤ a ∧ a < A.LD_CTRL 8) := by simp only [A.LD_CTRL]; omega
  have hpg : ¬ (A.PG_CTRL 0 ≤ a ∧ a < A.PG_CTRL 48) := by simp only [A.PG_CTRL]; omega
  have hsurvey : ¬ (A.SV_CTRL 0 ≤ a ∧ a < A.SV_CTRL 8) := by simp only [A.SV_CTRL]; omega
  simp only [State.refusedWhole, hquench, hassay, hnode, hlock, hladle, hpg, hsurvey, if_false]

theorem guarded_of_low (s : State) (w : Word) : s.guarded a w = 0 := by
  simp (disch := decide) only [State.guarded, place_of_low ha]

theorem forbidden_of_low (s : State) (w : Word) : s.forbidden a w = 0 := by
  simp (disch := decide) only [State.forbidden, place_of_low ha]

variable {d : RegDef} (hd : regDefAt a = some d)
include hd

/-- What a write does there, from the word that takes effect. -/
theorem writeReg_of_low {s : State} (hfix : s.fixedReg a = false) (who : Requester) (w : Word) :
    writeReg who a w s = if d.fields.any (s.fieldRefused a 0 w) then (writeSupply who a d (s.taken a d 0 w) s).refuse a
      else writeSupply who a d (s.taken a d 0 w) s := by
  simp only [writeReg, hd, refusedWhole_of_low ha, guarded_of_low ha, stateWordAt_of_low ha, hfix, writeEffect, if_pos ha,
    Bool.false_eq_true, if_false]

end

/-- A word of which no field is refused takes effect as it is written. -/
theorem State.taken_of_none_refused {s : State} {a : Nat} {d : RegDef} (hd : regDefAt a = some d) {guard w : Word}
    (h : d.fields.any (s.fieldRefused a guard w) = false) : s.taken a d guard w = w := by
  obtain ⟨-, -, -, -, -, hfit, -⟩ := regDefAt_eq_some hd
  apply BitVec.eq_of_getLsbD_eq
  intro i _
  have hnone : ¬ d.fields.any (fun f => s.fieldRefused a guard w f && f.fld.covers i) = true := by
    rw [List.any_eq_true]
    rintro ⟨f, hf, hr⟩
    rw [Bool.and_eq_true] at hr
    exact List.any_eq_false.mp h f hf hr.1
  rw [State.getLsbD_taken s a hfit, if_neg hnone]

/-- The fields of a register that only takes commands: written ones act, and none holds a value that a write could contradict. -/
def RegDef.commands (d : RegDef) : Bool :=
  decide (d.fields ≠ []) && d.fields.all (fun f => decide (f.acc ∈ [.wo, .w1s, .w1c]))

/-- A write of such a register among chapters 2 to 5 acts with the word as written. -/
theorem writeReg_of_commands {a : Nat} (ha : a < 0x80010000) {d : RegDef} (hd : regDefAt a = some d) (hcmd : d.commands = true)
    (who : Requester) (w : Word) (s : State) : writeReg who a w s = writeSupply who a d w s := by
  simp only [RegDef.commands, Bool.and_eq_true, List.all_eq_true, decide_eq_true_eq] at hcmd
  obtain ⟨hne, hacc⟩ := hcmd
  simp only [List.mem_cons, List.not_mem_nil, or_false] at hacc
  have hany : d.fields.any (s.fieldRefused a 0 w) = false := by
    rw [List.any_eq_false]
    intro f hf
    rcases hacc f hf with e | e | e <;> simp [State.fieldRefused, e]
  have hfix : s.fixedReg a = false := by
    obtain ⟨f, hf⟩ := List.exists_mem_of_ne_nil _ hne
    simp only [State.fixedReg, hd, List.all_eq_false]
    exact ⟨f, hf, by rcases hacc f hf with e | e | e <;> simp [State.fixedField, e]⟩
  rw [writeReg_of_low ha hd hfix, hany, State.taken_of_none_refused hd hany]
  rfl

/-! ### Outputs that a sweep changes one by one -/

/-- The state with other outputs. -/
def State.withOuts (s : State) (m : SMap OutState) : State := { s with outs := m }

theorem State.withOuts_parts (s : State) (m : SMap OutState) : (s.withOuts m).reg = s.reg ∧ (s.withOuts m).fld = s.fld ∧
    (s.withOuts m).out = mapGet (fun _ => OutState.init) m := ⟨rfl, rfl, rfl⟩

theorem State.withOuts_withOuts (s : State) (m n : SMap OutState) : (s.withOuts m).withOuts n = s.withOuts n := rfl

/-- `f s o` changes the state of output `o` alone, to what `g` makes of it; `g` reads of the state no output. -/
def OutStep (f : State → Nat → State) (g : State → Nat → OutState → OutState) : Prop :=
  (∀ s o, ∃ m, f s o = s.withOuts m) ∧ (∀ s o, (f s o).out o = g s o (s.out o)) ∧
    (∀ s o p, p ≠ o → (f s o).out p = s.out p) ∧ ∀ (s : State) (m : SMap OutState) o x, g (s.withOuts m) o x = g s o x

section
variable {f : State → Nat → State} {g : State → Nat → OutState → OutState} (h : OutStep f g)
include h

theorem OutStep.sweep_rest (n : Nat) (s : State) : ∃ m, (List.range n).foldl f s = s.withOuts m := by
  induction n with
  | zero => exact ⟨s.outs, rfl⟩
  | succ n ih =>
    obtain ⟨m, hm⟩ := ih
    have ⟨rest, _⟩ := h
    obtain ⟨m', hm'⟩ := rest (s.withOuts m) n
    exact ⟨m', by rw [List.range_succ, List.foldl_append, hm, List.foldl_cons, List.foldl_nil, hm', State.withOuts_withOuts]⟩

/-- A sweep over the first `n` outputs makes of each what one step makes of it. -/
theorem OutStep.sweep_out (n : Nat) (s : State) (o : Nat) :
    ((List.range n).foldl f s).out o = if o < n then g s o (s.out o) else s.out o := by
  have ⟨_, self, other, blind⟩ := h
  induction n with
  | zero => rfl
  | succ n ih =>
    rw [List.range_succ, List.foldl_append, List.foldl_cons, List.foldl_nil]
    by_cases e : o = n
    · subst e
      obtain ⟨m, hm⟩ := h.sweep_rest o s
      rw [self, ih, if_neg (lt_irrefl o), if_pos (Nat.lt_succ_self o), hm, blind]
    · rw [other _ _ _ e, ih]
      have : o < n ↔ o < n + 1 := by omega
      simp only [this]

end

/-! ### What the loss of every rail leaves (R36, R158, R467) -/

/-- The global force on an output with safe state `safe` (R158). -/
def OutState.forced (x : OutState) (safe : Nat) : OutState :=
  if x.mode = .hiZ ∨ x.mode = .await ∨ x.mode = .held then x
  else { x with mode := .held, older := [], prev := none, cur := none }.forceSafe safe

theorem outStep_globalForce : OutStep (fun s o => globalForce o s) (fun s o x => x.forced (s.safeOf o)) := by
  refine ⟨fun s o => ?rest, fun s o => ?self, fun s o p hne => ?other, fun _ _ _ _ => rfl⟩
  case rest =>
    unfold globalForce
    dsimp only
    split
    · exact ⟨s.outs, rfl⟩
    · exact ⟨_, rfl⟩
  case self =>
    unfold globalForce OutState.forced
    dsimp only
    split
    · rfl
    · exact State.out_setOut _ _ _
  case other =>
    unfold globalForce
    dsimp only
    split
    · rfl
    · exact State.out_setOut_of_ne _ _ hne

theorem OutState.forced_idle {x : OutState} (h : x.mode = .hiZ ∨ x.mode = .await ∨ x.mode = .held) (safe : Nat) :
    x.forced safe = x := if_pos h

/-- An output that has left Z is held at its safe state, low first where that is high. -/
theorem OutState.forced_driven {x : OutState} (h : x.mode ∉ [.hiZ, .await, .held]) (safe : Nat) :
    (x.forced safe).mode = .held ∧ (x.forced safe).pin = (if safe = 2 then .z else .low) ∧
      (x.forced safe).highDue = decide (safe = 1) := by
  have hforced : x.forced safe = { x with mode := .held, older := [], prev := none, cur := none }.forceSafe safe :=
    if_neg (by simpa using h)
  rw [hforced, OutState.forceSafe]
  split
  next e => simp [e]
  next => exact ⟨rfl, rfl, rfl⟩

theorem mapGet_filterMap {α : Type} (d : Nat → α) (q : Nat → Bool) (v : Nat → α) (l : List Nat) (o : Nat) :
    mapGet d (l.filterMap (fun o => if q o = true then some (o, v o) else none)) o = if o ∈ l ∧ q o = true then v o else d o := by
  induction l with
  | nil => simp
  | cons p t ih =>
    rw [List.filterMap_cons]
    by_cases hq : q p = true
    · rw [if_pos hq]
      by_cases e : p = o
      · subst e; simp [mapGet, hq]
      · simp [mapGet, e, Ne.symm e, ih]
    · rw [if_neg hq]
      by_cases e : p = o
      · subst e; simp [ih, hq]
      · simp [ih, Ne.symm e]

/-- Of the outputs only those remain that are held, with what stands at their balls. -/
theorem mapGet_heldOuts (s : State) {o : Nat} (ho : o < 192) :
    mapGet (fun _ => OutState.init) s.heldOuts o = if (s.out o).mode = .held then
      { OutState.init with mode := .held, pin := (s.out o).pin, highDue := (s.out o).highDue } else OutState.init := by
  have h := mapGet_filterMap (fun _ => OutState.init) (fun o => decide ((s.out o).mode = .held))
    (fun o => { OutState.init with mode := .held, pin := (s.out o).pin, highDue := (s.out o).highDue }) (List.range 192) o
  simp only [decide_eq_true_eq, List.mem_range, ho, true_and] at h
  exact h

/-- The state with other cores. -/
def State.withCores (s : State) (k : SMap Core) : State := { s with cores := k }

/-- Where no store waits, none lands. -/
theorem landStores_of_none {s : State} {c : Nat} (h : (s.core c).stores = []) : s.landStores c = s.setCore c (s.core c) := by
  unfold State.landStores
  simp only [h, List.filter_nil, List.foldl_nil]
  rw [← h]

theorem foldl_landStores_of_none (l : List Nat) {s : State} (h : ∀ c ∈ l, (s.core c).stores = []) :
    ∃ k, l.foldl (fun s c => s.landStores c) s = s.withCores k := by
  induction l generalizing s with
  | nil => exact ⟨s.cores, rfl⟩
  | cons c l ih =>
    have hcore (d : Nat) : (s.setCore c (s.core c)).core d = s.core d := by
      by_cases e : d = c
      · rw [e, core_setCore]
      · exact core_setCore_of_ne s _ e
    obtain ⟨k, hk⟩ := ih (s := s.setCore c (s.core c)) fun d hd => by
      rw [hcore]
      exact h d (List.mem_cons_of_mem _ hd)
    exact ⟨k, by rw [List.foldl_cons, landStores_of_none (h c List.mem_cons_self), hk]; rfl⟩

theorem flashAbandon_of_idle {s : State} (hjob : s.flash.job = none) (hsuspended : s.flash.suspended = none) :
    flashAbandon s = s := by
  have hflash : { s.flash with job := none, suspended := none } = s.flash := by rw [← hjob, ← hsuspended]
  simp only [flashAbandon, hjob, hsuspended, hflash]
  rfl

/-- The global force on every output. -/
def State.forcedSafe (s : State) : State := (List.range 192).foldl (fun s o => globalForce o s) s

theorem State.out_forcedSafe (s : State) {o : Nat} (ho : o < 192) : s.forcedSafe.out o = (s.out o).forced (s.safeOf o) :=
  (OutStep.sweep_out outStep_globalForce 192 s o).trans (if_pos ho)

/-- No accepted store is under way, and no flash command. -/
def State.AtRest (s : State) : Prop := (∀ c < 16, (s.core c).stores = []) ∧ s.flash.job = none ∧ s.flash.suspended = none

/-- At rest, the rails fall on what the global force leaves. -/
theorem powerLost_of_atRest {s : State} (h : s.AtRest) (p : Supply) :
    s.powerLost p = (s.bare (s.supply.unpowered p)).withOuts s.forcedSafe.heldOuts := by
  obtain ⟨hstores, hjob, hsuspended⟩ := h
  obtain ⟨m, hm⟩ : ∃ m, s.forcedSafe = s.withOuts m := OutStep.sweep_rest outStep_globalForce 192 s
  obtain ⟨k, hk⟩ := foldl_landStores_of_none (List.range 16) (s := s.withOuts m) fun c hc => hstores c (List.mem_range.mp hc)
  have hflash : flashAbandon ((s.withOuts m).withCores k) = (s.withOuts m).withCores k := flashAbandon_of_idle hjob hsuspended
  have hpower : s.powerLost p = (let t := flashAbandon ((List.range 16).foldl (fun s c => s.landStores c) s.forcedSafe)
    { t.bare (t.supply.unpowered p) with outs := t.heldOuts }) := rfl
  rw [hpower, hm, hk, hflash]
  rfl

/-- The state in which the rails fall: the source's own change of the supply, and the causes that RST.CAUSE then shows. -/
def State.caused (s : State) (x : SupplyState) (w : Word) : State := (s.setSupply x).setReg A.RST_CAUSE w

/-- What else the device holds stays until the rails fall. -/
theorem State.caused_parts (s : State) (x : SupplyState) (w : Word) :
    (s.caused x w).supply = x ∧ (s.caused x w).flash = s.flash ∧ (s.caused x w).core = s.core ∧ (s.caused x w).out = s.out :=
  ⟨rfl, rfl, rfl, rfl⟩

theorem fullReset_of_good {s : State} {x : SupplyState} (hgood : x.phase = .good) (hvin : x.vin = true) (b : Nat) :
    fullReset b (s.setSupply x) = (s.caused x (s.reg A.RST_CAUSE ||| fieldMask ⟨b, b⟩)).powerLost .discharging := by
  have hcause : setCause b (s.setSupply x) = s.caused x (s.reg A.RST_CAUSE ||| fieldMask ⟨b, b⟩) := by
    have h := putField_ones (s.reg A.RST_CAUSE) ⟨b, b⟩
    simp only [Nat.sub_self, Nat.zero_add, Nat.pow_one, Nat.add_one_sub_one] at h
    rw [setCause, State.setSupply_self, if_pos hvin, State.setFld, State.caused, ← h]
    rfl
  unfold fullReset
  rw [State.setSupply_self, hgood, hcause]

theorem definedMask_resetCause : definedMask A.RST_CAUSE = 0x7F := by decide

/-- A source adds its bit to the causes that stand (R84). -/
theorem cause_and_definedMask {s : State} (hs : Regs.reserved s) {m : Word} (hm : m &&& 0x7F = m) :
    (s.reg A.RST_CAUSE ||| m) &&& definedMask A.RST_CAUSE = s.reg A.RST_CAUSE ||| m := by
  rw [BitVec.and_or_distrib_right, reg_and_definedMask hs, definedMask_resetCause, hm]

theorem reg_bare_resetCause (s : State) (x : SupplyState) :
    (s.bare x).reg A.RST_CAUSE = s.reg A.RST_CAUSE &&& definedMask A.RST_CAUSE := by
  unfold State.bare
  rw [State.setFld, State.reg_setReg_of_ne _ _ (by decide), State.reg_setReg]

theorem reg_bare (s : State) (x : SupplyState) {a : Nat} (hcause : a ≠ A.RST_CAUSE) (hsession : a ≠ A.SESSION_STATUS) :
    (s.bare x).reg a = resetWord a := by
  unfold State.bare
  rw [State.setFld, State.reg_setReg_of_ne _ _ hsession, State.reg_setReg_of_ne _ _ hcause]
  rfl

theorem lockout_bare (s : State) (x : SupplyState) :
    (s.bare x).fld A.SESSION_STATUS F.SESSION_STATUS_LOCKOUT = s.fld A.SESSION_STATUS F.SESSION_STATUS_LOCKOUT :=
  State.fld_setFld (by decide) (fieldOf_lt _ _) _

section
variable {s : State} (hrest : s.AtRest) (x : SupplyState) (w : Word)
include hrest

/-- What the loss of the rails leaves besides registers and outputs. -/
theorem powerLost_caused :
    (s.caused x w).powerLost .discharging =
      ((s.caused x w).bare (x.unpowered .discharging)).withOuts (s.caused x w).forcedSafe.heldOuts := by
  obtain ⟨hsupply, hflash, hcore, -⟩ := s.caused_parts x w
  have hcaused : (s.caused x w).AtRest := by rwa [State.AtRest, hcore, hflash]
  rw [powerLost_of_atRest hcaused, hsupply]

theorem resetCause_powerLost : ((s.caused x w).powerLost .discharging).reg A.RST_CAUSE = w &&& definedMask A.RST_CAUSE := by
  rw [powerLost_caused hrest, (State.withOuts_parts _ _).1, reg_bare_resetCause, State.caused, State.reg_setReg, BitVec.and_assoc,
    BitVec.and_self]

theorem reg_powerLost {a : Nat} (hcause : a ≠ A.RST_CAUSE) (hsession : a ≠ A.SESSION_STATUS) :
    ((s.caused x w).powerLost .discharging).reg a = resetWord a := by
  rw [powerLost_caused hrest, (State.withOuts_parts _ _).1, reg_bare _ _ hcause hsession]

theorem lockout_powerLost : ((s.caused x w).powerLost .discharging).fld A.SESSION_STATUS F.SESSION_STATUS_LOCKOUT =
    s.fld A.SESSION_STATUS F.SESSION_STATUS_LOCKOUT := by
  rw [powerLost_caused hrest, (State.withOuts_parts _ _).2.1, lockout_bare, State.caused,
    State.fld_setReg_of_ne _ _ _ (by decide), (State.setSupply_parts s x).2.1]

theorem out_powerLost {o : Nat} (ho : o < 192) :
    ((s.caused x w).powerLost .discharging).out o = if ((s.out o).forced (s.safeOf o)).mode = .held then
      { OutState.init with mode := .held, pin := ((s.out o).forced (s.safeOf o)).pin,
                           highDue := ((s.out o).forced (s.safeOf o)).highDue } else OutState.init := by
  have hsafe : (s.caused x w).safeOf o = s.safeOf o :=
    State.fld_setReg_of_ne _ _ _ (by simp only [A.QUENCH_OUT, A.RST_CAUSE]; omega)
  have hout : (s.caused x w).forcedSafe.out o = (s.out o).forced (s.safeOf o) := by
    obtain ⟨-, -, -, hout⟩ := s.caused_parts x w
    rw [State.out_forcedSafe _ ho, hsafe, hout]
  rw [powerLost_caused hrest, (State.withOuts_parts _ _).2.2, mapGet_heldOuts _ ho, hout]

theorem out_powerLost_driven {o : Nat} (ho : o < 192) (h : (s.out o).mode ∉ [.hiZ, .await, .held]) :
    let y := ((s.caused x w).powerLost .discharging).out o
    y.mode = .held ∧ y.pin = (if s.safeOf o = 2 then .z else .low) ∧ y.highDue = decide (s.safeOf o = 1) := by
  obtain ⟨hmode, hpin, hdue⟩ := OutState.forced_driven h (s.safeOf o)
  rw [out_powerLost hrest x w ho, if_pos hmode]
  exact ⟨rfl, hpin, hdue⟩

theorem out_powerLost_held {o : Nat} (ho : o < 192) (h : (s.out o).mode = .held) :
    let y := ((s.caused x w).powerLost .discharging).out o
    y.mode = .held ∧ y.pin = (s.out o).pin ∧ y.highDue = (s.out o).highDue := by
  rw [out_powerLost hrest x w ho, OutState.forced_idle (.inr (.inr h)), if_pos h]
  exact ⟨rfl, rfl, rfl⟩

theorem out_powerLost_idle {o : Nat} (ho : o < 192) (h : (s.out o).mode = .hiZ ∨ (s.out o).mode = .await) :
    ((s.caused x w).powerLost .discharging).out o = OutState.init := by
  have hnot : (s.out o).mode ≠ .held := by rcases h with e | e <;> simp [e]
  rw [out_powerLost hrest x w ho, OutState.forced_idle (h.imp_right .inl), if_neg hnot]

end

/-! ### The sources of a full reset (R80) -/

theorem regDefAt_resetCtrl : regDefAt A.RST_CTRL = some ⟨A.RST_CTRL, [], 0x0, [⟨31, 16, .wo, 0, 0xFFFF, none⟩,
    ⟨0, 0, .wo, 0, 1, none⟩]⟩ := by decide

theorem commandWrite_softReset {s : State} {who : Requester} (hmay : s.mayWrite who = true) :
    commandWrite who A.RST_CTRL 0xB1A50001 s = fullReset 4 s := by
  rw [commandWrite, if_pos hmay, writeReg_of_commands (by decide) regDefAt_resetCtrl (by decide), writeSupply, if_pos rfl,
    resetCommand, if_pos (by decide), if_pos (by decide)]

theorem clockLoss_of_lock {s : State} (hgood : s.supply.phase = .good) (hpower : s.supply.power ≠ .dormant) :
    clockLoss false s = fullReset 3 s := by
  rw [clockLoss, if_neg Bool.false_ne_true, if_pos ⟨hgood, hpower⟩]

theorem wdogExpiry_of_enabled {s : State} (hgood : s.supply.phase = .good) (hpower : s.supply.power ≠ .dormant)
    (hen : s.bit A.RST_WDOG F.RST_WDOG_EN = true) : wdogExpiry s = fullReset 5 s := by
  rw [wdogExpiry, if_pos ⟨hgood, hen, hpower⟩]

theorem vinLoss_of_good {s : State} (hgood : s.supply.phase = .good) (hvin : s.supply.vin = true) (high : Bool) :
    vinLoss high s = (s.caused { s.supply with vin := false, overvoltage := high } 0).powerLost .discharging := by
  unfold vinLoss
  rw [if_pos hvin]
  simp only [State.setSupply_self, hgood]
  rfl

theorem vmidClamp_of_good {s : State} (hgood : s.supply.phase = .good) :
    vmidClamp s = (s.caused s.supply 1).powerLost .discharging := by
  unfold vmidClamp
  rw [hgood]
  rfl

/-! ### The watchdog (R94) -/

/-- The row of RST.WDOG. -/
def wdogRow : RegDef := ⟨A.RST_WDOG, [], 0x0, [⟨31, 31, .w1s, 0, 1, none⟩, ⟨23, 0, .rw, 1, 0xFFFFFF, none⟩]⟩

theorem regDefAt_wdog : regDefAt A.RST_WDOG = some wdogRow := by decide

theorem refuse_wdog (s : State) : s.refuse A.RST_WDOG = rejectBoot s := rfl

/-- The word that a write of EN with a TIMEOUT carries. -/
def wdogWord (n : BitVec 24) : Word := 0x80000000 ||| n.setWidth 32

theorem getLsbD_wdogWord (n : BitVec 24) : (wdogWord n).getLsbD 31 = true := by
  change (0x80000000 ||| n.setWidth 32 : Word).getLsbD 31 = true
  simp

theorem fieldOf_wdogWord (n : BitVec 24) : fieldOf (wdogWord n) F.RST_WDOG_TIMEOUT = n.toNat := by
  have hhigh : (0x80000000 : Word).toNat % 2 ^ 24 = 0 := by decide
  have hlow : (n.setWidth 32).toNat % 2 ^ 24 = n.toNat := by
    have := n.isLt
    rw [BitVec.toNat_setWidth, Nat.mod_mod_of_dvd _ (by decide), Nat.mod_eq_of_lt this]
  change (0x80000000 ||| n.setWidth 32 : Word).toNat % 2 ^ 24 = n.toNat
  rw [BitVec.toNat_or, Nat.or_mod_two_pow, hhigh, hlow, Nat.zero_or]

theorem wdogWord_eq_fields (n : BitVec 24) :
    fieldBits F.RST_WDOG_EN 1 ||| fieldBits F.RST_WDOG_TIMEOUT n.toNat = wdogWord n := by
  rw [F.RST_WDOG_TIMEOUT, fieldBits_low n]
  rfl

theorem fixedReg_wdog (s : State) : s.fixedReg A.RST_WDOG = false := by
  rw [State.fixedReg, regDefAt_wdog]
  rfl

section
variable {s : State} (hbasic : s.basicAt A.RST_WDOG = false)
include hbasic

/-- Of a write of RST.WDOG only a TIMEOUT of 0 is refused (R16, R94). -/
theorem any_fieldRefused_wdog (n : BitVec 24) :
    wdogRow.fields.any (s.fieldRefused A.RST_WDOG 0 (wdogWord n)) = decide (n = 0) := by
  have hlegal : FieldDef.legal ⟨23, 0, .rw, 1, 0xFFFFFF, none⟩ (wdogWord n) = !decide (n = 0) := by
    have h : fieldOf (wdogWord n) ⟨23, 0⟩ = n.toNat := fieldOf_wdogWord n
    by_cases hn : n = 0
    · subst hn
      decide
    · have hpos : 1 ≤ n.toNat := Nat.one_le_iff_ne_zero.mpr fun h => hn (BitVec.eq_of_toNat_eq h)
      have hmax : n.toNat ≤ 0xFFFFFF := Nat.le_of_lt_succ n.isLt
      simpa [FieldDef.legal, h, hpos, hmax] using hn
  have hfree : s.fixedField A.RST_WDOG ⟨23, 0, .rw, 1, 0xFFFFFF, none⟩ = false := by simp [State.fixedField, hbasic]
  simp [wdogRow, State.fieldRefused, hfree, hlegal, forbidden_of_low (show A.RST_WDOG < 0x80010000 by decide)]

theorem writeReg_wdog_of_ne {n : BitVec 24} (hn : n ≠ 0) (who : Requester) :
    writeReg who A.RST_WDOG (wdogWord n) s = wdogWrite true n.toNat s := by
  have hany := (any_fieldRefused_wdog hbasic n).trans (decide_eq_false hn)
  rw [writeReg_of_low (by decide) regDefAt_wdog (fixedReg_wdog s), hany, State.taken_of_none_refused regDefAt_wdog hany,
    writeSupply, if_neg (by decide), if_pos rfl, getLsbD_wdogWord, fieldOf_wdogWord]
  rfl

theorem writeReg_wdog_zero (htimeout : s.fld A.RST_WDOG F.RST_WDOG_TIMEOUT = 0) (who : Requester) :
    writeReg who A.RST_WDOG (wdogWord 0) s = rejectBoot (wdogWrite true 0 s) := by
  have hany := (any_fieldRefused_wdog hbasic 0).trans (decide_eq_true rfl)
  have htaken : s.taken A.RST_WDOG wdogRow 0 (wdogWord 0) = wdogWord 0 := by
    have hen : s.fieldRefused A.RST_WDOG 0 (wdogWord 0) ⟨31, 31, .w1s, 0, 1, none⟩ = false := rfl
    have hfld : s.fld A.RST_WDOG ⟨23, 0⟩ = 0 := htimeout
    have hfields : wdogRow.fields = [⟨31, 31, .w1s, 0, 1, none⟩, ⟨23, 0, .rw, 1, 0xFFFFFF, none⟩] := rfl
    simp only [State.taken, hfields, List.foldl_cons, List.foldl_nil, hen, hfld, Bool.false_eq_true, if_false]
    split
    · decide
    · rfl
  rw [writeReg_of_low (by decide) regDefAt_wdog (fixedReg_wdog s), if_pos hany, htaken, refuse_wdog,
    writeSupply, if_neg (by decide), if_pos rfl, getLsbD_wdogWord, fieldOf_wdogWord]
  rfl

end

/-- Enabling a watchdog that is off stores EN with TIMEOUT and loads the countdown. -/
theorem wdogWrite_like {s : State} {n : BitVec 24} (hn : n ≠ 0) (hoff : s.bit A.RST_WDOG F.RST_WDOG_EN = false) :
    (wdogWrite true n.toNat s).like ({ s with supply := { s.supply with wdog := n.toNat } }.setReg A.RST_WDOG (wdogWord n)) := by
  have hne : n.toNat ≠ 0 := fun h => hn (BitVec.eq_of_toNat_eq h)
  have hen : (s.setFld A.RST_WDOG F.RST_WDOG_TIMEOUT n.toNat).bit A.RST_WDOG F.RST_WDOG_EN = false := by
    rw [State.bit, State.fld_setFld_of_apart (by decide) (by decide) (by decide)]
    exact hoff
  have htimeout : (s.setFld A.RST_WDOG F.RST_WDOG_TIMEOUT n.toNat).fld A.RST_WDOG F.RST_WDOG_TIMEOUT = n.toNat :=
    State.fld_setFld (by decide) n.isLt s
  have hwrite : wdogWrite true n.toNat s = armWatchdog n.toNat (s.setFld A.RST_WDOG F.RST_WDOG_TIMEOUT n.toNat) := by
    simp only [wdogWrite, hne, hen, htimeout, if_false, Bool.not_false, Bool.and_self, if_true]
  rw [hwrite, armWatchdog, wdogWord_eq_fields]
  refine ⟨rfl, fun a => ?_⟩
  change ((s.setFld A.RST_WDOG F.RST_WDOG_TIMEOUT n.toNat).setReg A.RST_WDOG (wdogWord n)).reg a =
    (s.setReg A.RST_WDOG (wdogWord n)).reg a
  by_cases e : a = A.RST_WDOG
  · rw [e, State.reg_setReg, State.reg_setReg]
  · rw [State.reg_setReg_of_ne _ _ e, State.reg_setReg_of_ne _ _ e, State.setFld, State.reg_setReg_of_ne _ _ e]

/-- A write of TIMEOUT 0 with EN is refused, as often as a reason for it is found. -/
theorem like_wdogWrite_zero {s : State} (htimeout : s.fld A.RST_WDOG F.RST_WDOG_TIMEOUT = 0) :
    (rejectBoot (wdogWrite true 0 s)).like (rejectBoot s) := by
  have hagain : (rejectBoot (rejectBoot s)).like (rejectBoot s) := State.like_setBit_setBit s _ _
  have hfld : (rejectBoot s).fld A.RST_WDOG F.RST_WDOG_TIMEOUT = 0 := by
    rw [rejectBoot, State.setBit, State.fld_setFld_of_ne _ _ _ _ (by decide), htimeout]
  unfold wdogWrite
  simp only [if_true, hfld]
  split
  · exact (State.like_refuse hagain A.RST_WDOG).trans hagain
  · exact hagain

theorem regDefAt_wdogKick :
    regDefAt A.RST_WDOG_KICK = some ⟨A.RST_WDOG_KICK, [], 0x0, [⟨15, 0, .wo, 0, 0xFFFF, none⟩]⟩ := by decide

theorem commandWrite_wdogKick {s : State} {who : Requester} (hmay : s.mayWrite who = true) :
    commandWrite who A.RST_WDOG_KICK 0x5A3C s = wdogKick s := by
  rw [commandWrite, if_pos hmay, writeReg_of_commands (by decide) regDefAt_wdogKick (by decide), writeSupply,
    if_neg (by decide), if_neg (by decide), if_pos rfl, if_pos (by decide)]

/-! ### BOOT.CTRL (R91, R92, R95) -/

/-- The row of BOOT.CTRL. -/
def bootRow : RegDef := ⟨A.BOOT_CTRL, [], 0x0, [⟨16, 16, .w1s, 0, 1, none⟩, ⟨15, 0, .w1s, 0, 0xFFFF, none⟩]⟩

theorem regDefAt_bootCtrl : regDefAt A.BOOT_CTRL = some bootRow := by decide

theorem commandField_bootCtrl {s : State} {who : Requester} (hmay : s.mayWrite who = true) (f : Fld) (v : Nat) :
    commandField who A.BOOT_CTRL f v s =
      (let w := fieldBits f v
      coreStart (w.setWidth 16) (if w.getLsbD 16 then outputRelease (byUser who) s else s)) := by
  have hbase (x : Word) : x &&& bootRow.mask .rw ||| x &&& bootRow.mask .pt = 0 := by
    rw [show bootRow.mask .rw = 0 by decide, show bootRow.mask .pt = 0 by decide]
    simp
  have hput : putField 0 f v = fieldBits f v := by simp [putField]
  rw [commandField, if_pos hmay, writeField, regDefAt_bootCtrl]
  dsimp only
  rw [hbase, hput, writeReg_of_commands (by decide) regDefAt_bootCtrl (by decide), writeSupply, if_neg (by decide),
    if_neg (by decide), if_neg (by decide), if_pos rfl]

theorem coreStart_zero (s : State) : coreStart 0 s = s := List.foldl_fixed' (fun c => by simp) _

theorem commandField_release {s : State} {who : Requester} (hmay : s.mayWrite who = true) :
    commandField who A.BOOT_CTRL F.BOOT_CTRL_RELEASE 1 s = outputRelease (byUser who) s :=
  (commandField_bootCtrl hmay _ _).trans (coreStart_zero _)

/-- A sweep in which only step `c` does anything. -/
theorem foldl_range_single {α : Type} {f : α → Nat → α} {c n : Nat} (hc : c < n) (h : ∀ x i, i ≠ c → f x i = x) (x : α) :
    (List.range n).foldl f x = f x c := by
  have hskip : ∀ l : List Nat, c ∉ l → ∀ y, l.foldl f y = y := by
    intro l
    induction l with
    | nil => exact fun _ _ => rfl
    | cons i l ih =>
      intro hl y
      rw [List.mem_cons, not_or] at hl
      rw [List.foldl_cons, h y i (Ne.symm hl.1), ih hl.2]
  obtain ⟨before, after, hsplit⟩ := List.append_of_mem (List.mem_range.mpr hc)
  have hnodup := List.nodup_range (n := n)
  rw [hsplit, List.nodup_middle, List.nodup_cons, List.mem_append, not_or] at hnodup
  rw [hsplit, List.foldl_append, hskip before hnodup.1.1, List.foldl_cons, hskip after hnodup.1.2]

theorem coreStart_single (c : Fin 16) (s : State) :
    coreStart (BitVec.ofNat 16 (2 ^ c.val)) s = if s.startRefused c then rejectBoot s
      else startCore c (s.putFieldBit A.BOOT_CTRL F.BOOT_CTRL_CORE_START c true) := by
  have hbit (i : Nat) : (BitVec.ofNat 16 (2 ^ c.val)).getLsbD i = decide (i = c.val) := by
    have hc := c.isLt
    rw [BitVec.getLsbD_ofNat, Nat.testBit_two_pow, Bool.eq_iff_iff, Bool.and_eq_true]
    simp only [decide_eq_true_eq]
    omega
  rw [coreStart, foldl_range_single c.isLt fun x i hi => by rw [hbit, decide_eq_false hi]; rfl]
  rw [hbit, decide_eq_true rfl, if_pos rfl]

theorem commandField_coreStart {s : State} {who : Requester} (hmay : s.mayWrite who = true) (cores : BitVec 16) :
    commandField who A.BOOT_CTRL F.BOOT_CTRL_CORE_START cores.toNat s = coreStart cores s := by
  have hbits : fieldBits F.BOOT_CTRL_CORE_START cores.toNat = cores.setWidth 32 := fieldBits_low cores
  have hrelease : (cores.setWidth 32).getLsbD 16 = false := by simp
  have hcores : (cores.setWidth 32).setWidth 16 = cores := by simp
  rw [commandField_bootCtrl hmay]
  dsimp only
  rw [hbits, hrelease, hcores, if_neg Bool.false_ne_true]

/-- A core that has not started starts at START_PC, and with it the checker of a locked pair. -/
theorem startCore_bootCtrl {s : State} {c : Nat} (hstarted : (s.core c).started = false) :
    startCore c (s.putFieldBit A.BOOT_CTRL F.BOOT_CTRL_CORE_START c true) =
      (let one := (s.setFld A.BOOT_CTRL F.BOOT_CTRL_CORE_START (s.fld A.BOOT_CTRL F.BOOT_CTRL_CORE_START ||| 2 ^ c)).setCore c
        ((s.core c).startAt (s.reg A.BOOT_START_PC))
      if s.pairLocked (c / 2) then one.setCore (c + 1) ((s.core (c + 1)).startAt (s.reg A.BOOT_START_PC)) else one) := by
  rw [State.putFieldBit_true]
  generalize hv : s.fld A.BOOT_CTRL F.BOOT_CTRL_CORE_START ||| 2 ^ c = v
  have hpc : (s.setFld A.BOOT_CTRL F.BOOT_CTRL_CORE_START v).reg A.BOOT_START_PC = s.reg A.BOOT_START_PC :=
    State.reg_setReg_of_ne _ _ (by decide)
  have hcore : (s.setFld A.BOOT_CTRL F.BOOT_CTRL_CORE_START v).core = s.core := rfl
  rw [startCore, hcore, if_neg (by simp [hstarted]), hpc]
  dsimp only
  rw [core_setCore_of_ne _ _ (Nat.succ_ne_self c), hcore]
  rfl

/-! ### What Quench leaves as it latches -/

/-- `t` has the cores and the queue of `s`, is released where `s` is, and has Quench armed where `s` has. -/
def State.KeepsRelease (s t : State) : Prop :=
  t.cores = s.cores ∧ t.pending = s.pending ∧ (s.released = true → t.released = true) ∧
    (s.bit A.QUENCH_STATUS F.QUENCH_STATUS_ARMED = true → t.bit A.QUENCH_STATUS F.QUENCH_STATUS_ARMED = true)

/-! The registers that a trip changes lie beyond QUENCH.STATUS. -/

theorem quenchStatus_lt_cause (g : Nat) : A.QUENCH_STATUS < A.QUENCH_CAUSE g := Nat.lt_add_right _ (by decide)
theorem quenchStatus_lt_time (g : Nat) : A.QUENCH_STATUS < A.QUENCH_TIME g := Nat.lt_add_right _ (by decide)
theorem quenchStatus_lt_tcStatus (n : Nat) : A.QUENCH_STATUS < A.TC_STATUS n := Nat.lt_add_right _ (by decide)
theorem quenchStatus_lt_stall (n : Nat) : A.QUENCH_STATUS < A.TC_STALL n := Nat.lt_add_right _ (by decide)
theorem quenchStatus_lt_hwm (n : Nat) : A.QUENCH_STATUS < A.TC_HWM n := Nat.lt_add_right _ (by decide)
theorem quenchStatus_lt_pgStatus (g : Nat) : A.QUENCH_STATUS < A.PG_STATUS g := Nat.lt_add_right _ (by decide)

namespace State.KeepsRelease

theorem refl (s : State) : s.KeepsRelease s := ⟨rfl, rfl, id, id⟩

variable {s t : State} (h : s.KeepsRelease t)
include h

theorem trans {u : State} (h' : t.KeepsRelease u) : s.KeepsRelease u := by
  obtain ⟨hcores, hpending, hreleased, harmed⟩ := h
  obtain ⟨hcores', hpending', hreleased', harmed'⟩ := h'
  exact ⟨hcores'.trans hcores, hpending'.trans hpending, hreleased' ∘ hreleased, harmed' ∘ harmed⟩

/-- Nothing else of the state matters. -/
theorem congr {u : State} (hregs : u.regs = t.regs) (hcores : u.cores = t.cores) (hpending : u.pending = t.pending) :
    s.KeepsRelease u := by
  have hbit (a : Nat) (f : Fld) : u.bit a f = t.bit a f := by
    unfold State.bit State.fld State.reg
    rw [hregs]
  exact h.trans ⟨hcores, hpending, fun hr => (hbit _ _).trans hr, fun hr => (hbit _ _).trans hr⟩

theorem ite {u : State} (hu : s.KeepsRelease u) (c : Prop) [Decidable c] : s.KeepsRelease (if c then t else u) := by
  split
  · exact h
  · exact hu

/-- The registers beyond QUENCH.STATUS say nothing of release or arming. -/
theorem setReg {a : Nat} (ha : A.QUENCH_STATUS < a) (w : Word) : s.KeepsRelease (t.setReg a w) := by
  have hboot : A.BOOT_STATUS ≠ a := (Nat.lt_trans (by decide) ha).ne
  refine h.trans ⟨rfl, rfl, fun hr => ?_, fun hr => ?_⟩
  · rw [State.released, State.bit, State.fld_setReg_of_ne _ _ _ hboot]
    exact hr
  · rw [State.bit, State.fld_setReg_of_ne _ _ _ ha.ne]
    exact hr

theorem setBitIf {a : Nat} (ha : A.QUENCH_STATUS < a) (b : Bool) (f : Fld) : s.KeepsRelease (t.setBitIf b a f) := by
  cases b
  · exact h
  · exact h.setReg ha _

theorem countEvents {a fullAt : Nat} (ha : A.QUENCH_STATUS < a) (hfull : A.QUENCH_STATUS < fullAt) (k : Nat) (full : Fld) :
    s.KeepsRelease (t.countEvents a k fullAt full) := by
  unfold State.countEvents
  split
  · exact h
  · exact (h.setReg ha _).setBitIf hfull _ _

theorem sweep {β : Type} {f : State → β → State} (l : List β) (hf : ∀ u b, s.KeepsRelease u → s.KeepsRelease (f u b)) :
    s.KeepsRelease (l.foldl f t) := by
  induction l generalizing t with
  | nil => exact h
  | cons b l ih => exact ih (hf t b h)

theorem auditChannel (n : Nat) : s.KeepsRelease (t.auditChannel n) := by
  have hrun : A.QUENCH_STATUS < A.RUN_STATUS := by decide
  have halarm {u : State} (hu : s.KeepsRelease u) : s.KeepsRelease (u.setBit A.RUN_STATUS F.RUN_STATUS_CONS_FAULT).raiseAlarm :=
    (hu.setReg hrun _).congr rfl rfl rfl
  have hbalance : s.KeepsRelease (if t.channelBalanced n then t
      else ((t.setBit (A.TC_STATUS n) F.TC_STATUS_CONS_FAULT).setBit A.RUN_STATUS F.RUN_STATUS_CONS_FAULT).raiseAlarm) :=
    h.ite (halarm (h.setReg (quenchStatus_lt_tcStatus n) _)) _
  exact hbalance.ite (halarm hbalance) _

theorem creditBack (n : Nat) : s.KeepsRelease (creditBack n t) := by
  unfold Machine.creditBack
  dsimp only
  split
  · exact h
  · refine ite ?_ h _
    exact congr (h.countEvents (quenchStatus_lt_stall n) (quenchStatus_lt_tcStatus n) _ _) rfl rfl rfl

theorem leaveTokens (n : Nat) (queue : List Token) (gone : List (Bool × Bool)) : s.KeepsRelease (t.leaveTokens n queue gone) := by
  have hback : s.KeepsRelease (t.doIf (gone.any (fun g => !g.2)) (Machine.creditBack n)) := ite (h.creditBack n) h _
  unfold State.leaveTokens
  refine setBitIf ?_ (quenchStatus_lt_tcStatus n) _ _
  exact congr hback rfl rfl rfl

theorem settle (n : Nat) : s.KeepsRelease (t.settle n) := by
  unfold State.settle
  exact auditChannel (h.leaveTokens n _ _) n

theorem issueToken (n : Nat) (payload : Payload) (riser remote : Bool) : s.KeepsRelease (t.issueToken n payload riser remote) := by
  have hmark : s.KeepsRelease (t.noteHwm n ((t.chan n).inflight + 1)) := ite (h.setReg (quenchStatus_lt_hwm n) _) h _
  unfold State.issueToken
  refine ite ?returned ?queued _
  case returned =>
    refine auditChannel (setBitIf ?_ (quenchStatus_lt_tcStatus n) _ _) n
    exact congr hmark rfl rfl rfl
  case queued =>
    refine settle (setBitIf ?_ (quenchStatus_lt_tcStatus n) _ _) n
    exact congr hmark rfl rfl rfl

theorem issueNotice (g : Nat) (payload : Payload) : s.KeepsRelease (issueNotice g payload t) := by
  unfold Machine.issueNotice
  split
  · exact h
  · split
    · exact h.issueToken _ _ _ _
    · exact h.setReg (by decide) _

theorem putOut (o : Nat) (x : OutState) : s.KeepsRelease (t.putOut o x) := by
  have hout : s.KeepsRelease (t.setOut o x) := congr h rfl rfl rfl
  unfold State.putOut
  refine ite (hout.setBitIf (quenchStatus_lt_pgStatus _) _ _) ?_ _
  exact congr ((hout.setBitIf (quenchStatus_lt_pgStatus _) _ _).setReg (quenchStatus_lt_pgStatus _) _) rfl rfl rfl

theorem tripOutputs (g r : Nat) : s.KeepsRelease (tripOutputs g r t) :=
  h.sweep _ fun _ o hu => ite (ite hu (hu.putOut o _) _) hu _

/-- NEW stands beside ARMED. -/
theorem setNew : s.KeepsRelease (t.setBit A.QUENCH_STATUS F.QUENCH_STATUS_NEW) := by
  refine h.trans ⟨rfl, rfl, fun hr => ?_, fun hr => ?_⟩
  · rw [State.released, State.setBit, State.bit_setFld_of_ne _ _ _ _ (by decide)]
    exact hr
  · rw [State.bit, State.setBit, State.fld_setFld_of_apart (by decide) (by decide) (by decide)]
    exact hr

theorem groupLatch (g cause : Nat) : s.KeepsRelease (groupLatch g cause t) := by
  unfold Machine.groupLatch
  refine ite (issueNotice ?trip g _) ?trip _
  refine tripOutputs (setBitIf (setNew ?_) (quenchStatus_lt_cause g) _ _) g _
  exact setReg (setReg h (quenchStatus_lt_cause g) _) (quenchStatus_lt_time g) _

theorem groupCombine (g : Nat) : s.KeepsRelease (groupCombine g t) := by
  unfold Machine.groupCombine
  split
  · exact h.setBitIf (quenchStatus_lt_cause g) _ _
  · split
    · exact h.groupLatch g _
    · exact h

theorem tapSettle : s.KeepsRelease (tapSettle t) := by
  unfold Machine.tapSettle
  split
  · exact h
  · split <;> exact h

end State.KeepsRelease

/-! ### Output release (R92) -/

/-- What output release makes of an output: one that is enabled waits at Z, and one of a disabled group goes safe. -/
def State.releasedOut (s : State) (o : Nat) (x : OutState) : OutState :=
  if !s.pgOutEn (o / 4) (o % 4) ∨ x.mode ≠ .hiZ then x
  else if s.pgDisabled (o / 4) then { x with mode := .stopped }.toSafe (s.safeOf o)
  else { x with mode := .await }

/-- One step of output release. -/
def releaseOutput (s : State) (o : Nat) : State :=
  if !s.pgOutEn (o / 4) (o % 4) ∨ (s.out o).mode ≠ .hiZ then s
  else if s.pgDisabled (o / 4) then s.setOut o ({ s.out o with mode := .stopped }.toSafe (s.safeOf o))
  else s.setOut o { s.out o with mode := .await }

theorem releaseOutputs_eq (s : State) : releaseOutputs s = (List.range 192).foldl releaseOutput s := rfl

theorem outStep_releaseOutput : OutStep releaseOutput State.releasedOut := by
  refine ⟨fun s o => ?rest, fun s o => ?self, fun s o p hne => ?other, fun _ _ _ _ => rfl⟩
  case rest =>
    unfold releaseOutput
    split
    · exact ⟨s.outs, rfl⟩
    · split <;> exact ⟨_, rfl⟩
  case self =>
    unfold releaseOutput State.releasedOut
    split
    · rfl
    · split <;> exact State.out_setOut _ _ _
  case other =>
    unfold releaseOutput
    split
    · rfl
    · split <;> exact State.out_setOut_of_ne _ _ hne

/-- A register whose changes move no request: those of boot, QUENCH.STATUS and the trip groups' CAUSE. -/
def apartFromRequests (a : Nat) : Prop :=
  a < 0x80010000 ∨ a = A.QUENCH_STATUS ∨ A.QUENCH_CAUSE 0 ≤ a ∧ a < A.QUENCH_CAUSE 16

theorem not_apartFromRequests {a : Nat} (hfrom : 0x80010000 ≤ a) (hstatus : a ≠ A.QUENCH_STATUS)
    (hcause : a < 0x80031400 ∨ 0x80031480 ≤ a) : ¬ apartFromRequests a := by
  rintro (h | h | ⟨hlo, hhi⟩)
  · omega
  · exact hstatus h
  · change 0x80031400 ≤ a at hlo
    change a < 0x80031480 at hhi
    omega

theorem not_apartFromRequests_beyond {base : Nat} (h : 0x80031480 ≤ base) (k : Nat) : ¬ apartFromRequests (base + k) :=
  not_apartFromRequests (by omega) (by change base + k ≠ 0x80031008; omega) (by omega)

theorem apartFromRequests_cause {g : Nat} (hg : g < 16) : apartFromRequests (A.QUENCH_CAUSE g) :=
  .inr (.inr ⟨show 0x80031400 + 8 * 0 ≤ 0x80031400 + 8 * g by omega, show 0x80031400 + 8 * g < 0x80031400 + 8 * 16 by omega⟩)

/-- What the requests and the groups' choice of them rest on is in `t` as in `s`. -/
def State.SameRequests (s t : State) : Prop :=
  t.wcs = s.wcs ∧ t.pairFault = s.pairFault ∧ t.alarm = s.alarm ∧ t.coreHalted = s.coreHalted ∧
    ∀ a, ¬ apartFromRequests a → t.reg a = s.reg a

theorem State.SameRequests.refl (s : State) : s.SameRequests s := ⟨rfl, rfl, rfl, rfl, fun _ _ => rfl⟩

theorem State.SameRequests.setReg {s t : State} (h : s.SameRequests t) {a : Nat} (ha : apartFromRequests a) (w : Word) :
    s.SameRequests (t.setReg a w) := by
  obtain ⟨hwcs, hpair, halarm, hhalted, hreg⟩ := h
  refine ⟨hwcs, hpair, halarm, hhalted, fun b hb => ?_⟩
  rw [State.reg_setReg_of_ne _ _ fun e => hb (by rw [e]; exact ha)]
  exact hreg b hb

/-- The same requests give a group the same cause. -/
theorem State.SameRequests.groupCause {s t : State} (h : s.SameRequests t) {g : Nat} (hg : g < 16) :
    t.groupCause g = s.groupCause g := by
  obtain ⟨hwcs, hpair, halarm, hhalted, hreg⟩ := h
  have hbit {a : Nat} (ha : ¬ apartFromRequests a) (f : Fld) : t.bit a f = s.bit a f := by
    rw [State.bit, State.fld, hreg a ha]
    rfl
  have hlaw (i : Nat) : t.bit (A.LE_STATUS i) F.LE_STATUS_LIMIT = s.bit (A.LE_STATUS i) F.LE_STATUS_LIMIT :=
    hbit (not_apartFromRequests_beyond (by decide) _) _
  have hsw : t.bit A.QUENCH_CTRL F.QUENCH_CTRL_SW_REQ = s.bit A.QUENCH_CTRL F.QUENCH_CTRL_SW_REQ :=
    hbit (not_apartFromRequests (by decide) (by decide) (.inl (by decide))) _
  have htw (p : Nat) : t.twAlarm p = s.twAlarm p := by
    have hctrl : ¬ apartFromRequests (A.TW_CTRL p) := not_apartFromRequests_beyond (by decide) _
    have hstatus : ¬ apartFromRequests (A.TW_STATUS p) := not_apartFromRequests_beyond (by decide) _
    have hsys : ¬ apartFromRequests A.TW_SYS_STATUS := not_apartFromRequests_beyond (k := 0) (by decide)
    simp only [State.twAlarm, State.fld, hreg _ hctrl, hbit hstatus, hbit hsys]
  have hheld {n : Nat} (hn : n < 96) : t.wcHeld n = s.wcHeld n := by
    have hwindow {base : Nat} (hfrom : 0x80030000 ≤ base) (hto : base < 0x80030010) : ¬ apartFromRequests (base + 0x10 * n) :=
      not_apartFromRequests (by omega) (by change _ ≠ 0x80031008; omega) (.inl (by omega))
    have hctrl : ¬ apartFromRequests (A.WC_CTRL n) := hwindow (by decide) (by decide)
    have hstatus : ¬ apartFromRequests (A.WC_STATUS n) := hwindow (by decide) (by decide)
    simp only [State.wcHeld, hbit hctrl, hbit hstatus]
  have hwc : t.wc = s.wc := by unfold State.wc; rw [hwcs]
  refine List.find?_congr fun i hi => ?_
  have hi : i < 160 := List.mem_range.mp hi
  have htakes : t.takes g i = s.takes g i := by
    have hin : ¬ apartFromRequests (A.QUENCH_IN g (i / 32)) := by
      change ¬ apartFromRequests (0x80031100 + 0x20 * g + 0x4 * (i / 32))
      exact not_apartFromRequests (by omega) (by change _ ≠ 0x80031008; omega) (.inl (by omega))
    rw [State.takes, hreg _ hin]
    rfl
  have hrequest : t.requestUnblanked i = s.requestUnblanked i := by
    by_cases hlow : i < 64
    · have hcomparator : ¬ (64 ≤ i ∧ i < 160) := by omega
      simp only [State.requestUnblanked, State.requestRaised, hlow, hcomparator, hlaw, hpair, htw, halarm, hsw, hhalted, if_true,
        if_false]
    · simp only [State.requestUnblanked, hlow, hheld (show i - 64 < 96 by omega), hwc, if_false]
  rw [htakes, hrequest]

/-- A group with no cause does not latch, and its outputs stay. -/
theorem groupCombine_of_no_cause {s t : State} (h : s.SameRequests t) {g : Nat} (hg : g < 16) (hnone : s.groupCause g = none) :
    s.SameRequests (groupCombine g t) ∧ (groupCombine g t).outs = t.outs := by
  unfold groupCombine
  rw [h.groupCause hg, hnone]
  split
  · unfold State.setBitIf
    split
    · exact ⟨h.setReg (apartFromRequests_cause hg) _, rfl⟩
    · exact ⟨h, rfl⟩
  · exact ⟨h, rfl⟩

theorem quenchArm_outs_of_no_cause {s t : State} (h : s.SameRequests t) (hnone : ∀ g < 16, s.groupCause g = none) :
    (quenchArm t).outs = t.outs := by
  have fold : ∀ (l : List Nat) (u : State), (∀ g ∈ l, g < 16) → s.SameRequests u →
      (l.foldl (fun s g => groupCombine g s) u).outs = u.outs := by
    intro l
    induction l with
    | nil => exact fun _ _ _ => rfl
    | cons g l ih =>
      intro u hl hu
      obtain ⟨hsame, houts⟩ := groupCombine_of_no_cause hu (hl g List.mem_cons_self) (hnone g (hl g List.mem_cons_self))
      rw [List.foldl_cons, ih _ (fun k hk => hl k (List.mem_cons_of_mem _ hk)) hsame, houts]
  have harmed : s.SameRequests (t.setBit A.QUENCH_STATUS F.QUENCH_STATUS_ARMED) := h.setReg (.inr (.inl rfl)) _
  rw [quenchArm, fold _ _ (fun g hg => List.mem_range.mp hg) harmed]
  rfl

theorem tapSettle_outs (s : State) : (tapSettle s).outs = s.outs := by
  unfold tapSettle
  split
  · rfl
  · split <;> rfl

/-- The state that output release has marked, before its outputs move. -/
def State.releaseMarked (s : State) : State :=
  (s.setBit A.BOOT_STATUS F.BOOT_STATUS_RELEASED).setBit A.BOOT_CTRL F.BOOT_CTRL_RELEASE

theorem outputRelease_of_allowed {s : State} (hreleased : s.released = false) (hblocked : s.releaseBlocked = false) :
    outputRelease false s = tapSettle (quenchArm (releaseOutputs s.releaseMarked)) := by
  unfold outputRelease
  simp only [hreleased, hblocked, Bool.false_eq_true, if_false]
  rfl

theorem outputRelease_of_refused {user : Bool} {s : State}
    (h : user = true ∨ s.released = false ∧ s.bit A.BOOT_STATUS F.BOOT_STATUS_RECOVERY = true) :
    outputRelease user s = rejectBoot s := by
  cases user
  · obtain ⟨hreleased, hrecovery⟩ := h.resolve_left Bool.false_ne_true
    have hblocked : s.releaseBlocked = true := by rw [State.releaseBlocked, hrecovery]; rfl
    unfold outputRelease
    rw [if_neg Bool.false_ne_true, hreleased, if_neg Bool.false_ne_true, if_pos hblocked]
  · rfl

/-- Output release leaves the device released and Quench armed, and neither cores nor queue change. -/
theorem outputRelease_released (s : State) :
    let t := tapSettle (quenchArm (releaseOutputs s.releaseMarked))
    t.released = true ∧ t.bit A.QUENCH_STATUS F.QUENCH_STATUS_ARMED = true ∧ t.cores = s.cores ∧ t.pending = s.pending := by
  obtain ⟨m, hm⟩ := OutStep.sweep_rest outStep_releaseOutput 192 s.releaseMarked
  rw [releaseOutputs_eq, hm]
  have hmarked : s.releaseMarked.released = true := by
    rw [State.released, State.releaseMarked, State.setBit, State.bit_setFld_of_ne _ _ _ _ (by decide)]
    exact State.bit_setBit (by decide) (by decide) s
  have hkeeps : ((s.releaseMarked.withOuts m).setBit A.QUENCH_STATUS F.QUENCH_STATUS_ARMED).KeepsRelease
      (tapSettle (quenchArm (s.releaseMarked.withOuts m))) :=
    ((State.KeepsRelease.refl _).sweep _ fun _ g hu => hu.groupCombine g).tapSettle
  obtain ⟨hcores, hpending, hreleased, harmed⟩ := hkeeps
  have hbefore : ((s.releaseMarked.withOuts m).setBit A.QUENCH_STATUS F.QUENCH_STATUS_ARMED).released = true :=
    (State.bit_setFld_of_ne _ _ _ _ (by decide)).trans hmarked
  exact ⟨hreleased hbefore, harmed (State.bit_setBit (by decide) (by decide) _), hcores, hpending⟩

/-- With no request that a group takes, every enabled output at Z whose group runs or waits is to wait for its boundary. -/
theorem outputRelease_awaits {s : State} (hnone : ∀ g < 16, s.groupCause g = none) {o : Nat} (ho : o < 192)
    (hz : (s.out o).mode = .hiZ) (hen : s.pgOutEn (o / 4) (o % 4) = true) (hrun : s.pgDisabled (o / 4) = false) :
    ((tapSettle (quenchArm (releaseOutputs s.releaseMarked))).out o).mode = .await := by
  have hsame : s.SameRequests s.releaseMarked :=
    ((State.SameRequests.refl s).setReg (.inl (by decide)) _).setReg (.inl (by decide)) _
  obtain ⟨m, hm⟩ := OutStep.sweep_rest outStep_releaseOutput 192 s.releaseMarked
  have hreleased : s.SameRequests (releaseOutputs s.releaseMarked) := by
    rw [releaseOutputs_eq, hm]
    exact hsame
  have hout : (tapSettle (quenchArm (releaseOutputs s.releaseMarked))).out o = (releaseOutputs s.releaseMarked).out o := by
    rw [State.out, tapSettle_outs, quenchArm_outs_of_no_cause hreleased hnone]
    rfl
  obtain ⟨-, -, -, -, hreg⟩ := hsame
  have hcfg : ¬ apartFromRequests (A.PG_CFG (o / 4)) := not_apartFromRequests_beyond (by decide) _
  have hstatus : ¬ apartFromRequests (A.PG_STATUS (o / 4)) := not_apartFromRequests_beyond (by decide) _
  have hen' : s.releaseMarked.pgOutEn (o / 4) (o % 4) = true := by
    rwa [State.pgOutEn, State.fld, hreg _ hcfg]
  have hrun' : s.releaseMarked.pgDisabled (o / 4) = false := by
    rwa [State.pgDisabled, State.bit, State.fld, hreg _ hstatus]
  have hmarked : s.releaseMarked.out o = s.out o := rfl
  rw [hout, releaseOutputs_eq, OutStep.sweep_out outStep_releaseOutput, if_pos ho, hmarked, State.releasedOut, hen', hrun', hz]
  rfl

/-! ### The statement -/

/-- Settles O8: every source ends in one loss of the rails, and each write of the boot registers acts as its row says. -/
theorem resetsAndReleases : Obligations.ResetsAndReleases := by
  unfold Obligations.ResetsAndReleases
  refine ⟨?resets, ?releases⟩
  case resets =>
    intro s who hgood hvin hpower hs hstores hjob hsuspended leaves
    have hrest : s.AtRest := ⟨hstores, hjob, hsuspended⟩
    have hleaves (i : Instr) (x : SupplyState) {w cause : Word} (hrun : exec i s = .next ((s.caused x w).powerLost .discharging))
        (hcause : w &&& definedMask A.RST_CAUSE = cause) (hballs : x.ballsOff = s.supply.ballsOff) : leaves i cause x := by
      rw [← hcause]
      refine ⟨_, hrun, ?frame, resetCause_powerLost hrest x w, fun _ => reg_powerLost hrest x w, lockout_powerLost hrest x w,
        fun _ => out_powerLost_driven hrest x w, fun _ => out_powerLost_held hrest x w, fun _ => out_powerLost_idle hrest x w⟩
      rw [powerLost_caused hrest, ← hballs]
      simp only [State.withOuts, State.bare, State.setFld, State.setReg, State.caused, State.setSupply, SupplyState.unpowered]
    have hsource (i : Instr) (x : SupplyState) (b : Nat) (m : Word) (hrun : exec i s = .next (fullReset b (s.setSupply x)))
        (hm : fieldMask ⟨b, b⟩ = m) (hdef : m &&& 0x7F = m) (hphase : x.phase = .good) (hpresent : x.vin = true)
        (hballs : x.ballsOff = s.supply.ballsOff) : leaves i (s.reg A.RST_CAUSE ||| m) x := by
      rw [fullReset_of_good hphase hpresent, hm] at hrun
      exact hleaves i x hrun (cause_and_definedMask hs hdef) hballs
    refine ⟨?pin, ?thermal, ?reference, ?lock, fun hmay _ => ?soft, fun hen => ?watchdog, fun high => ?loss, ?clamp⟩
    case pin => exact hsource _ _ 1 _ rfl (by decide) (by decide) hgood hvin rfl
    case thermal => exact hsource _ _ 2 _ (congrArg _ (if_pos hvin)) (by decide) (by decide) hgood hvin rfl
    case reference => exact hsource _ _ 3 _ rfl (by decide) (by decide) hgood hvin rfl
    case lock =>
      have hrun : exec (.clockLoss false) s = .next (fullReset 3 s) := congrArg Host.Outcome.next (clockLoss_of_lock hgood hpower)
      exact hsource _ s.supply 3 _ hrun (by decide) (by decide) hgood hvin rfl
    case soft =>
      have hrun : exec (.softReset who) s = .next (fullReset 4 s) := congrArg Host.Outcome.next (commandWrite_softReset hmay)
      exact hsource _ s.supply 4 _ hrun (by decide) (by decide) hgood hvin rfl
    case watchdog =>
      have hrun : exec .wdogExpiry s = .next (fullReset 5 s) := congrArg Host.Outcome.next (wdogExpiry_of_enabled hgood hpower hen)
      exact hsource _ s.supply 5 _ hrun (by decide) (by decide) hgood hvin rfl
    case loss => exact hleaves _ _ (congrArg Host.Outcome.next (vinLoss_of_good hgood hvin high)) (by decide) rfl
    case clamp => exact hleaves _ _ (congrArg Host.Outcome.next (vmidClamp_of_good hgood)) (by decide) rfl
  case releases =>
    intro s who hmay _ hbasic
    have hwdog (n : BitVec 24) : exec (.wdogEnable who n) s = .next (writeReg who A.RST_WDOG (wdogWord n) s) :=
      congrArg Host.Outcome.next (if_pos hmay)
    have hrelease : exec (.release who) s = .next (outputRelease (byUser who) s) :=
      congrArg Host.Outcome.next (commandField_release hmay)
    have hstart (c : Fin 16) : exec (.coreStart who (BitVec.ofNat 16 (2 ^ c.val))) s =
        .next (if s.startRefused c then rejectBoot s
          else startCore c (s.putFieldBit A.BOOT_CTRL F.BOOT_CTRL_CORE_START c true)) :=
      congrArg Host.Outcome.next ((commandField_coreStart hmay _).trans (coreStart_single c s))
    refine ⟨fun n hn hoff => ?enable, fun htimeout => ?enableZero, ?kick, fun huser hreleased hblocked => ?release,
      fun huser hreleased => ?again, fun hrefused => ?refused, fun c hallowed hstopped => ?start, fun c hrefused => ?startRefused⟩
    case enable =>
      refine ⟨_, hwdog n, ?_⟩
      rw [writeReg_wdog_of_ne hbasic hn]
      exact wdogWrite_like hn hoff
    case enableZero =>
      refine ⟨_, hwdog 0, ?_⟩
      rw [writeReg_wdog_zero hbasic htimeout]
      exact like_wdogWrite_zero htimeout
    case kick => exact congrArg Host.Outcome.next (commandWrite_wdogKick hmay)
    case release =>
      rw [huser, outputRelease_of_allowed hreleased hblocked] at hrelease
      obtain ⟨hmarked, harmed, hcores, hpending⟩ := outputRelease_released s
      exact ⟨_, hrelease, hmarked, harmed, hcores, hpending, fun hnone _ => outputRelease_awaits hnone⟩
    case again =>
      rw [hrelease, huser, outputRelease, if_neg Bool.false_ne_true, if_pos hreleased]
    case refused =>
      rw [outputRelease_of_refused hrefused] at hrelease
      exact .of_exec hrelease
    case start =>
      have h := hstart c
      rw [hallowed, if_neg Bool.false_ne_true, startCore_bootCtrl hstopped] at h
      exact .of_exec h
    case startRefused =>
      have h := hstart c
      rw [hrefused, if_pos rfl] at h
      exact .of_exec h

end Sys2Proof.Machine

/-! The proof of the statement about the window comparators: crossings, READY, thresholds and the DAC readback. -/

namespace Sys2Proof.Machine

/-! ### Writes of the comparators' registers -/

/-- A write that no rule refuses, as a whole or in a field, takes effect as it is written. -/
theorem writeReg_of_none_refused {s : State} {who : Requester} {a : Nat} {d : RegDef} {w : Word} (hd : regDefAt a = some d)
    (hwhole : s.refusedWhole who a w = false) (hword : stateWordAt a = none) (hfix : s.fixedReg a = false)
    (hany : d.fields.any (s.fieldRefused a (s.guarded a w) w) = false) : writeReg who a w s = writeEffect who a d w s := by
  simp [writeReg, hd, hwhole, hword, hfix, hany, State.taken_of_none_refused hd hany]

/-- Registers that end below an address, or begin beyond it, do not hold it. -/
theorem place_of_outside {base stride count a : Nat} (hstride : 0 < stride) (h : base + count * stride ≤ a ∨ a < base) :
    place base stride count a = none := by
  refine if_neg fun hin => ?_
  obtain ⟨hbase, -, hcount⟩ := hin
  rw [Nat.div_lt_iff_lt_mul hstride] at hcount
  omega

section
variable {a : Nat} (hlo : 0x80030000 ≤ a) (hhi : a < 0x80031000)
include hlo hhi

theorem place_of_comparators {base stride count : Nat} (hstride : 0 < stride)
    (h : base + count * stride ≤ 0x80030000 ∨ 0x80031000 ≤ base) : place base stride count a = none :=
  place_of_outside hstride (h.imp (·.trans hlo) hhi.trans_le)

theorem stateWordAt_of_comparators : stateWordAt a = none := if_neg fun hin => by omega

theorem refusedWhole_of_comparators (s : State) (who : Requester) (w : Word) : s.refusedWhole who a w = false := by
  have hquench : ¬ (a = A.QUENCH_CTRL ∨ a = A.QUENCH_RELEASE) := by simp only [A.QUENCH_CTRL, A.QUENCH_RELEASE]; omega
  have hassay : ¬ A.ASSAY_CTRL ≤ a := by simp only [A.ASSAY_CTRL]; omega
  have hnode : a ≠ A.TW_NODE := by simp only [A.TW_NODE]; omega
  have hlock : ¬ (A.LOCK_CTRL 0 ≤ a ∧ a < A.LOCK_CTRL 8) := by simp only [A.LOCK_CTRL]; omega
  have hladle : ¬ (A.LD_CTRL 0 ≤ a ∧ a < A.LD_CTRL 8) := by simp only [A.LD_CTRL]; omega
  have hpg : ¬ (A.PG_CTRL 0 ≤ a ∧ a < A.PG_CTRL 48) := by simp only [A.PG_CTRL]; omega
  have hsurvey : ¬ (A.SV_CTRL 0 ≤ a ∧ a < A.SV_CTRL 8) := by simp only [A.SV_CTRL]; omega
  simp only [State.refusedWhole, hquench, hassay, hnode, hlock, hladle, hpg, hsurvey, if_false]

theorem guarded_of_comparators (s : State) (w : Word) : s.guarded a w = 0 := by
  simp (disch := decide) only [State.guarded, place_of_comparators hlo hhi]

theorem forbidden_of_comparators (s : State) (w : Word) : s.forbidden a w = 0 := by
  simp (disch := decide) only [State.forbidden, place_of_comparators hlo hhi]

/-- Off the basic level an RW field of theirs is refused for a reserved encoding alone. -/
theorem fieldRefused_of_comparators {s : State} (hbasic : s.basicAt a = false) {f : FieldDef} (hacc : f.acc ≠ .pt) {w : Word}
    (hlegal : f.legal w = true) : s.fieldRefused a (s.guarded a w) w f = false := by
  unfold State.fieldRefused
  cases h : f.acc
  case pt => exact absurd h hacc
  case rw =>
    have hfree : s.fixedField a f = false := by simp [State.fixedField, h, hbasic]
    simp [hfree, hlegal, guarded_of_comparators hlo hhi, forbidden_of_comparators hlo hhi]
  all_goals rfl

/-- A write of one with fields that software writes freely, each with a legal value, acts as their chapter says. -/
theorem writeReg_of_comparators {d : RegDef} (hd : regDefAt a = some d) {s : State} (hbasic : s.basicAt a = false)
    (hfree : (∃ f ∈ d.fields, f.acc = .rw) ∧ ∀ f ∈ d.fields, f.acc ≠ .pt) {w : Word}
    (hlegal : ∀ f ∈ d.fields, f.legal w = true) (who : Requester) : writeReg who a w s = writeConverters a d w s := by
  obtain ⟨⟨f, hf, hrw⟩, hpt⟩ := hfree
  have hfix : s.fixedReg a = false := by
    simp only [State.fixedReg, hd, List.all_eq_false]
    exact ⟨f, hf, by simp [State.fixedField, hrw, hbasic]⟩
  have hany : d.fields.any (s.fieldRefused a (s.guarded a w) w) = false := by
    rw [List.any_eq_false]
    intro g hg
    simp [fieldRefused_of_comparators hlo hhi hbasic (hpt g hg) (hlegal g hg)]
  rw [writeReg_of_none_refused hd (refusedWhole_of_comparators hlo hhi s who w) (stateWordAt_of_comparators hlo hhi) hfix hany,
    writeEffect, if_neg (by omega), if_pos hhi]

end

/-! ### Thresholds (R149) -/

/-- The row of WC_nn.THR. -/
def thresholdRow : RegDef :=
  ⟨A.WC_THR 0, [(0x10, 96)], 0x7FF0800, [⟨27, 16, .rw, 0, 4095, none⟩, ⟨11, 0, .rw, 0, 4095, none⟩]⟩

theorem regDefAt_threshold : ∀ n : Fin 96, regDefAt (A.WC_THR n) = some thresholdRow := by decide

/-- Every 12-bit code is legal, so only the order of the two codes decides. -/
theorem thresholdRow_legal (w : Word) : ∀ f ∈ thresholdRow.fields, f.legal w = true := by
  have hcode (hi lo : Nat) (h : hi - lo = 11) : FieldDef.legal ⟨hi, lo, .rw, 0, 4095, none⟩ w = true := by
    have hlt := fieldOf_lt w ⟨hi, lo⟩
    simp only [h] at hlt
    simpa [FieldDef.legal] using Nat.le_of_lt_succ hlt
  simp [thresholdRow, hcode]

theorem place_threshold (n : Fin 96) : place (A.WC_THR 0) 0x10 96 (A.WC_THR n) = some n.val := by
  have hn := n.isLt
  have hspan : A.WC_THR n - A.WC_THR 0 = 0x10 * n := by simp only [A.WC_THR]; omega
  rw [place, hspan, if_pos ⟨by simp only [A.WC_THR]; omega, by omega, by omega⟩, Nat.mul_div_cancel_left _ (by decide)]

theorem softwareWrite_threshold {s : State} {n : Fin 96} (h : s.writable (A.WC_THR n)) (v : Word) :
    softwareWrite (A.WC_THR n) v s = thresholdWrite n v s := by
  obtain ⟨hon, hbasic, -⟩ := h
  have hn := n.isLt
  have hlo : 0x80030000 ≤ A.WC_THR n := by simp only [A.WC_THR]; omega
  have hhi : A.WC_THR n < A.WC_RB_SEL := by simp only [A.WC_THR, A.WC_RB_SEL]; omega
  have hwindow : A.WC_THR n < 0x80031000 := hhi.trans (by decide)
  rw [softwareWrite, if_pos hon, writeReg_of_comparators hlo hwindow (regDefAt_threshold n) hbasic (by decide)
    (thresholdRow_legal v), writeConverters, if_neg hhi.ne]
  simp (disch := decide) only [place_of_comparators hlo hwindow, place_threshold]

/-! ### DAC readback (R152) -/

/-- The row of WC.RB_SEL. -/
def readbackRow : RegDef :=
  ⟨A.WC_RB_SEL, [], 0x0, [⟨9, 9, .w1c, 0, 1, none⟩, ⟨8, 8, .ro, 0, 1, none⟩, ⟨7, 7, .rw, 0, 1, none⟩, ⟨6, 0, .rw, 0, 95, none⟩]⟩

theorem regDefAt_readback : regDefAt A.WC_RB_SEL = some readbackRow := by decide

/-- A COMP from 0 to 95 is legal, and so is every value of a flag. -/
theorem readbackRow_legal {w : Word} (hcomp : fieldOf w F.WC_RB_SEL_COMP < 96) : ∀ f ∈ readbackRow.fields, f.legal w = true := by
  have hflag (i : Nat) (p : Access) : FieldDef.legal ⟨i, i, p, 0, 1, none⟩ w = true := by
    have hlt := fieldOf_lt w ⟨i, i⟩
    simp only [Nat.sub_self] at hlt
    simpa [FieldDef.legal] using Nat.le_of_lt_succ hlt
  have hselect : FieldDef.legal ⟨6, 0, .rw, 0, 95, none⟩ w = true := by
    have hle : fieldOf w ⟨6, 0⟩ ≤ 95 := Nat.le_of_lt_succ hcomp
    simpa [FieldDef.legal] using hle
  simp [readbackRow, hflag, hselect]

theorem softwareWrite_readback {s : State} (h : s.writable A.WC_RB_SEL) {v : Word} (hcomp : fieldOf v F.WC_RB_SEL_COMP < 96) :
    softwareWrite A.WC_RB_SEL v s = rbSelWrite v s := by
  obtain ⟨hon, hbasic, -⟩ := h
  rw [softwareWrite, if_pos hon, writeReg_of_comparators (by decide) (by decide) regDefAt_readback hbasic (by decide)
    (readbackRow_legal hcomp), writeConverters, if_pos rfl]

/-- A flag that is cleared reads 0. -/
theorem State.bit_clrBit {a : Nat} {f : Fld} (hf : f.definedAt a = true) (s : State) : (s.clrBit a f).bit a f = false := by
  rw [State.bit, State.clrBit, State.fld_setFld hf (Nat.two_pow_pos _)]
  rfl

/-- WC.RB_SEL with other selection fields. -/
def State.selecting (s : State) (comp dac : Nat) : State :=
  (s.setFld A.WC_RB_SEL F.WC_RB_SEL_DAC dac).setFld A.WC_RB_SEL F.WC_RB_SEL_COMP comp

section
variable (s : State) {comp dac : Nat}

theorem comp_selecting (hcomp : comp < 96) : (s.selecting comp dac).fld A.WC_RB_SEL F.WC_RB_SEL_COMP = comp :=
  State.fld_setFld (by decide) (hcomp.trans (by decide)) _

theorem dac_selecting (hdac : dac < 2) : (s.selecting comp dac).fld A.WC_RB_SEL F.WC_RB_SEL_DAC = dac := by
  rw [State.selecting, State.fld_setFld_of_apart (by decide) (by decide) (by decide)]
  exact State.fld_setFld (by decide) hdac s

theorem settled_selecting : (s.selecting comp dac).bit A.WC_RB_SEL F.WC_RB_SEL_SETTLED = s.bit A.WC_RB_SEL F.WC_RB_SEL_SETTLED := by
  rw [State.bit, State.selecting, State.fld_setFld_of_apart (by decide) (by decide) (by decide),
    State.fld_setFld_of_apart (by decide) (by decide) (by decide)]
  rfl

theorem reg_selecting_of_ne {a : Nat} (h : a ≠ A.WC_RB_SEL) : (s.selecting comp dac).reg a = s.reg a := by
  rw [State.selecting, State.setFld, State.reg_setReg_of_ne _ _ h, State.setFld, State.reg_setReg_of_ne _ _ h]

/-- A write of WC.RB_SEL that names a comparator and clears no flag stores the selection, and a new one begins to settle. -/
theorem rbSelWrite_eq {v : Word} (hcomp : fieldOf v F.WC_RB_SEL_COMP < 96) (hflag : fieldOf v F.WC_RB_SEL_CFG_REJECT = 0) :
    rbSelWrite v s =
      (let t := s.selecting (fieldOf v F.WC_RB_SEL_COMP) (fieldOf v F.WC_RB_SEL_DAC)
      if fieldOf v F.WC_RB_SEL_COMP = s.fld A.WC_RB_SEL F.WC_RB_SEL_COMP ∧
        fieldOf v F.WC_RB_SEL_DAC = s.fld A.WC_RB_SEL F.WC_RB_SEL_DAC then t
      else { t.clrBit A.WC_RB_SEL F.WC_RB_SEL_SETTLED with rbFrom := some (s.reg A.WC_RB_SEL) }) := by
  have hstored := comp_selecting s (dac := fieldOf v F.WC_RB_SEL_DAC) hcomp
  rw [State.selecting] at hstored
  simp only [rbSelWrite, hflag, hcomp, hstored, State.selecting, zero_ne_one, if_false, if_true]

/-- What a write of WC.RB_SEL leaves in it and beside it (R152). -/
theorem rbSelWrite_effect {v : Word} (hcomp : fieldOf v F.WC_RB_SEL_COMP < 96) (hflag : fieldOf v F.WC_RB_SEL_CFG_REJECT = 0) :
    let t := rbSelWrite v s
    let same := fieldOf v F.WC_RB_SEL_COMP = s.fld A.WC_RB_SEL F.WC_RB_SEL_COMP ∧
      fieldOf v F.WC_RB_SEL_DAC = s.fld A.WC_RB_SEL F.WC_RB_SEL_DAC
    t = { s with regs := t.regs, rbFrom := t.rbFrom } ∧ t.rbFrom = (if same then s.rbFrom else some (s.reg A.WC_RB_SEL)) ∧
      (∀ a, a ≠ A.WC_RB_SEL → t.reg a = s.reg a) ∧ t.fld A.WC_RB_SEL F.WC_RB_SEL_COMP = fieldOf v F.WC_RB_SEL_COMP ∧
      t.fld A.WC_RB_SEL F.WC_RB_SEL_DAC = fieldOf v F.WC_RB_SEL_DAC ∧
      (t.bit A.WC_RB_SEL F.WC_RB_SEL_SETTLED = true ↔ s.bit A.WC_RB_SEL F.WC_RB_SEL_SETTLED = true ∧ same) := by
  intro t same
  have hdac : fieldOf v F.WC_RB_SEL_DAC < 2 := fieldOf_lt v F.WC_RB_SEL_DAC
  have ht : t = _ := rbSelWrite_eq s hcomp hflag
  by_cases hsame : same
  · rw [ht, if_pos hsame, if_pos hsame]
    refine ⟨rfl, rfl, fun a ha => reg_selecting_of_ne s ha, comp_selecting s hcomp, dac_selecting s hdac, ?_⟩
    rw [settled_selecting]
    exact (and_iff_left hsame).symm
  · rw [ht, if_neg hsame, if_neg hsame]
    refine ⟨rfl, rfl, fun a ha => ?frame, ?storesComp, ?storesDac, ?unsettles⟩
    case frame => exact (State.reg_setReg_of_ne _ _ ha).trans (reg_selecting_of_ne s ha)
    case storesComp =>
      exact (State.fld_setFld_of_apart (by decide) (by decide) (by decide) _ _).trans (comp_selecting s hcomp)
    case storesDac =>
      exact (State.fld_setFld_of_apart (by decide) (by decide) (by decide) _ _).trans (dac_selecting s hdac)
    case unsettles =>
      have hclear := State.bit_clrBit (a := A.WC_RB_SEL) (f := F.WC_RB_SEL_SETTLED) (by decide)
        (s.selecting (fieldOf v F.WC_RB_SEL_COMP) (fieldOf v F.WC_RB_SEL_DAC))
      exact iff_of_false (ne_true_of_eq_false hclear) fun h => hsame h.2

end

/-! ### Crossings and READY (R145, R148, R150, R151) -/

theorem comparatorCrossing_of_alive {s : State} (h : s.alive = true) (n : Nat) (above below : Bool) :
    comparatorCrossing n above below s =
      capture n (s.setWc n { s.wc n with above := above && !below, below := below && !above }) := if_pos h

theorem comparatorReady_of_held {s : State} (h : s.alive = true) {n : Nat} (hheld : s.wcHeld n = true) :
    comparatorReady n s = capture n (s.setBit (A.WC_STATUS n) F.WC_STATUS_READY) :=
  if_pos (by rw [h, hheld]; rfl)

/-- Settles O14: a crossing and READY end in one capture, and a write of a comparator's register acts as R149 and R152 say. -/
theorem comparatorsFollowTheirInputs : Obligations.ComparatorsFollowTheirInputs := by
  unfold Obligations.ComparatorsFollowTheirInputs
  intro s n halive captured
  have hcaptured (u : State) : capture n u = captured u := rfl
  refine ⟨fun above below => ?crossing, fun hen hready => ?ready, fun v hw => ?threshold, fun v hw hcomp hflag => ?readback, ?settled⟩
  case crossing => exact congrArg Host.Outcome.next (comparatorCrossing_of_alive halive n above below)
  case ready =>
    have hheld : s.wcHeld n = true := by simp [State.wcHeld, hen, hready]
    exact congrArg Host.Outcome.next (comparatorReady_of_held halive hheld)
  case threshold =>
    have hwrite : exec (.thresholdWrite n v) s = .next (thresholdWrite n v s) :=
      congrArg Host.Outcome.next (softwareWrite_threshold hw v)
    exact ⟨fun hlt => by rw [hwrite, thresholdWrite, if_pos hlt], fun hle => by rw [hwrite, thresholdWrite, if_neg hle.not_gt]⟩
  case readback =>
    exact ⟨_, congrArg Host.Outcome.next (softwareWrite_readback hw hcomp), rbSelWrite_effect s hcomp hflag⟩
  case settled => exact congrArg Host.Outcome.next (if_pos halive)

end Sys2Proof.Machine

/-! The proofs of the statements about the Runner and the Tundish: steps of the queue, tokens, channels, their audit, and heats. -/

namespace Sys2Proof.Machine

/-! ### Heats while a comparator beyond the 96 is listed (R196) -/

/-- A number that no comparator has: its registers would be RUN.STATUS, RUN.CTRL, RUN.HEAT_CFG and RUN.HEAT_NUM. The pause proves
nothing: Lean elaborates the proofs of the text side by side, and all of them at once need more memory than the check gives, so that
those below begin when those above are done. -/
def strayNumber : { k : Nat // 96 ≤ k } :=
  ⟨0x1400, by
    sleep 120000
    decide⟩

/-- Local heats of 1000 rc, the next one due in 1 rc, and a comparator that no device has. -/
def strayComparator : State :=
  { State.reset with
    supply := { SupplyState.reset with phase := .good, committed := true }
    regs := [(A.RUN_STATUS, fieldMask F.RUN_STATUS_HEAT_RUNNING), (A.RUN_HEAT_CFG, fieldBits F.RUN_HEAT_CFG_SRC 1 ||| 1000)]
    wcs := [(strayNumber, { WcState.init with above := true })]
    heatDue := some 1 }

/-- The rise of the stray comparator is counted in HEAT_NUM, and the heat too. -/
theorem heatNum_strayComparator : (heatStart strayComparator).fld A.RUN_HEAT_NUM F.RUN_HEAT_NUM_NUM = 2 := by decide +kernel

/-- Refutes O20, which ranges over states with any comparator listed: in `strayComparator` one heat start counts HEAT_NUM from 0 to 2. -/
theorem not_heatsTimeAndPorts : ¬ Obligations.HeatsTimeAndPorts := by
  unfold Obligations.HeatsTimeAndPorts
  intro h
  obtain ⟨starts, -⟩ := h strayComparator
  obtain ⟨t, hrun, -, -, -, -, hnum, -⟩ := starts (by decide) (by decide) (by decide)
  obtain rfl : heatStart strayComparator = t := Host.Outcome.next.inj hrun
  rw [heatNum_strayComparator] at hnum
  exact absurd hnum (by decide)

/-! ### Steps (R197) -/

theorem step_of_command (c : Instr) (s : State) : step { s with pending := c :: s.pending } = exec c s := rfl

theorem step_of_running {s : State} (hq : s.pending = []) (halive : s.alive = true) :
    step s = .next (drainDelays (s.passTo (s.rc + 1))) := by
  rw [step, hq]
  exact congrArg Host.Outcome.next (if_pos halive)

theorem step_of_stopped {s : State} (hq : s.pending = []) (halive : s.alive = false) : step s = .next s := by
  rw [step, hq]
  exact congrArg Host.Outcome.next (if_neg (by simp [halive]))

/-- Where no comparator, channel or engine is listed, an rc that passes moves the time alone. -/
theorem passTo_succ_of_unlisted {s : State} (hwcs : s.wcs = []) (hchans : s.chans = []) (hlaws : s.laws = []) :
    s.passTo (s.rc + 1) = s.tickRc := by
  have hwaits : s.doIf s.runnerOn (passWaits (s.rc + 1)) = s := by
    simp [State.doIf, passWaits, hchans, hlaws]
  have hbase : s.timeBase + BitVec.ofNat 64 (s.rc + 1 - s.rc) = s.timeBase + 1 := by rw [Nat.add_sub_cancel_left]; rfl
  rw [State.passTo, if_pos (Nat.lt_succ_self _), hwcs, List.map_nil, List.foldl_nil, hwaits, State.advanceTo,
    if_pos (Nat.lt_succ_self _), hbase, State.tickRc]

theorem drainDelays_of_empty {s : State} (h : ∀ p < 8, s.delayed p = []) : drainDelays s = s := by
  have hsweep : ∀ l : List Nat, (∀ p ∈ l, p < 8) → l.foldl (fun s p => drainPair p (s.delayed p) s) s = s := by
    intro l
    induction l with
    | nil => exact fun _ => rfl
    | cons p l ih =>
      intro hl
      rw [List.foldl_cons, h p (hl p List.mem_cons_self)]
      exact ih fun q hq => hl q (List.mem_cons_of_mem p hq)
  exact hsweep _ fun p hp => List.mem_range.mp hp

/-- Settles O1: `step` looks at the queue first, and an rc that passes with nothing listed that counts it moves the time alone. -/
theorem stepRunsTheFrontCommand : Obligations.StepRunsTheFrontCommand := by
  unfold Obligations.StepRunsTheFrontCommand
  intro c s
  refine ⟨step_of_command c s, step_of_running, fun hq halive hwcs hchans hlaws hdelays => ?idle, step_of_stopped⟩
  case idle =>
    have hstep : step s = .next s.tickRc := by
      rw [step_of_running hq halive, passTo_succ_of_unlisted hwcs hchans hlaws, drainDelays_of_empty (by simpa using hdelays)]
    exact ⟨s.tickRc, hstep, rfl, rfl, rfl⟩

/-! ### Writes of the registers of the Runner and the Tundish -/

section
variable {a : Nat} (hlo : 0x80040000 ≤ a) (hhi : a < 0x80050000)
include hlo hhi

theorem place_of_runner {base stride count : Nat} (hstride : 0 < stride)
    (h : base + count * stride ≤ 0x80040000 ∨ 0x80050000 ≤ base) : place base stride count a = none :=
  place_of_outside hstride (h.imp (·.trans hlo) hhi.trans_le)

theorem stateWordAt_of_runner : stateWordAt a = none := if_neg fun hin => by omega

theorem refusedWhole_of_runner (s : State) (who : Requester) (w : Word) : s.refusedWhole who a w = false := by
  have hne (x : Nat) (h : x < 0x80040000 ∨ 0x80050000 ≤ x) : a ≠ x := by omega
  have hbelow (x : Nat) (h : 0x80050000 ≤ x) : ¬ x ≤ a := by omega
  have hout (x y : Nat) (h : y ≤ 0x80040000 ∨ 0x80050000 ≤ x) : ¬ (x ≤ a ∧ a < y) := by omega
  simp (disch := decide) only [State.refusedWhole, hne, hbelow, hout, or_self, false_and, if_false]

theorem writeEffect_of_runner (who : Requester) (d : RegDef) (v : Word) (s : State) :
    writeEffect who a d v s = writeRunner who a d v s := by
  rw [writeEffect, if_neg (by omega), if_neg (by omega), if_neg (by omega), if_neg (by omega), if_pos hhi]

end

/-! ### The starts and stops of an enable bit -/

section
variable {old v : Word} {i : Nat} {on off : State → State}

theorem onEdge_of_same (s : State) : onEdge old old i on off s = s := by
  rw [onEdge, edge, if_pos rfl]

theorem onEdge_of_rise (hold : old.getLsbD i = false) (hv : v.getLsbD i = true) (s : State) : onEdge old v i on off s = on s := by
  rw [onEdge, edge, hold, hv, if_neg Bool.false_ne_true]

theorem onEdge_of_fall (hold : old.getLsbD i = true) (hv : v.getLsbD i = false) (s : State) : onEdge old v i on off s = off s := by
  rw [onEdge, edge, hold, hv, if_neg Bool.false_ne_true.symm]

end

/-! ### States that show the same registers -/

theorem State.like.symm {t u : State} (h : t.like u) : u.like t := by
  obtain ⟨hrest, hreg⟩ := h
  exact ⟨by rw [hrest], fun a => (hreg a).symm⟩

section
variable {t u : State} (h : t.like u)
include h

theorem State.bit_of_like (a : Nat) (f : Fld) : t.bit a f = u.bit a f := by
  obtain ⟨-, hreg⟩ := h
  rw [State.bit, State.fld, hreg, State.bit, State.fld]

theorem State.chan_of_like (n : Nat) : t.chan n = u.chan n := by
  obtain ⟨hrest, -⟩ := h
  rw [hrest]
  rfl

theorem State.like_setFld (a : Nat) (f : Fld) (v : Nat) : (t.setFld a f v).like (u.setFld a f v) := by
  have ⟨_, hreg⟩ := h
  rw [State.setFld, State.setFld, hreg]
  exact State.like_setReg h _ _

theorem State.like_setChan (n : Nat) (c : Channel) : (t.setChan n c).like (u.setChan n c) := by
  obtain ⟨hrest, hreg⟩ := h
  exact ⟨by rw [hrest]; rfl, hreg⟩

end

/-! ### CTRL of a channel (R193, R194) -/

/-- The row of TC_nnn.CTRL. -/
def channelRow : RegDef :=
  ⟨A.TC_CTRL 0, [(0x20, 256)], 0x0, [⟨5, 4, .pt, 0, 3, none⟩, ⟨3, 3, .rw, 0, 1, none⟩, ⟨0, 0, .rw, 0, 1, none⟩]⟩

theorem blockAt_of_tundish {a : Nat} (hlo : 0x80040000 ≤ a) (hhi : a < 0x80042000) : blockAt a = some RegTable.blk_TCn := by
  have hsplit : RegTable.blocks = RegTable.blocks.take 13 ++ RegTable.blk_TCn :: RegTable.blocks.drop 14 := rfl
  have hbefore : ∀ b ∈ RegTable.blocks.take 13, b.base + b.size ≤ 0x80040000 := by decide
  refine List.find?_eq_some_iff_append.mpr ⟨?_, _, _, hsplit, fun b hb => ?_⟩
  · simp [RegTable.blk_TCn, hlo, hhi]
  · have := hbefore b hb
    simp only [Bool.not_eq_true', Bool.and_eq_false_iff, decide_eq_false_iff_not]
    omega

theorem blockAt_channel (n : Fin 256) : blockAt (A.TC_CTRL n) = some RegTable.blk_TCn :=
  blockAt_of_tundish (Nat.le_add_right _ _) (by have := n.isLt; simp only [A.TC_CTRL]; omega)

theorem tundishRow_base : ∀ r ∈ RegTable.blk_TCn.regs, 0x80040000 ≤ r.base ∧ r.base < 0x80040020 := by decide

/-- A row of the Tundish's table is the row of its register of every channel, if it stands at its own place. -/
theorem regDefAt_of_tundishRow {d : RegDef} {k : Nat} (hrow : RegTable.blk_TCn.regs = RegTable.blk_TCn.regs.take k ++
      d :: RegTable.blk_TCn.regs.drop (k + 1))
    (hbefore : ∀ r ∈ RegTable.blk_TCn.regs.take k, r.base < d.base ∧ r.dims = [(0x20, 256)])
    (hdims : d.dims = [(0x20, 256)]) (n : Fin 256) :
    regDefAt (d.base + 0x20 * n) = some d := by
  have hn := n.isLt
  obtain ⟨hlo, hhi⟩ := tundishRow_base d (by rw [hrow]; simp)
  simp only [regDefAt, blockAt_of_tundish (a := d.base + 0x20 * n) (by omega) (by omega)]
  refine List.find?_eq_some_iff_append.mpr ⟨?_, _, _, hrow, fun r hr => ?_⟩
  · simp [RegDef.has, hdims, dimsMatch]
  · obtain ⟨hlt, hdim⟩ := hbefore r hr
    obtain ⟨hge, -⟩ := tundishRow_base r (List.mem_of_mem_take hr)
    have hoff : (d.base + 0x20 * n - r.base) % 0x20 ≠ 0 := by omega
    simp [RegDef.has, hdim, dimsMatch, hoff]

theorem regDefAt_channel (n : Fin 256) : regDefAt (A.TC_CTRL n) = some channelRow :=
  regDefAt_of_tundishRow (d := channelRow) (k := 0) rfl (by decide) rfl n

theorem definedMask_channel (n : Fin 256) : definedMask (A.TC_CTRL n) = channelRow.mask .rw ||| channelRow.mask .pt := by
  rw [definedMask, regDefAt_channel n]
  rfl

theorem place_channel (n : Fin 256) : place (A.TC_CTRL 0) 0x20 256 (A.TC_CTRL n) = some n.val := by
  have hn := n.isLt
  have hspan : A.TC_CTRL n - A.TC_CTRL 0 = 0x20 * n := by simp only [A.TC_CTRL]; omega
  rw [place, hspan, if_pos ⟨by simp only [A.TC_CTRL]; omega, by omega, by omega⟩, Nat.mul_div_cancel_left _ (by decide)]

section
variable {s : State} {n : Fin 256}

/-- CTRL of channel `n` as it stands, but for EN. -/
def State.ctrlWith (s : State) (n : Nat) (en : Bool) : Word := putField (s.reg (A.TC_CTRL n)) F.TC_CTRL_EN (bit01 en)

theorem getLsbD_ctrlWith (s : State) (n : Nat) (en : Bool) {i : Nat} (hi : i < 32) :
    (s.ctrlWith n en).getLsbD i = if i = 0 then en else (s.reg (A.TC_CTRL n)).getLsbD i := by
  have hcover : F.TC_CTRL_EN.covers i = decide (i = 0) := by simp [Fld.covers, F.TC_CTRL_EN]
  rw [State.ctrlWith, getLsbD_putField (by decide) _ _ hi, hcover]
  rcases eq_or_ne i 0 with rfl | h
  · cases en <;> rfl
  · simp [h]

theorem writeField_channel (hs : Regs.reserved s) (who : Requester) (en : Bool) :
    writeField who (A.TC_CTRL n) F.TC_CTRL_EN (bit01 en) s = writeReg who (A.TC_CTRL n) (s.ctrlWith n en) s := by
  have hbase : s.reg (A.TC_CTRL n) &&& channelRow.mask .rw ||| s.reg (A.TC_CTRL n) &&& channelRow.mask .pt = s.reg (A.TC_CTRL n) := by
    rw [← BitVec.and_or_distrib_left, ← definedMask_channel n, reg_and_definedMask hs]
  simp only [writeField, regDefAt_channel n, hbase, State.ctrlWith]

theorem fieldOf_ctrlWith {f : Fld} (hfit : f.fits = true) (hlo : f.lo ≠ 0) (en : Bool) :
    fieldOf (s.ctrlWith n en) f = fieldOf (s.reg (A.TC_CTRL n)) f := by
  obtain ⟨horder, hhi⟩ := Iff.mp Fld.fits_iff hfit
  refine Nat.eq_of_testBit_eq fun i => ?_
  rw [testBit_fieldOf, testBit_fieldOf]
  by_cases hi : i < f.hi - f.lo + 1
  · rw [getLsbD_ctrlWith s n en (by omega), if_neg (by omega)]
  · simp [hi]

theorem runner_channel (n : Fin 256) : 0x80040000 ≤ A.TC_CTRL n ∧ A.TC_CTRL n < 0x80050000 := by
  simp only [A.TC_CTRL]
  omega

theorem guarded_ctrlWith (s : State) (n : Fin 256) (en : Bool) :
    s.guarded (A.TC_CTRL n) (s.ctrlWith n en) = if en && s.testBlocks channelRegions then 1 else 0 := by
  obtain ⟨hlo, hhi⟩ := runner_channel n
  simp (disch := decide) only [State.guarded, place_of_runner hlo hhi, place_channel, getLsbD_ctrlWith, if_true]

theorem forbidden_ctrlWith (s : State) (n : Fin 256) (en : Bool) :
    s.forbidden (A.TC_CTRL n) (s.ctrlWith n en) = if en && decide (s.producerOf n = 0x3FF) then 1 else 0 := by
  obtain ⟨hlo, hhi⟩ := runner_channel n
  simp (disch := decide) only [State.forbidden, place_of_runner hlo hhi, place_channel, getLsbD_ctrlWith, if_true]

/-- Either value of a flag is legal. -/
theorem legal_flag (i : Nat) (p : Access) (w : Word) : FieldDef.legal ⟨i, i, p, 0, 1, none⟩ w = true := by
  have hlt := fieldOf_lt w ⟨i, i⟩
  simp only [Nat.sub_self] at hlt
  simpa [FieldDef.legal] using Nat.le_of_lt_succ hlt

theorem heldAt_channel (s : State) (n : Fin 256) : s.heldAt (A.TC_CTRL n) = s.reg (A.TC_CTRL n) :=
  State.heldAt_of_register (stateWordAt_of_runner (runner_channel n).1 (runner_channel n).2)

/-- The state after a store of the word that stands at `a`. -/
def State.restored (s : State) (a : Nat) : State := s.setReg a (s.reg a)

/-- CTRL keeps every bit but EN, which the block stores itself. -/
theorem storeBut_channel {v : Word} (hv : ∀ i < 32, i ≠ 0 → v.getLsbD i = (s.reg (A.TC_CTRL n)).getLsbD i) :
    storeBut 1 (A.TC_CTRL n) channelRow v s = s.restored (A.TC_CTRL n) := by
  have hword : (v &&& ~~~1) ||| (s.reg (A.TC_CTRL n) &&& 1) = s.reg (A.TC_CTRL n) := by
    apply BitVec.eq_of_getLsbD_eq
    intro i hi
    have hone : (1 : Word).getLsbD i = decide (i = 0) := by simp
    rw [BitVec.getLsbD_or, BitVec.getLsbD_and, BitVec.getLsbD_and, BitVec.getLsbD_not, hone]
    rcases eq_or_ne i 0 with rfl | h
    · simp
    · rw [hv i hi h]
      simp [h, hi]
  have hmerge (w : Word) : channelRow.merge w w = w := by
    have h0 : channelRow.mask .w1c = 0 ∧ channelRow.mask .w1s = 0 := by decide
    obtain ⟨hw1c, hw1s⟩ := h0
    apply BitVec.eq_of_getLsbD_eq
    intro i hi
    simp only [RegDef.merge, hw1c, hw1s, BitVec.getLsbD_or, BitVec.getLsbD_and, BitVec.getLsbD_not, hi]
    cases w.getLsbD i <;> simp
  rw [storeBut, hword, State.storeFields_eq, hmerge, State.restored]

theorem writeEffect_channel (who : Requester) {v : Word} (hv : ∀ i < 32, i ≠ 0 → v.getLsbD i = (s.reg (A.TC_CTRL n)).getLsbD i) :
    writeEffect who (A.TC_CTRL n) channelRow v s = onEdge (s.reg (A.TC_CTRL n)) v 0 (channelEnable n) (channelDisable n)
      (s.restored (A.TC_CTRL n)) := by
  obtain ⟨hlo, hhi⟩ := runner_channel n
  simp only [writeEffect_of_runner hlo hhi, writeRunner, place_channel, storeBut_channel hv]

theorem ctrlWith_beside_en (s : State) (n : Nat) (en : Bool) (i : Nat) (hi : i < 32) (h : i ≠ 0) :
    (s.ctrlWith n en).getLsbD i = (s.reg (A.TC_CTRL n)).getLsbD i := by rw [getLsbD_ctrlWith s n en hi, if_neg h]

/-- EN as it is stored. -/
theorem getLsbD_en (s : State) (n : Nat) : (s.reg (A.TC_CTRL n)).getLsbD 0 = s.bit (A.TC_CTRL n) F.TC_CTRL_EN := by
  have hbit : (s.fld (A.TC_CTRL n) F.TC_CTRL_EN).testBit 0 = (s.reg (A.TC_CTRL n)).getLsbD 0 := testBit_fieldOf _ _ 0
  have hlt : s.fld (A.TC_CTRL n) F.TC_CTRL_EN < 2 := fieldOf_lt _ _
  rw [← hbit, State.bit]
  interval_cases s.fld (A.TC_CTRL n) F.TC_CTRL_EN <;> rfl

theorem refuse_channel (s : State) (n : Fin 256) : s.refuse (A.TC_CTRL n) = s.setBit (A.TC_STATUS n) F.TC_STATUS_CFG_REJECT := by
  have hspan : A.TC_CTRL n - RegTable.blk_TCn.base = 0x20 * n := by simp only [A.TC_CTRL, RegTable.blk_TCn]; omega
  have hstatus : 0x80040014 + (A.TC_CTRL n - RegTable.blk_TCn.base) / 0x20 * 0x20 = A.TC_STATUS n := by
    rw [hspan, A.TC_STATUS]
    omega
  rw [State.refuse, blockAt_channel n, ← hstatus]
  rfl

variable (hbasic : s.basicAt (A.TC_CTRL n) = false)
include hbasic

/-- Off the basic level EN = 0 is never refused, nor EN = 1 where a producer is routed and no test would end (R194, R452). -/
theorem fieldRefused_ctrlWith {en : Bool} {f : FieldDef} (hf : f ∈ channelRow.fields)
    (h : en = true → s.producerOf n ≠ 0x3FF ∧ s.testBlocks channelRegions = false) :
    s.fieldRefused (A.TC_CTRL n) (s.guarded (A.TC_CTRL n) (s.ctrlWith n en)) (s.ctrlWith n en) f = false := by
  have hcases : f = ⟨5, 4, .pt, 0, 3, none⟩ ∨ f = ⟨3, 3, .rw, 0, 1, none⟩ ∨ f = ⟨0, 0, .rw, 0, 1, none⟩ := by
    simpa [channelRow] using hf
  rcases hcases with rfl | rfl | rfl
  · simp [State.fieldRefused, heldAt_channel, fieldOf_ctrlWith (f := ⟨5, 4⟩) (by decide) (by decide)]
  · have hapart : s.forbidden (A.TC_CTRL n) (s.ctrlWith n en) &&& fieldMask ⟨3, 3⟩ = 0 := by
      rw [forbidden_ctrlWith]
      split <;> decide
    simp [State.fieldRefused, State.fixedField, hbasic, legal_flag, heldAt_channel, hapart,
      fieldOf_ctrlWith (f := ⟨3, 3⟩) (by decide) (by decide)]
  · have hguard : (en && s.testBlocks channelRegions) = false := by cases en <;> simp_all
    have hforbidden : (en && decide (s.producerOf n = 0x3FF)) = false := by cases en <;> simp_all
    simp [State.fieldRefused, State.fixedField, hbasic, legal_flag, guarded_ctrlWith, forbidden_ctrlWith, hguard, hforbidden]

/-- EN = 1 is refused where no producer is routed (R194). -/
theorem fieldRefused_unrouted (hunrouted : s.producerOf n = 0x3FF) :
    s.fieldRefused (A.TC_CTRL n) (s.guarded (A.TC_CTRL n) (s.ctrlWith n true)) (s.ctrlWith n true) ⟨0, 0, .rw, 0, 1, none⟩ = true := by
  have hen : s.forbidden (A.TC_CTRL n) (s.ctrlWith n true) &&& fieldMask ⟨0, 0⟩ ≠ 0#32 := by
    rw [forbidden_ctrlWith, hunrouted]
    decide
  simp [State.fieldRefused, State.fixedField, hbasic, hen]

theorem fixedReg_channel : s.fixedReg (A.TC_CTRL n) = false := by
  rw [State.fixedReg, regDefAt_channel n]
  simp [channelRow, State.fixedField, hbasic]

/-- A write of EN alone that nothing refuses starts or stops the channel where it changes EN. -/
theorem writeReg_channel (who : Requester) {en : Bool}
    (h : en = true → s.producerOf n ≠ 0x3FF ∧ s.testBlocks channelRegions = false) :
    writeReg who (A.TC_CTRL n) (s.ctrlWith n en) s = onEdge (s.reg (A.TC_CTRL n)) (s.ctrlWith n en) 0 (channelEnable n)
      (channelDisable n) (s.restored (A.TC_CTRL n)) := by
  obtain ⟨hlo, hhi⟩ := runner_channel n
  have hany : channelRow.fields.any
      (s.fieldRefused (A.TC_CTRL n) (s.guarded (A.TC_CTRL n) (s.ctrlWith n en)) (s.ctrlWith n en)) = false := by
    rw [List.any_eq_false]
    intro f hf
    simp [fieldRefused_ctrlWith hbasic hf h]
  rw [writeReg_of_none_refused (regDefAt_channel n) (refusedWhole_of_runner hlo hhi s who _) (stateWordAt_of_runner hlo hhi)
    (fixedReg_channel hbasic) hany, writeEffect_channel who (ctrlWith_beside_en s n en)]

/-- The word that takes effect of a refused EN = 1 is the one that stands. -/
theorem taken_unrouted (hunrouted : s.producerOf n = 0x3FF) :
    s.taken (A.TC_CTRL n) channelRow (s.guarded (A.TC_CTRL n) (s.ctrlWith n true)) (s.ctrlWith n true) = s.reg (A.TC_CTRL n) := by
  obtain ⟨-, -, -, -, -, hfit, -⟩ := regDefAt_eq_some (regDefAt_channel n)
  apply BitVec.eq_of_getLsbD_eq
  intro i hi
  rw [State.getLsbD_taken _ _ hfit, getLsbD_ctrlWith s n true hi]
  by_cases h : i = 0
  · have hen : channelRow.fields.any (fun f => s.fieldRefused (A.TC_CTRL n) (s.guarded (A.TC_CTRL n) (s.ctrlWith n true))
        (s.ctrlWith n true) f && f.fld.covers i) = true :=
      List.any_eq_true.mpr ⟨⟨0, 0, .rw, 0, 1, none⟩, by simp [channelRow], by
        rw [fieldRefused_unrouted hbasic hunrouted, h]
        rfl⟩
    rw [if_pos hen]
  · rw [if_neg h, ite_self]

theorem writeReg_unrouted (who : Requester) (hunrouted : s.producerOf n = 0x3FF) :
    writeReg who (A.TC_CTRL n) (s.ctrlWith n true) s =
      (s.restored (A.TC_CTRL n)).setBit (A.TC_STATUS n) F.TC_STATUS_CFG_REJECT := by
  obtain ⟨hlo, hhi⟩ := runner_channel n
  have hany : channelRow.fields.any
      (s.fieldRefused (A.TC_CTRL n) (s.guarded (A.TC_CTRL n) (s.ctrlWith n true)) (s.ctrlWith n true)) = true :=
    List.any_eq_true.mpr ⟨_, by simp [channelRow], fieldRefused_unrouted hbasic hunrouted⟩
  simp only [writeReg, regDefAt_channel n, refusedWhole_of_runner hlo hhi, stateWordAt_of_runner hlo hhi, fixedReg_channel hbasic,
    taken_unrouted hbasic hunrouted, hany, writeEffect_channel who (fun _ _ _ => rfl), onEdge_of_same, refuse_channel,
    Bool.false_eq_true, if_false, if_true]

end

/-! ### The commands of a channel (R193, R194) -/

/-- A running channel begins to drain. -/
theorem channelDisable_of_enabled {s : State} {n : Nat} (h : s.bit (A.TC_STATUS n) F.TC_STATUS_DISABLED = false) :
    channelDisable n s = ((s.clrBit (A.TC_CTRL n) F.TC_CTRL_EN).setBit (A.TC_STATUS n) F.TC_STATUS_DISABLE_PENDING).setChan n
      { s.chan n with reenable := false } := if_neg (by simp [h])

section
variable {s : State} {n : Nat} (hrouted : s.fld (A.TC_ROUTE_P n) F.TC_ROUTE_P_PROD ≠ 0x3FF)
include hrouted

theorem channelEnable_of_draining (h : s.bit (A.TC_STATUS n) F.TC_STATUS_DISABLE_PENDING = true) :
    channelEnable n s = (s.setBit (A.TC_CTRL n) F.TC_CTRL_EN).setChan n { s.chan n with reenable := true } := by
  rw [channelEnable, if_neg hrouted, if_pos h]

theorem channelEnable_of_drained (h : s.bit (A.TC_STATUS n) F.TC_STATUS_DISABLE_PENDING = false) :
    channelEnable n s = (s.setBit (A.TC_CTRL n) F.TC_CTRL_EN).clrBit (A.TC_STATUS n) F.TC_STATUS_DISABLED := by
  rw [channelEnable, if_neg hrouted, if_neg (by simp [h])]

end

theorem State.like_channelDisable {t u : State} (h : t.like u) (n : Nat) : (channelDisable n t).like (channelDisable n u) := by
  unfold channelDisable
  rw [State.bit_of_like h, State.chan_of_like h]
  split
  · exact State.like_setFld h _ _ _
  · exact State.like_setChan (State.like_setFld (State.like_setFld h _ _ _) _ _ _) _ _

theorem State.like_channelEnable {t u : State} (h : t.like u) (n : Nat) : (channelEnable n t).like (channelEnable n u) := by
  have hfld : t.fld (A.TC_ROUTE_P n) F.TC_ROUTE_P_PROD = u.fld (A.TC_ROUTE_P n) F.TC_ROUTE_P_PROD := congrArg (fieldOf · _) (h.2 _)
  unfold channelEnable
  rw [hfld, State.bit_of_like h, State.chan_of_like h]
  split
  · exact State.like_setFld h _ _ _
  · split
    · exact State.like_setChan (State.like_setFld h _ _ _) _ _
    · exact State.like_setFld (State.like_setFld h _ _ _) _ _ _

theorem channelDisabled_of_drained {s : State} {n : Nat} (hdraining : s.bit (A.TC_STATUS n) F.TC_STATUS_DISABLE_PENDING = true)
    (hempty : (s.chan n).queue = []) : channelDisabled n s =
      (let u := s.clrBit (A.TC_STATUS n) F.TC_STATUS_DISABLE_PENDING
      if (s.chan n).reenable then u.setChan n { s.chan n with reenable := false }
      else u.setBit (A.TC_STATUS n) F.TC_STATUS_DISABLED) := if_pos (by simp [hdraining, hempty])

section
variable {s : State} {n : Fin 256} (hw : s.writable (A.TC_CTRL n))
include hw

/-- Software writes EN alone: the word keeps every other bit of CTRL. -/
theorem softwareField_channel (en : Bool) : softwareField (A.TC_CTRL n) F.TC_CTRL_EN (bit01 en) s =
    writeReg (.core 0 false) (A.TC_CTRL n) (s.ctrlWith n en) s := by
  obtain ⟨hon, -, hres⟩ := hw
  rw [softwareField, if_pos hon, writeField_channel hres]

theorem like_restored : (s.restored (A.TC_CTRL n)).like s := by
  obtain ⟨-, -, hres⟩ := hw
  exact (State.like_setReg_self hres _).symm

theorem answers_channelDisable (hen : s.bit (A.TC_CTRL n) F.TC_CTRL_EN = true) :
    Answers (.channelDisable n) s (channelDisable n s) := by
  have ⟨_, hbasic, _⟩ := hw
  have hrun : softwareField (A.TC_CTRL n) F.TC_CTRL_EN 0 s = channelDisable n (s.restored (A.TC_CTRL n)) := by
    refine (softwareField_channel hw false).trans ?_
    rw [writeReg_channel hbasic _ (fun h => absurd h Bool.false_ne_true),
      onEdge_of_fall ((getLsbD_en s n).trans hen) (getLsbD_ctrlWith s n false (by decide))]
  exact ⟨_, congrArg Host.Outcome.next hrun, State.like_channelDisable (like_restored hw) n⟩

theorem answers_channelEnable_unrouted (hunrouted : s.producerOf n = 0x3FF) :
    Answers (.channelEnable n) s (s.setBit (A.TC_STATUS n) F.TC_STATUS_CFG_REJECT) := by
  have ⟨_, hbasic, _⟩ := hw
  have hrun := (softwareField_channel hw true).trans (writeReg_unrouted hbasic _ hunrouted)
  exact ⟨_, congrArg Host.Outcome.next hrun, State.like_setFld (like_restored hw) _ _ _⟩

theorem answers_channelEnable (hrouted : s.producerOf n ≠ 0x3FF) (htest : s.testBlocks channelRegions = false)
    (hen : s.bit (A.TC_CTRL n) F.TC_CTRL_EN = false) : Answers (.channelEnable n) s (channelEnable n s) := by
  have ⟨_, hbasic, _⟩ := hw
  have hrun : softwareField (A.TC_CTRL n) F.TC_CTRL_EN 1 s = channelEnable n (s.restored (A.TC_CTRL n)) := by
    refine (softwareField_channel hw true).trans ?_
    rw [writeReg_channel hbasic _ (fun _ => ⟨hrouted, htest⟩),
      onEdge_of_rise ((getLsbD_en s n).trans hen) (getLsbD_ctrlWith s n true (by decide))]
  exact ⟨_, congrArg Host.Outcome.next hrun, State.like_channelEnable (like_restored hw) n⟩

end

/-! ### The audit copy and the high-water marks (R192, R203) -/

theorem mapGet_map {α β : Type} (f : α → β) (d : α) (m : SMap α) (k : Nat) :
    mapGet (fun _ => f d) (m.map (fun p => (p.1, f p.2))) k = f (mapGet (fun _ => d) m k) := by
  induction m with
  | nil => rfl
  | cons p m ih =>
    rw [List.map_cons, mapGet, mapGet]
    split
    · rfl
    · exact ih

theorem auditCopy_auditSnap (s : State) (n : Nat) : (auditSnap s).auditCopy n = (s.chan n).copy :=
  mapGet_map Channel.copy Channel.init s.chans n

/-- A field takes of a value what fits. -/
theorem State.setFld_mod (s : State) (a : Nat) (f : Fld) (v : Nat) :
    s.setFld a f (v % 2 ^ (f.hi - f.lo + 1)) = s.setFld a f v := by
  simp only [State.setFld, putField, fieldBits, Nat.mod_mod]

/-- The row of TC_nnn.HWM. -/
def hwmRow : RegDef := ⟨A.TC_HWM 0, [(0x20, 256)], 0x0, [⟨12, 0, .ro, 0, 8191, none⟩]⟩

theorem regDefAt_hwm (n : Fin 256) : regDefAt (A.TC_HWM n) = some hwmRow :=
  regDefAt_of_tundishRow (d := hwmRow) (k := 7) rfl (by decide) rfl n

theorem definedAt_hwm (n : Fin 256) : F.TC_HWM_HWM.definedAt (A.TC_HWM n) = true := by
  rw [Fld.definedAt, definedMask, regDefAt_hwm n]
  decide

/-- The sweep of HWM_CLR over the first `k` channels. -/
def hwmSweep (k : Nat) (s : State) : State :=
  (List.range k).foldl (fun s n => s.setFld (A.TC_HWM n) F.TC_HWM_HWM (s.chan n).inflight) s

theorem hwmSweep_succ (k : Nat) (s : State) : hwmSweep (k + 1) s =
    (hwmSweep k s).setFld (A.TC_HWM k) F.TC_HWM_HWM ((hwmSweep k s).chan k).inflight := by
  rw [hwmSweep, List.range_succ, List.foldl_append]
  rfl

theorem chans_hwmSweep (k : Nat) (s : State) : (hwmSweep k s).chans = s.chans := by
  induction k with
  | zero => rfl
  | succ k ih => rw [hwmSweep_succ]; exact ih

theorem hwm_hwmSweep {k : Nat} (hk : k ≤ 256) (s : State) {n : Nat} (hn : n < k) :
    (hwmSweep k s).fld (A.TC_HWM n) F.TC_HWM_HWM = (s.chan n).inflight % 2 ^ 13 := by
  induction k with
  | zero => omega
  | succ k ih =>
    rw [hwmSweep_succ]
    by_cases h : n = k
    · subst h
      have hchan : (hwmSweep n s).chan n = s.chan n := by rw [State.chan, chans_hwmSweep, State.chan]
      rw [hchan, ← State.setFld_mod]
      exact State.fld_setFld (definedAt_hwm ⟨n, hk⟩) (Nat.mod_lt _ (Nat.two_pow_pos _)) _
    · have hne : A.TC_HWM n ≠ A.TC_HWM k := by simp only [A.TC_HWM]; omega
      rw [State.fld_setFld_of_ne _ _ _ _ hne]
      exact ih (by omega) (by omega)

/-- The row of RUN.AUDIT_CTRL. -/
def auditRow : RegDef := ⟨A.RUN_AUDIT_CTRL, [], 0x0, [⟨23, 16, .rw, 0, 255, none⟩, ⟨8, 8, .ro, 0, 1, none⟩,
  ⟨1, 1, .wo, 0, 1, none⟩, ⟨0, 0, .wo, 0, 1, none⟩]⟩

theorem regDefAt_audit : regDefAt A.RUN_AUDIT_CTRL = some auditRow := by decide

/-- A write of RUN.AUDIT_CTRL stores SEL, and its two command bits act. -/
theorem writeReg_audit {s : State} (hbasic : s.basicAt A.RUN_AUDIT_CTRL = false) (who : Requester) (w : Word) :
    ∃ v, writeReg who A.RUN_AUDIT_CTRL w s =
      (let t := s.setReg A.RUN_AUDIT_CTRL v
      let t := if w.getLsbD 0 then auditSnap t else t
      if w.getLsbD 1 then hwmClear t else t) := by
  have hlo : 0x80040000 ≤ A.RUN_AUDIT_CTRL := by decide
  have hhi : A.RUN_AUDIT_CTRL < 0x80050000 := by decide
  have hchannel : place (A.TC_CTRL 0) 0x20 256 A.RUN_AUDIT_CTRL = none := by decide
  have hguard : s.guarded A.RUN_AUDIT_CTRL w = 0 := by
    simp (disch := decide) only [State.guarded, place_of_runner hlo hhi, hchannel]
  have hforbidden : s.forbidden A.RUN_AUDIT_CTRL w = 0 := by
    simp (disch := decide) only [State.forbidden, place_of_runner hlo hhi, hchannel]
  have hlegal : FieldDef.legal ⟨23, 16, .rw, 0, 255, none⟩ w = true := by
    simpa [FieldDef.legal] using Nat.le_of_lt_succ (fieldOf_lt w ⟨23, 16⟩)
  have hfix : s.fixedReg A.RUN_AUDIT_CTRL = false := by
    rw [State.fixedReg, regDefAt_audit]
    simp [auditRow, State.fixedField, hbasic]
  have hany : auditRow.fields.any (s.fieldRefused A.RUN_AUDIT_CTRL (s.guarded A.RUN_AUDIT_CTRL w) w) = false := by
    simp [auditRow, State.fieldRefused, State.fixedField, hbasic, hguard, hforbidden, hlegal]
  refine ⟨auditRow.merge (s.reg A.RUN_AUDIT_CTRL) w, ?_⟩
  rw [writeReg_of_none_refused regDefAt_audit (refusedWhole_of_runner hlo hhi s who w) (stateWordAt_of_runner hlo hhi) hfix hany,
    writeEffect_of_runner hlo hhi]
  simp only [writeRunner, hchannel, if_true, State.storeFields_eq]

/-- Software writes 1 to bit `k` of RUN.AUDIT_CTRL: of the two command bits the word sets that one alone. -/
theorem softwareField_audit {s : State} (hw : s.writable A.RUN_AUDIT_CTRL) {k : Nat} (hk : k < 32) :
    ∃ w, softwareField A.RUN_AUDIT_CTRL ⟨k, k⟩ 1 s = writeReg (.core 0 false) A.RUN_AUDIT_CTRL w s ∧
      ∀ i < 2, w.getLsbD i = decide (i = k) := by
  obtain ⟨hon, -, -⟩ := hw
  have hfit : Fld.fits ⟨k, k⟩ = true := Iff.mpr Fld.fits_iff ⟨le_rfl, hk⟩
  refine ⟨putField (s.reg A.RUN_AUDIT_CTRL &&& auditRow.mask .rw ||| s.reg A.RUN_AUDIT_CTRL &&& auditRow.mask .pt) ⟨k, k⟩ 1, ?write,
    fun i hi => ?bits⟩
  case write => rw [softwareField, if_pos hon, writeField, regDefAt_audit]
  case bits =>
    have hkept : ∀ i < 2, (auditRow.mask .rw).getLsbD i = false ∧ (auditRow.mask .pt).getLsbD i = false := by decide
    obtain ⟨hrw, hpt⟩ := hkept i hi
    rw [getLsbD_putField hfit _ _ (by omega), BitVec.getLsbD_or, BitVec.getLsbD_and, BitVec.getLsbD_and, hrw, hpt]
    rcases eq_or_ne i k with rfl | h
    · simp [Fld.covers]
    · have hout : Fld.covers ⟨k, k⟩ i = false := by simp [Fld.covers]; omega
      simp [hout, h]

theorem exec_auditSnap {s : State} (hw : s.writable A.RUN_AUDIT_CTRL) :
    ∃ v, exec .auditSnap s = .next (auditSnap (s.setReg A.RUN_AUDIT_CTRL v)) := by
  obtain ⟨w, hrun, hbits⟩ := softwareField_audit hw (k := 0) (by decide)
  obtain ⟨-, hbasic, -⟩ := hw
  obtain ⟨v, hv⟩ := writeReg_audit hbasic (.core 0 false) w
  refine ⟨v, congrArg Host.Outcome.next (hrun.trans (hv.trans ?_))⟩
  rw [hbits 0 (by decide), hbits 1 (by decide)]
  rfl

theorem exec_hwmClr {s : State} (hw : s.writable A.RUN_AUDIT_CTRL) :
    ∃ v, exec .hwmClr s = .next (hwmSweep 256 (s.setReg A.RUN_AUDIT_CTRL v)) := by
  obtain ⟨w, hrun, hbits⟩ := softwareField_audit hw (k := 1) (by decide)
  obtain ⟨-, hbasic, -⟩ := hw
  obtain ⟨v, hv⟩ := writeReg_audit hbasic (.core 0 false) w
  refine ⟨v, congrArg Host.Outcome.next (hrun.trans (hv.trans ?_))⟩
  rw [hbits 0 (by decide), hbits 1 (by decide)]
  rfl

/-- Settles O19: a write of EN starts or stops the channel where it changes EN, and the command bits of RUN.AUDIT_CTRL act on all. -/
theorem channelsDrainAndAreAudited : Obligations.ChannelsDrainAndAreAudited := by
  unfold Obligations.ChannelsDrainAndAreAudited
  intro s n en disabled draining
  refine ⟨fun hw => ⟨fun hen hdisabled => ?disable, fun hunrouted => answers_channelEnable_unrouted hw hunrouted,
    fun hrouted htest hen => ⟨fun hdraining => ?reenable, fun hdraining => ?enable⟩⟩,
    fun hdraining hempty => ?drained, fun hw => ⟨?snap, ?clear⟩⟩
  case disable =>
    rw [← channelDisable_of_enabled hdisabled]
    exact answers_channelDisable hw hen
  case reenable =>
    rw [← channelEnable_of_draining hrouted hdraining]
    exact answers_channelEnable hw hrouted htest hen
  case enable =>
    rw [← channelEnable_of_drained hrouted hdraining]
    exact answers_channelEnable hw hrouted htest hen
  case drained => exact congrArg Host.Outcome.next (channelDisabled_of_drained hdraining hempty)
  case snap =>
    obtain ⟨v, hrun⟩ := exec_auditSnap hw
    refine ⟨_, hrun, rfl, State.bit_setBit (by decide) (by decide) _, auditCopy_auditSnap _ n, fun a ha => ?_⟩
    exact (State.reg_setReg_of_ne _ _ ha).trans (State.reg_setReg_of_ne _ _ ha)
  case clear =>
    obtain ⟨v, hrun⟩ := exec_hwmClr hw
    exact ⟨_, hrun, hwm_hwmSweep le_rfl _ n.isLt, chans_hwmSweep _ _⟩

/-! ### Tokens that stop their producer (R193, R195, R353) -/

/-- LD_0 is a SOURCE whose EN was written 0 while a payload that it had read waited for channel 5 (R353): the engine stops once that
token is issued. Channel 5 leads back to the sink endpoint of LD_0, drains with one token in flight, and has a free credit. -/
def stoppingSource : State :=
  { State.reset with
    supply := { SupplyState.reset with phase := .good, committed := true }
    regs := [(A.TC_ROUTE_P 5, 0x388), (A.TC_ROUTE_C 5, 0x3FF0380), (A.TC_CREDIT 5, 2),
      (A.TC_STATUS 5, fieldMask F.TC_STATUS_DISABLE_PENDING), (A.LD_CTRL 0, fieldBits F.LD_CTRL_MODE 2),
      (A.LD_STATUS 0, fieldMask F.LD_STATUS_BUSY)]
    chans := [(5, { Channel.init with
      queue := [{ payload := 88, tag := 0x500, accepted := [], passed := [] }], free := 1, returned := -1 })]
    ladles := [(0, { LadleState.init with stopping := true, payload := some 77 })] }

/-- RETURNED rises by 2: the token issued into the draining channel is returned (R193), and then the one in flight is, whose only
consumer reports DISABLED as the engine stops (R195). -/
theorem returned_stoppingSource : ((tokenIssue 0x388 stoppingSource).chan 5).returned = (stoppingSource.chan 5).returned + 2 := by
  decide

/-- Refutes O17: the issue of `stoppingSource` returns the token that channel 5 had in flight as well, where the statement has the
closed channel keep its queue and count one return. -/
theorem not_tokensAreIssuedAcceptedAndRetired : ¬ Obligations.TokensAreIssuedAcceptedAndRetired := by
  unfold Obligations.TokensAreIssuedAcceptedAndRetired
  rintro ⟨issues, -⟩
  have haccounted : stoppingSource.accounted 5 := ⟨by decide, by decide, by decide⟩
  obtain ⟨-, credited⟩ := issues stoppingSource 0x388 5 77 (by decide) (by decide) (by decide) (by decide) haccounted
  obtain ⟨t, hrun, -, -, -, -, -, -, -, closed⟩ := credited (by decide)
  obtain rfl : tokenIssue 0x388 stoppingSource = t := Host.Outcome.next.inj hrun
  obtain ⟨-, hchan⟩ := closed (by decide)
  exact absurd (returned_stoppingSource.symm.trans (congrArg Channel.returned hchan)) (by decide)

/-- Refutes O18: RETURNED of channel 5 stands at 2^48 − 1 in `stoppingSource`, and the issue leaves it at 1, not at 0. -/
theorem not_auditCountersWrap : ¬ Obligations.AuditCountersWrap := by
  unfold Obligations.AuditCountersWrap
  intro h
  obtain ⟨issues, -⟩ := h stoppingSource 0x388 5
  obtain ⟨-, closed⟩ := issues 77 (by decide) (by decide) (by decide) (by decide) (by decide)
  obtain ⟨t, hrun, hreturned, -⟩ := closed (by decide) (by decide)
  obtain rfl : tokenIssue 0x388 stoppingSource = t := Host.Outcome.next.inj hrun
  exact absurd (returned_stoppingSource.symm.trans hreturned) (by decide)

end Sys2Proof.Machine
